-- ==== Sys2Proof/Word.lean ====
section
/-! DEFINITION. The word types of the status map and of the byte strings (00 R10), and nothing else. -/

namespace Sys2Proof

/-- One byte of a frame, a record, an image or a key. -/
abbrev Byte := BitVec 8

/-- One 32-bit word of the status map (23 R493). -/
abbrev Word := BitVec 32

end Sys2Proof
end

