-- ==== Sys2Proof/Syntax.lean ====
section
/-! DEFINITION. The commands of the block: one constructor of `Instr` for each row of spec/opcode_table.json, in the
table's order. The table gives its rows no operands, so the operands are the model's: a host command carries its session
header and the parameters of 18 R400 (19 R417 for staging); an event carries what the module measures or receives in it.
A command whose tag fails is the row MGMT_TAG_FAIL; every other host command is one whose tag has been verified (18 R396). -/

namespace Sys2Proof

/-- The transport and port a management datagram came in on (18 R391, 15 R325). -/
inductive Transport where
  | udpA
  | udpB
  | spi
  deriving DecidableEq, Repr

/-- What a port sees of a received frame beside its contents: the VID of its IEEE 802.1Q tag (15 R325), and the RS-FEC codewords
corrected and uncorrectable that the port met since its previous frame (15 R340). -/
structure RxMeta where
  vlan : Option Nat
  fecCorr : Nat
  fecUncorr : Nat
  deriving DecidableEq, Repr

/-- How a management datagram came in (15 R325; 18 R391): transport and port, source address, and on a port the destination address and
UDP port, whether it is a fragment, and its frame. -/
structure Via where
  tr : Transport
  src : Nat
  dstIp : Nat
  dstUdp : Nat
  frag : Bool
  rx : RxMeta
  deriving DecidableEq, Repr

/-- The session header of a host command whose tag has been verified (18 R392, R396), and how its datagram came in. -/
structure Hdr where
  /-- SID of the management header. -/
  sid : Nat
  /-- SEQ of the management header, uint64. -/
  seq : Nat
  /-- Transport, port and source of the datagram. -/
  via : Via
  deriving DecidableEq, Repr

/-- One converter tick: the int8 codes of the four lanes (04 R90). The range in force, the erasure and the polarisations lost at the
tick are the state's (03 R70, R72; 04 R102). -/
structure Sample where
  xi : Int
  xq : Int
  yi : Int
  yq : Int
  deriving DecidableEq, Repr

/-- What a committing sheaf reads from outside the state the model holds: the converter samples of its input window from
tick `first` on (05 R109), the positions whose baseline word returned an uncorrectable error to a shot sheaf, the position and the
64-bit word of its record for each one a block sheaf read with such an error (05 R125), the positions whose quasi-static accumulator word did (10 R231), those whose reference or base word did (10 R230), and
whether the history writer's FIFO lost the rows this sheaf produces (13 R273). -/
structure SheafIn where
  first : Int
  samples : List Sample
  ue : List Nat
  recUe : List (Nat × Nat)
  qsUe : List Nat
  qsRefUe : List Nat
  histLost : Bool
  deriving DecidableEq, Repr

/-- What the housekeeping converter converts (17 R361, R362): an external input in µV, or the code of an internal source. -/
inductive HkIn where
  | volts (microvolts : Int)
  | code (n : Nat)
  deriving DecidableEq, Repr

/-- What a TDC measurement counts (16 R354): the vernier count N of the stop, and the number C of timing-clock edges since the
start of an interval (16 R355). -/
structure TdcIn where
  n : Nat
  c : Nat
  deriving DecidableEq, Repr

/-- The calibration measurements of one slice (04 R91, R95): offset and gain, each measured twice, and per phase the sampling instant
of each of the 32 delay taps against the nominal phase instant, in units of 0.1 ps, measured twice. -/
structure CalMeas where
  off1 : Int
  off2 : Int
  gain1 : Int
  gain2 : Int
  skew1 : List (List Int)
  skew2 : List (List Int)
  deriving DecidableEq, Repr

/-- What the live monitor accumulates for one phase of one lane over a window (04 R100): the sum and the sum of squares of
its 131,072 codes, and the AND and OR of their bits. -/
structure PhaseStat where
  sum : Int
  sumSq : Nat
  andBits : BitVec 8
  orBits : BitVec 8
  deriving DecidableEq, Repr

/-- How a DRAM read comes back from the SECDED decoder (14 R311). -/
inductive EccResult where
  | clean
  | corrected (syndrome : Nat)
  | uncorrectable (syndrome : Nat)
  deriving DecidableEq, Repr

/-- One request to the DRAM controller (14 R303, R304): the usable byte address, the requester code of R304, and for a write the offset
within the 64-byte unit and the bytes to be written from there on, all 64 for a write of the full unit (R295); none for a read. -/
structure DramReq where
  addr : Nat
  code : Nat
  write : Option (Nat × List Byte)
  deriving DecidableEq, Repr

/-- The header of a received Dzirak message and what its CRC-32 says (21 R450); TYPE is the row's and LEN its body's. -/
structure RingHdr where
  src : Nat
  /-- The rank addressed, 0xFF for all. -/
  dst : Nat
  hops : Nat
  seq : Nat
  crcOk : Bool
  deriving DecidableEq, Repr

/-- The body of a Dzirak HEARTBEAT (21 R450). -/
structure BeatBody where
  rank : Nat
  role : Nat
  pairRole : Nat
  joined : Bool
  hotPct : Nat
  eligible : Bool
  takebackReq : Bool
  fw : Nat
  deriving DecidableEq, Repr

/-- The body of a Dzirak JOIN_REQ (21 R450). -/
structure JoinBody where
  serial : Nat
  fw : Nat
  rank : Nat
  role : Nat
  fingerprint : List Byte
  deriving DecidableEq, Repr

/-- The body of a Dzirak STATE message (21 R450, R460). -/
structure StateBody where
  epoch : Nat
  period : Nat
  ns : Nat
  trainIdx : Nat
  /-- Rank of the active module of a pair. -/
  activeRank : Nat
  deriving DecidableEq, Repr

/-- The image-independent result of a slice's self-test (04 R97): how far each of the eight codes lies from its expected value. -/
abbrev SelfTestCodes := List Int

/-- The commands, one constructor per row of spec/opcode_table.json. -/
inductive Instr where
  -- status map, session commands READ and WRITE (R400, R494 to R500)
  | read (h : Hdr) (addr count : Nat)
  | write (h : Hdr) (addr : Nat) (data : List Word)
  | rcFieldRead (h : Hdr) (addr : Nat) (incs : Word)
  | latchedGroupRead (h : Hdr) (addr : Nat)
  | w1cWrite (h : Hdr) (addr : Nat) (val hwSet : Word)
  | intEnableWrite (h : Hdr) (addr : Nat) (val : Word)
  | hkRdWrite (h : Hdr) (val : Word)
  | logSelWrite (h : Hdr) (val : Word)
  | gpioOutWrite (h : Hdr) (val : Word)
  | pwrPadfuseWrite (h : Hdr) (val : Word)
  | blkrstReceiver (h : Hdr)
  | blkrstTiller (h : Hdr)
  | blkrstZone (h : Hdr)
  | blkrstHousekeeping (h : Hdr)
  | blkrstDone (failedTillers : List Nat)
  -- session commands (R400)
  | amend (h : Hdr) (type inst : Nat) (more : Bool) (group : Nat) (body : List Byte)
  | amendStatus (h : Hdr) (reqId : Nat)
  | acqStart (h : Hdr)
  | acqStop (h : Hdr)
  | sleep (h : Hdr)
  | standby (h : Hdr) (wakeS : Nat)
  | standbyEntry
  | laserArm (h : Hdr)
  | sync (h : Hdr)
  | retrain (h : Hdr) (blocks : List Nat)
  | qsRef (h : Hdr) (mode : Nat) (blocks : List Nat)
  | bankSwap (h : Hdr) (target nx : Nat)
  | record (h : Hdr) (instant : Option Nat) (range : Option (Nat × Nat))
  | recList (h : Hdr) (first max : Nat)
  | recLock (h : Hdr) (recId : Nat)
  | recUnlock (h : Hdr) (recId : Nat)
  | recDelete (h : Hdr) (recId : Nat)
  | recSend (h : Hdr) (stream recId : Nat)
  | rawArm (h : Hdr) (mode source tick f preF : Nat)
  | rawRelease (h : Hdr)
  | timeSet (h : Hdr) (time : Nat)
  | stageBegin (h : Hdr) (target force length : Nat) (hash : List Byte)
  | stageEraseDone
  | stageWrite (h : Hdr) (ofs : Nat) (data : List Byte)
  | stageCheck (h : Hdr)
  | activate (h : Hdr) (mode : Nat)
  | attest (h : Hdr) (nonce : List Byte)
  | certRead (h : Hdr) (ofs count : Nat)
  | streamKey (h : Hdr) (stream epoch : Nat)
  | streamRekey (h : Hdr)
  | credSalt (h : Hdr) (slot : Nat)
  | credSet (h : Hdr) (slot credId role iter : Nat) (kc : List Byte)
  | credClear (h : Hdr) (slot : Nat)
  | keyFuse (h : Hdr) (slot : Nat) (hash : List Byte)
  | keyRevoke (h : Hdr) (slot signer : Nat) (pub sig : List Byte)
  | lifecycle (h : Hdr) (target confirm : Nat)
  | lifecycleFuseWrite
  | mgmtRestart (h : Hdr)
  | mgmtResume
  | pairSwitch (h : Hdr) (action force : Nat)
  | close (h : Hdr)
  -- handshake and sessions (R391 to R399)
  | hello (via : Via) (credId : Nat) (nh : List Byte)
  | proof (via : Via) (sid : Nat) (hp : List Byte)
  | mgmtTagFail (via : Via)
  | spiResponseFetch
  | proofTimeout (sid : Nat)
  | credentialLockEnd (slot : Nat)
  | sessionTimeout (sid : Nat)
  -- power, reset and start-up (R425 to R447)
  | mainPowerOn
  | vaoMonitorAssert
  | vaoMonitorRelease
  | vrstAssert (busMv aMv bMv : Nat)
  | vrstRelease
  | feedLost (feed mv : Nat)
  | feedRestored (feed : Nat)
  | vwarnAssert (mv : Nat)
  | vwarnRelease
  | rstNLow
  | rstNRelease
  | wakeInEdge (rising : Bool) (timerToo : Bool)
  | wakeTimerExpiry (pinToo : Bool)
  | railsGood
  | systemPllLock (elapsedMs : Nat)
  /-- With the offsets of the retained structures whose CRC-32 fails (22 R487). -/
  | mgmtCoreStart (aosBad : List Nat)
  | imageValidated
  | dramCheckDone (badChannels : List Nat) (rowsPassing : List Nat)
  | startupStep6Done (failedTillers : List Nat)
  -- laser chain and launch schedule (R39 to R61)
  | ilkNLow
  | ilkQualified
  | ldAmpDelayEnd
  | ampSettleEnd
  | floorSegmentEnd (dark : List Sample)
  | initialCalDone (meas : List CalMeas)
  | launchPosition (raman : List (Nat × Nat))
  | tracePeriodBoundary
  | shadowTablesReady
  | launchMonEdge (m : TdcIn)
  | lmonWindowEnd
  -- receiver and converters (R71 to R101)
  | rangeFrameEnd (peak clips : Nat)
  | rangeSwitch
  | loPowerUpdate
  | rotationBoundary
  | calCommit (lane : Nat) (m : CalMeas)
  | sliceSelfTestDone (lane slice : Nat) (devs : SelfTestCodes)
  | monitorWindowEnd (stats : List PhaseStat)
  -- tillers (R113 to R121)
  | tillerTake (tiller : Nat)
  | sheafCommit (tiller : Nat) (inp : SheafIn)
  | sheafAbort (tiller cause : Nat)
  | sheafOverrun (tiller : Nat)
  | tillerKatDone (tiller : Nat) (pass : Bool)
  | winnowRelease (block : Nat)
  | releaseDeadline (block : Nat)
  | sheafAbandon (r block : Nat)
  -- decimation, Raman, zones, records (R193 to R289)
  | syncPadEdge
  | dtsAverageEnd (corrupt : List Nat)
  | dtsPartnerTimeout
  | zoneIntervalDecision (errZones : List Nat)
  | trigOutPulseEnd
  | trigInEdge (m : TdcIn)
  | recordRowCopy (src : Nat) (lost dramErr : List Nat)
  | holdOffEnd (src : Nat)
  | rawFrameWrite (frame : List Byte) (lost : Bool)
  -- DRAM controller (R302 to R312)
  | dramRequest (req : DramReq) (ecc : EccResult) (fill : Nat)
  | requestPromotion (ch idx : Nat)
  | refreshDue (ch bank : Nat)
  | mr4Read (ch band : Nat)
  | selfRefreshEntry (ch : Nat)
  | selfRefreshExit (ch : Nat)
  | rowTestDone (ch bank row : Nat) (lasting : Bool) (badCols : List Nat)
  -- time base and TDC (R342 to R356)
  | refQualified
  | refDisqualified
  | ppsEdge (m : TdcIn)
  | ppsLost
  | todSentence (bytes : List Byte) (msAfterEdge : Nat)
  | rateSegmentStart
  | todTxSend
  | tdc3Edge (m : TdcIn)
  | tdcCalDone (ch n1 n2 : Nat)
  | tdcSelfTestDone (ch : Nat) (devLsb : List Int)
  -- housekeeping (R363 to R377)
  | hkScanStart
  | hkConversion (input : HkIn)
  | rtdConversionEnd (ch microvolts nanoamps : Nat)
  | rtdBreak (ch : Nat)
  -- ports and streams (R317 to R338)
  | linkUp (port : Nat)
  | linkDown (port : Nat)
  | arpFrame (port : Nat) (rx : RxMeta) (isReply : Bool) (senderIp senderMac targetIp : Nat)
  | arpRequestTimer (port stream : Nat)
  | icmpEcho (port : Nat) (rx : RxMeta) (srcMac srcIp dstIp : Nat) (payload : List Byte)
  | rxFrameDiscard (port : Nat) (rx : RxMeta)
  | dasUnitForm (stream : Nat)
  | rowUnitForm (stream : Nat)
  | eventFrameForm (stream : Nat)
  | hkBatchForm (stream : Nat)
  | telemetry
  | heartbeatFrame (stream : Nat)
  | frameTransmit (port : Nat)
  -- FAULT_N, survey, GPIO (R443 to R447, R410, R505)
  | faultPulseEnd
  | surveyAcqEnd
  | surveyDrainEnd
  | gpioEdge (n : Nat) (level : Bool)
  | gpioPpsPulse
  | gpioPpsPulseEnd
  -- Dzirak ring and pair (R449 to R474)
  | dzirakLinkUp (lanes : Nat)
  | laneCrcExcess (dir lane crcErrors : Nat)
  | laneBistDone (dir lane : Nat) (pass : Bool)
  | heartbeat (rh : RingHdr) (body : BeatBody)
  | heartbeatSend
  | memberLost (rank : Nat)
  | joinReq (rh : RingHdr) (body : JoinBody)
  | joinAck (rh : RingHdr)
  | joinRefuse (rh : RingHdr) (reason : Nat)
  | joinRetry
  | timeSend
  | time (rh : RingHdr) (markTick masterTime delayPs : Nat)
  | slew (rh : RingHdr) (target : Nat) (ec : Int)
  | slewTimeout (rank : Nat)
  | state (rh : RingHdr) (body : StateBody)
  | syncIdx (rh : RingHdr) (ns : Nat)
  | amendProp (rh : RingHdr) (type inst : Nat) (body : List Byte)
  | amendVote (rh : RingHdr) (result : Nat)
  | amendVoteTimeout
  | amendCommit (rh : RingHdr) (period : Nat)
  | seedBegin (rh : Option RingHdr)
  | seedChunkReady (block : Nat)
  | seedChunk (rh : RingHdr) (block : Nat) (data : List Byte)
  | seedCommit (rh : RingHdr) (block : Nat)
  | seedEnd (rh : RingHdr)
  | reseedTimer
  | release (rh : RingHdr) (lastIdx : Nat)
  | takeReq (rh : RingHdr)
  | dtsTrace (rh : RingHdr) (avg : Nat) (lnR : List (Option Int))
  | arbGrantChange (low : Bool)
  | arbHbLost
  | soakEnd
  -- background work (R478 to R490)
  | sramScrub (bank row : Nat) (word : Nat) (err : EccResult)
  | dramScrub (ecc : EccResult)
  | tiaTrim (step : List Int)
  | tdcCheck (pass : Bool)
  | sramRowTestDone (bank row : Nat) (lasting : Bool)
  | flash
  | floorMeasurementStart
  | syncEdgeInstant (rh : RingHdr) (instant : Nat)
  deriving DecidableEq, Repr

end Sys2Proof
end

