-- ==== Sys2Proof/Decode.lean ====
section
/-! DEFINITION. The command a word spells by the bits of spec/opcode_table.json. The table gives none of its rows any bits (every
row's fields are empty), so no word spells a command. -/

namespace Sys2Proof

/-- The command that a word of `nbits` bits spells; no row of the table gives bits, so none. -/
def decodeTableWord (_nbits _w : Nat) : Option Instr := none

end Sys2Proof
end

