-- ==== Sys2Proof/Config.lean ====
section
/-! DEFINITION. What the spec leaves open, as constants without a body: no proof can see their values, so a statement holds
whatever they are. Each is applied to the state's counter of free values or to the operands it depends on (log 6). -/

namespace Sys2Proof.Config

/-- The n-th random byte the module draws: SIDs, ND, salts, stream master secrets, signature nonces (18 R390, R393, R394,
R402). -/
opaque freeByte : Nat → Byte

/-- The n-th unstated number, for a value that the spec does not state for the operands at hand. -/
opaque freeNat : Nat → Nat

/-- The rounding error of the n-th Raman temperature, of which the spec states only a bound (11 R249). -/
opaque freeInt : Nat → Int

/-- The LO power in 0.01 dBm for the sum and the number of the photocurrent codes of a millisecond: the spec states its accuracy,
±0.5 dB, and no conversion (03 R79). -/
opaque loPower : Nat → Nat → Int

/-- TYPE, INST and byte offset that a rejection shows where the spec gives none: a failing header, a missing record (19 R412). -/
opaque rejField : Nat → Nat

/-- What ITER of a CHALLENGE for an unknown or locked CRED_ID is derived from; the spec states only its SALT (18 R394). -/
opaque unknownIter : Nat → Nat

/-- The code byte of the n-th session result, in the order of the type: the spec names the results and gives no codes (18 R393, R396). -/
opaque resultCode : Nat → Byte

/-- TYPE of the message that carries a SYNC_P/N edge instant to the master, which the table of messages does not list (21 R450, R459). -/
opaque instantType : Nat

/-- The firmware verifies under the Kenmus root key; the format of a firmware image is not stated (18 R386). -/
opaque fwVerifies : List Byte → Bool

/-- FW_VERSION of a firmware image (18 R404). -/
opaque fwVersion : List Byte → Nat

/-- FW_SVN of a firmware image (18 R386). -/
opaque fwSvn : List Byte → Nat

end Sys2Proof.Config
end

