-- ==== Sys2Proof/Machine/Records.lean ====
section
/-! DEFINITION. The records of the configuration image as typed values (19 R410), each field in the unit its own rule gives,
and `Conf`, the settings in force. A field's default is the reset value of the register that shows it (02 R65, 03 R88,
08 R191, 09 R215, 10 R237, 11 R254, 12 R270, 13 R293, 14 R315, 15 R340, 16 R360, 17 R380, 20 R448, 21 R477); a field that
no register shows is 0 or empty until an image is active (log 2). -/

namespace Sys2Proof.Machine

/-- A sparse table: entries in strictly rising key order, none equal to the table's default (log 10). -/
abbrev SMap (α : Type) := List (Nat × α)

/-- PROBE record, 0x0010 (02 R30 to R50, R65). -/
structure ProbeRec where
  /-- PRB_STATUS[10:8] PLAN, R30. -/
  plan : Nat := 0
  /-- PRB_PLAN[10:8], R30. -/
  pitchLog2 : Nat := 0
  /-- N_G in units of 0.0001, R8; no register [log 2]. -/
  ng : Nat := 0
  /-- PRB_TTR, R38. -/
  ttr : Nat := 0
  /-- P, R107; no register [log 2]. -/
  p : Nat := 0
  /-- PRB_NC, R34. -/
  nc : Nat := 0
  /-- PRB_PLAN[12:11] DIR, R34. -/
  dir : Nat := 0
  /-- PRB_PLAN[15:13] TAPER code, R35, R65. -/
  taper : Nat := 0
  /-- PRB_OFFSET, kHz, R32. -/
  offset : Int := 0
  /-- GATE_LEAD, R47. -/
  gateLead : Nat := 0
  /-- GATE_TRAIL, R47. -/
  gateTrail : Nat := 0
  /-- DTS_POS, R48. -/
  dtsPos : Nat := 0
  /-- DTS_DELAY, R48. -/
  dtsDelay : Nat := 0
  /-- DTS_WIDTH, R48. -/
  dtsWidth : Nat := 0
  /-- PRB_LOFS, R43. -/
  launchOffset : Nat := 0
  /-- PRB_PLAN[17] LMON_EN, R46. -/
  lmonEn : Nat := 0
  /-- LMON_REF in ps, R46; no register [log 2]. -/
  lmonRef : Nat := 0
  /-- PRB_PLAN[16] Q_INV, R33. -/
  qInv : Nat := 0
  /-- LOT_GIVEN, R40; no register [log 2]. -/
  lotGiven : Nat := 0
  /-- A_k, R36; no register [log 2]. -/
  amp : List Nat := []
  /-- LOT as given, R40; no register [log 2]. -/
  lot : List Nat := []
  deriving DecidableEq, Repr

/-- LASER record, 0x0011 (02 R51 to R55); no register [log 2]. -/
structure LaserRec where
  /-- EMIT, R51; no register [log 2]. -/
  emit : Nat := 0
  /-- ILK_AUTO_RESUME, R55; no register [log 2]. -/
  autoResume : Nat := 0
  /-- LD_AMP_DELAY ms, R54, default 500. -/
  ldAmpDelay : Nat := 500
  /-- AMP_SETTLE ms, R54, default 50. -/
  ampSettle : Nat := 50
  deriving DecidableEq, Repr

/-- RECEIVER record, 0x0012 (03 R77, R88). -/
structure ReceiverRec where
  /-- RXF_CFG[0] MODE. -/
  mode : Nat := 0
  /-- RXF_CFG[2:1] FIXED_RANGE. -/
  fixedRange : Nat := 3
  /-- RXF_CFG[4:3] START_RANGE. -/
  startRange : Nat := 3
  /-- RXF_CFG[5] END_EN. -/
  endEn : Nat := 0
  /-- RXF_CFG[10:6] END_THR dB. -/
  endThr : Nat := 10
  /-- RXF_LO_MIN, 0.01 dBm, R80. -/
  loMin : Int := 0
  deriving DecidableEq, Repr

/-- PHASE record, 0x0014 (08 R188, R191). -/
structure PhaseRec where
  /-- COH_PH_CFG[7:0] GAUGE. -/
  gauge : Nat := 0
  /-- N_TRAIN (COH_PH_CFG[11:8] holds its log2). -/
  ntrain : Nat := 256
  /-- COH_PH_CFG[15:12] FADE_SHIFT. -/
  fadeShift : Nat := 4
  /-- TRACK_TAU ms, R178, default 10,000. -/
  trackTau : Nat := 10000
  /-- COH_PH_CFG[16] QUANTITY. -/
  quantity : Nat := 0
  /-- COH_PH_RAWLSB, RAW_LSB in pε/s. -/
  rawLsb : Nat := 10000
  /-- COH_PH_CFG[21:17] SS. -/
  ss : Nat := 0
  /-- COH_PH_LAMBDA, pm. -/
  lambda : Nat := 0
  deriving DecidableEq, Repr

/-- DECIMATION record, 0x0015 (09 R213, R215). -/
structure DecRec where
  /-- DEC_CFG[9:0] CIC_R. -/
  cicR : Nat := 1
  /-- DEC_CFG[14:10] FIR_DF. -/
  firDf : Nat := 1
  /-- DEC_CFG[22:15] TAPS, T. -/
  taps : Nat := 0
  /-- BANK_INIT, R201, 0 A, 1 B, 2 M. -/
  bankInit : Nat := 0
  /-- FILL_PCT. -/
  fillPct : Nat := 10
  /-- DEC_CFG[30:29] SYNC_SRC. -/
  syncSrc : Nat := 3
  /-- XFADE_LEN, R213, default 256. -/
  xfadeLen : Nat := 256
  deriving DecidableEq, Repr

/-- FIR record, 0x0016 (09 R201, R216). -/
structure FirRec where
  /-- Bank loaded (BANK_STATE is not 0), R216. -/
  loaded : Bool := false
  /-- BANK_GD in 1/256 CIC output. -/
  gd : Nat := 0
  /-- Coefficients h, R200. -/
  h : List Int := []
  deriving DecidableEq, Repr

/-- QS record, 0x0017 (10 R236, R237). -/
structure QsRec where
  /-- The image holds a quasi-static record, R233 [log 2]. -/
  present : Bool := false
  /-- QS_EN, R217 [log 2]. -/
  en : Nat := 0
  /-- QSS N_SD. -/
  nSd : Nat := 16
  /-- QSS_WINDOW ms. -/
  window : Nat := 10000
  /-- QSS_MINQ. -/
  minq : Nat := 64
  /-- CHAIN_EN. -/
  chainEn : Nat := 1
  /-- QSS_CT kHz/K. -/
  ct : Int := -1300000
  /-- QSS_CE kHz/µε. -/
  ce : Int := -150000
  deriving DecidableEq, Repr

/-- DTS record, 0x0018 (11 R253, R254). -/
structure DtsRec where
  /-- The image holds a DTS record [log 2]. -/
  present : Bool := false
  /-- DTS_CFG[0]. -/
  en : Nat := 0
  /-- P_DTS. -/
  pDts : Nat := 0
  /-- DTS_OFFSET ticks. -/
  offset : Nat := 0
  /-- DTS_CFG[1] DTS_GAIN. -/
  gain : Nat := 0
  /-- DTS_CFG[6:2]. -/
  nAvgLog2 : Nat := 14
  /-- DARK_START, R253 [log 2]. -/
  darkStart : Nat := 0
  /-- DARK_LEN, R253 [log 2]. -/
  darkLen : Nat := 0
  /-- COIL_START, R253 [log 2]. -/
  coilStart : Nat := 0
  /-- COIL_LEN, R253 [log 2]. -/
  coilLen : Nat := 0
  /-- DTS_CFG[8:7] COIL_RTD. -/
  coilRtd : Nat := 0
  /-- GAMMA 0.01 K, R253 default 63,350. -/
  gamma : Nat := 63350
  /-- DALPHA 0.0001 dB/km, R253. -/
  dalpha : Int := 0
  /-- DTS_CFG[9]. -/
  dalphaSrc : Nat := 0
  /-- DTS_CFG[10] DE_EN. -/
  deEn : Nat := 0
  /-- LOOP_SPAN, R248. -/
  loopSpan : Nat := 0
  deriving DecidableEq, Repr

/-- One band of a zone entry (12 R255). -/
structure ZoneBand where
  /-- FILT, 0 to 15. -/
  filt : Nat := 0
  /-- ACT[0], band enabled. -/
  en : Bool := false
  /-- ACT[1] EVENT. -/
  event : Bool := false
  /-- ACT[2] RECORD. -/
  record : Bool := false
  /-- ACT[3] TRIGOUT. -/
  trigout : Bool := false
  /-- LOW_i. -/
  low : Nat := 0
  /-- HIGH_i. -/
  high : Nat := 0
  deriving DecidableEq, Repr

/-- A zone entry of 32 bytes (12 R255). -/
structure ZoneEntry where
  /-- START, uint24. -/
  start : Nat := 0
  /-- CTRL[0] EN. -/
  en : Bool := false
  /-- CTRL[1] REDUCE, 1 = mean. -/
  reduce : Bool := false
  /-- CTRL[2] REPORT_REARM. -/
  reportRearm : Bool := false
  /-- LEN, uint24. -/
  len : Nat := 0
  /-- HYST in units of 16 level units. -/
  hyst : Nat := 0
  /-- PERSIST. -/
  persist : Nat := 0
  /-- TAG. -/
  tag : Nat := 0
  b0 : ZoneBand := {}
  b1 : ZoneBand := {}
  b2 : ZoneBand := {}
  b3 : ZoneBand := {}
  deriving DecidableEq, Repr

/-- ZONE_PARAMS record, 0x001B (12 R270). -/
structure ZoneParams where
  /-- ZI_MS. -/
  ziMs : Nat := 100
  /-- ZON_GUARD outputs. -/
  guard : Nat := 1024
  /-- ZON_EXCL mask. -/
  excl : Nat := 0x1507
  /-- TRIGOUT_W µs. -/
  trigoutW : Nat := 10
  deriving DecidableEq, Repr

/-- The settings of one trigger source (13 R292). -/
structure SrcRec where
  /-- EN_n, R292 default 0. -/
  en : Nat := 0
  /-- PRE_n, R292 default 500. -/
  pre : Nat := 500
  /-- POST_n, R292 default 500. -/
  post : Nat := 500
  /-- EXTEND_n. -/
  extend : Nat := 0
  /-- HOLD_MODE_n. -/
  holdMode : Nat := 0
  /-- HOLD_n. -/
  hold : Nat := 0
  /-- REC_START_n (PAD and CMD). -/
  recStart : Nat := 0
  /-- REC_LEN_n (PAD and CMD) [log 2]. -/
  recLen : Nat := 0
  deriving DecidableEq, Repr

/-- ACQUISITION record, 0x001C (13 R292, R293). -/
structure AcqRec where
  /-- RING_GIB, HIST_GIB. -/
  histGib : Nat := 0
  /-- REC_STORE_GIB [log 2]. -/
  recStoreGib : Nat := 0
  /-- RAWCAP_GIB, R288, default 0. -/
  rawcapGib : Nat := 0
  /-- ACQ_TOF0. -/
  tof0 : Nat := 0
  /-- FULL_MODE, R292 default 0. -/
  fullMode : Nat := 0
  zone : SrcRec := {}
  pad : SrcRec := {}
  cmd : SrcRec := {}
  /-- ZMARGIN, R292 default 0. -/
  zmargin : Nat := 0
  deriving DecidableEq, Repr

/-- DRAM record, 0x001D (14 R298, R314, R315). -/
structure DramRec where
  /-- CHMASK_0 to 2, R298: bits c, 7 + c, 13 + c. -/
  chmask : List Nat := [0x2081, 0x4102, 0x8204]
  /-- BKMASK_0 to 3, R298: bits 3 + i, 10 + i, 16 + i. -/
  bkmask : List Nat := [0x10408, 0x20810, 0x41020, 0x82040]
  /-- MEM_SR_IDLE µs. -/
  srIdle : Nat := 200
  /-- PANIC_THR percent. -/
  panicThr : Nat := 75
  /-- PANIC_CLR percent. -/
  panicClr : Nat := 50
  /-- MEM_AGE µs. -/
  memAge : Nat := 20
  deriving DecidableEq, Repr

/-- DRAM_TIMING record, 0x001E (14 R300) [log 2]. -/
structure DramTiming where
  /-- ORDER, R300 [log 2]. -/
  order : Nat := 0
  /-- SUBSTRATE_REV, R300 [log 2]. -/
  substrate : Nat := 0
  /-- Per channel CA_DLY, WCK_DLY, WR_DQ_DLY 0 and 1, RD_CAP_DLY 0 and 1, RD_GATE, R300 [log 2]. -/
  delays : List (List Nat) := []
  deriving DecidableEq, Repr

/-- NETWORK record, 0x001F (15 R316 to R325, R340). -/
structure NetRec where
  /-- NET_PATH. -/
  path : Nat := 0
  /-- MODE_A. -/
  modeA : Nat := 0
  /-- MODE_B. -/
  modeB : Nat := 0
  /-- NET_MTU. -/
  mtu : Nat := 1500
  /-- NET_IP. -/
  ip : Nat := 0
  /-- NET_MASK. -/
  mask : Nat := 0
  /-- NET_GW. -/
  gw : Nat := 0
  /-- NET_MAC bytes 0–3 (0 = factory, R318). -/
  macLo : Nat := 0
  /-- NET_MAC bytes 4–5. -/
  macHi : Nat := 0
  /-- VLAN_EN. -/
  vlanEn : Nat := 0
  /-- VID. -/
  vid : Nat := 0
  /-- MGMT_UDP. -/
  mgmtUdp : Nat := 0
  /-- SRC_UDP, R323 [log 2]. -/
  srcUdp : Nat := 0
  deriving DecidableEq, Repr

/-- STREAM record, 0x0020 (15 R326, R339, R340; 19 R410). -/
structure StreamRec where
  /-- EN. -/
  en : Nat := 0
  /-- STYPE, R326. -/
  stype : Nat := 0
  /-- AUTH, R330 [log 2]. -/
  auth : Nat := 0
  /-- DST_IP [log 2]. -/
  dstIp : Nat := 0
  /-- DST_UDP [log 2]. -/
  dstUdp : Nat := 0
  /-- DST_MAC bytes 0–3, R324 [log 2]. -/
  dstMacLo : Nat := 0
  /-- DST_MAC bytes 4–5, R324 [log 2]. -/
  dstMacHi : Nat := 0
  /-- DSCP [log 2]. -/
  dscp : Nat := 0
  /-- PCP [log 2]. -/
  pcp : Nat := 0
  /-- PRIO. -/
  prio : Nat := 0
  /-- HOME. -/
  home : Nat := 0
  /-- QMODE, R332 [log 2]. -/
  qmode : Nat := 0
  /-- RATE Mb/s, R336 [log 2]. -/
  rate : Nat := 0
  /-- RSEND, R333 [log 2]. -/
  rsend : Nat := 0
  /-- STANDBY_TX, R331 [log 2]. -/
  standbyTx : Nat := 0
  /-- RANGES as (start, length), R332 [log 2]. -/
  ranges : List (Nat × Nat) := []
  /-- TLIST addresses, R334 [log 2]. -/
  tlist : List Nat := []
  deriving DecidableEq, Repr

/-- TIME record, 0x0021 (16 R359, R360). -/
structure TimeRec where
  /-- REF_SEL. -/
  refSel : Nat := 0
  /-- TIME_SRC. -/
  timeSrc : Nat := 0
  /-- PPS_POL. -/
  ppsPol : Nat := 0
  /-- TDC3_SEL. -/
  tdc3Sel : Nat := 0
  /-- PRESC_0 to 3. -/
  presc : List Nat := [0, 0, 0, 0]
  deriving DecidableEq, Repr

/-- The settings of one housekeeping comparator (17 R372, R380). -/
structure CmpCfg where
  /-- CH. -/
  ch : Nat := 0
  /-- EN. -/
  en : Nat := 0
  /-- PERSIST. -/
  persist : Nat := 1
  /-- ACT: [0] interrupt, [1] FAULT_N pulse, [2] fault-log entry. -/
  act : Nat := 0
  /-- HYST, H in codes. -/
  hyst : Nat := 0
  /-- LOW. -/
  low : Nat := 0
  /-- HIGH. -/
  high : Nat := 4095
  deriving DecidableEq, Repr

/-- HOUSEKEEPING record, 0x0022 (17 R363 to R373, R380). -/
structure HkRec where
  /-- HK_MASK. -/
  mask : Nat := 0
  /-- HK_PERIOD µs. -/
  period : Nat := 0
  /-- HK_LEN. -/
  len : Nat := 256
  /-- The 32 comparators. -/
  cmps : List CmpCfg := List.replicate 32 {}
  deriving DecidableEq, Repr

/-- RTD record, 0x0023 (17 R379, R380). -/
structure RtdRec where
  /-- RTD_EN. -/
  en : Nat := 0
  /-- TYPE. -/
  type : Nat := 0
  /-- EXC. -/
  exc : Nat := 0
  deriving DecidableEq, Repr

/-- POWER record, 0x0026 (20 R446, R448). -/
structure PowerRec where
  /-- PWR_VWARN 0.01 V. -/
  vwarn : Nat := 960
  /-- AUTOSTART. -/
  autostart : Nat := 0
  /-- SURVEY_EN. -/
  surveyEn : Nat := 0
  /-- SURVEY_ACQ_S. -/
  surveyAcqS : Nat := 600
  /-- SURVEY_END. -/
  surveyEnd : Nat := 1
  /-- SURVEY_DRAIN_S. -/
  surveyDrainS : Nat := 10
  deriving DecidableEq, Repr

/-- CASCADE record, 0x0027 (21 R453, R477). -/
structure CascadeRec where
  /-- ROLE, 0 when there is no record. -/
  role : Nat := 0
  /-- RANK. -/
  rank : Nat := 0
  /-- MEMBERS. -/
  members : Nat := 0
  /-- HOP_DLY ps. -/
  hopDly : Nat := 0
  deriving DecidableEq, Repr

/-- PAIR record, 0x0028 (21 R476, R477). -/
structure PairRec where
  /-- The image holds a PAIR record [log 2]. -/
  present : Bool := false
  /-- ARB_MODE. -/
  arbMode : Nat := 0
  /-- PREFERRED. -/
  preferred : Nat := 0
  /-- TAKEBACK. -/
  takeback : Nat := 0
  /-- SOAK_S. -/
  soakS : Nat := 600
  /-- RESEED_S. -/
  reseedS : Nat := 3600
  deriving DecidableEq, Repr

/-- The settings in force: the active image's records as amended (19 R410, R421, R422). -/
structure Conf where
  probe : ProbeRec := {}
  laser : LaserRec := {}
  receiver : ReceiverRec := {}
  /-- COH_CMP_CFG[1:0] WINDOW, 07 R164, R167. -/
  window : Nat := 0
  phase : PhaseRec := {}
  dec : DecRec := {}
  firA : FirRec := {}
  firB : FirRec := {}
  firM : FirRec := {}
  qs : QsRec := {}
  dts : DtsRec := {}
  /-- The zone table, 4,096 entries (12 R255); an unlisted zone is disabled. -/
  zones : SMap ZoneEntry := []
  /-- The band filter table, 16 × (B0, B1, B2, A1, A2) (12 R258); an unlisted filter is all zero. -/
  filters : SMap (List Int) := []
  zparams : ZoneParams := {}
  acq : AcqRec := {}
  dram : DramRec := {}
  dramTiming : DramTiming := {}
  net : NetRec := {}
  /-- The 16 STREAM records (15 R326). -/
  streams : List StreamRec := List.replicate 16 {}
  time : TimeRec := {}
  hk : HkRec := {}
  /-- The four RTD records (17 R379). -/
  rtd : List RtdRec := List.replicate 4 {}
  /-- SESSION_TIMEOUT s, 18 R399, default 60. -/
  sessionTimeout : Nat := 60
  /-- FUNCTION_0 to 7, 19 R410; GPIO_FUNC. -/
  gpio : List Nat := List.replicate 8 0
  power : PowerRec := {}
  cascade : CascadeRec := {}
  pair : PairRec := {}
  deriving DecidableEq, Repr

end Sys2Proof.Machine
end

