-- ==== Sys2Proof/Machine/Parts1.lean ====
section
/-! DEFINITION. The state of the parts of the module, first half: pads, global registers, power, probe comb, receiver,
converters, tillers, coherent chain and decimators. Every field's docstring names the rule that gives it; a field's default
is its value at reset, the register's reset value where the spec gives one, else a value log 2 or log 3 names. -/

namespace Sys2Proof.Machine

/-- A pair of INT_STATUS and INT_ENABLE (23 R503). -/
structure IntPair where
  /-- INT_STATUS, W1C, 32 bits; reset 0. -/
  st : Word := 0
  /-- INT_ENABLE, RW, 32 bits; reset 0 (R504). -/
  en : Word := 0
  deriving DecidableEq, Repr

/-- One launch as the pads carry it (02 R34 to R36, R42). -/
structure LaunchOut where
  /-- Raw-sample index r, R41. -/
  r : Nat
  /-- Slot k = LOT[j], R39. -/
  slot : Nat
  /-- Launch instant, tick index, R42. -/
  tick : Nat
  /-- Direction d, +1 up or −1 down, R34. -/
  dir : Int
  /-- Start frequency word fw, R36. -/
  fw : Nat
  /-- Frequency step cw, R36. -/
  cw : Int
  /-- A_k, R36. -/
  amp : Nat
  /-- N_c, R34. -/
  nc : Nat
  /-- N_t, R35. -/
  nt : Nat
  /-- PRB_Q_INVERT, R33. -/
  qInv : Bool
  deriving DecidableEq, Repr

/-- The module's pads (24 R507; levels before configuration 20 R436). -/
structure Pads where
  /-- LD_EN high, 02 R51, R436: driven low at reset. -/
  ldEn : Bool := false
  /-- AMP_EN high, 02 R51, R436: low at reset. -/
  ampEn : Bool := false
  /-- GATE is permitted to pulse (02 R47, R50, R436): low at reset. -/
  gate : Bool := false
  /-- GATE_DTS fires in the present trace period (02 R48, R436): low at reset. -/
  gateDts : Bool := false
  /-- PRB_I and PRB_Q muted for another cause than a tick outside a chirp, 02 R64; PRB_STATUS[3] reads 1 at reset (R65). -/
  muted : Bool := true
  /-- The chirp on PRB_I and PRB_Q of the latest launch, 02 R42; none while muted [log 2]. -/
  chirp : Option LaunchOut := none
  /-- Ticks after the launch instant at which GATE rises (−GATE_LEAD) and falls, 02 R47; of the latest launch [log 2]. -/
  gateWin : Option (Int × Int) := none
  /-- GATE_DTS high interval of the latest trace period in ticks after E, 02 R48 [log 2]. -/
  gateDtsWin : Option (Nat × Nat) := none
  /-- TRIG_OUT high, 12 R266; driven low at reset (R436). -/
  trigOut : Bool := false
  /-- ARB_HB runs, 21 R464; driven low at reset (R436). -/
  arbHb : Bool := false
  /-- Latest sentence on TOD_TX, 16 R352; idle at reset (R436). -/
  todTx : List Byte := []
  /-- ILK_N level high, 02 R52 (an open input reads low). -/
  ilkN : Bool := false
  /-- ARB_GRANT_N low and qualified, 21 R465 (pull-up: not granted) [log 2]. -/
  granted : Bool := false
  /-- The level of each GPIO at its pad input, synchronised, GLB GPIO_IN; reset 0. -/
  gpioIn : BitVec 8 := 0
  /-- PPS_OUT pulse high on the function-3 GPIO, 19 R410 [log 2]. -/
  ppsOut : Bool := false
  /-- FAULT_N held low by a 1 ms pulse, 20 R443 [log 2]. -/
  faultPulse : Bool := false
  deriving DecidableEq, Repr

/-- GLB registers (23 R505). -/
structure Glb where
  /-- GLB_QSUM, RC, 16 bits; reset 0. -/
  qsum : Nat := 0
  /-- UPTIME at tick index 0 in ms, 23 R505: the part of start-up before the PLL locked; reset 0. -/
  uptimeBase : Nat := 0
  /-- GLB_SCRATCH, RW; reset 0. -/
  scratch : Word := 0
  /-- GPIO_OUT, RW, 8 bits; reset 0. -/
  gpioOut : BitVec 8 := 0
  /-- GLB_INT_STATUS and GLB_INT_ENABLE; reset 0. -/
  int : IntPair := {}
  /-- GLB_INT_MASK, RW, 20 bits; reset 0. -/
  intMask : BitVec 20 := 0
  deriving DecidableEq, Repr

/-- Where start-up stands (20 R440) or which mode runs (R428). -/
inductive Phase where
  /-- Held: a reset source of reach A or B asserted, or the rails not yet on (step 1 pending). -/
  | rails
  /-- Rails good; step 2 pending (held here while reach C is asserted, R433). -/
  | pll
  /-- Step 3 pending: firmware selection. -/
  | mgmt
  /-- Step 4 pending: image validation. -/
  | image
  /-- Step 5 pending: DRAM check. -/
  | dram
  /-- Step 6 pending. -/
  | step6
  /-- The golden image runs (19 R415). -/
  | golden
  | sleep
  | acquisition
  | stopping
  | standby
  deriving DecidableEq, Repr

/-- What follows the stop procedure (20 R428). -/
inductive StopTo where
  | sleep
  | standby (wakeS : Nat)
  | survey
  deriving DecidableEq, Repr

/-- PWR registers and the mode machine (20 R424 to R448). -/
structure Pwr where
  /-- Start-up step or mode, 20 R428, R440; step 1 after a reach A reset. -/
  phase : Phase := .rails
  /-- PWR_STATUS FEED_A_OK, R425; reset 0. -/
  feedAOk : Bool := false
  /-- PWR_STATUS FEED_B_OK, R425; reset 0. -/
  feedBOk : Bool := false
  /-- The VWARN monitor asserted, R425: starts asserted after reach A. -/
  vwarnMon : Bool := true
  /-- PWR_STATUS WARN, R425; reset 0. -/
  warn : Bool := false
  /-- VRST monitor asserted, R425: starts asserted after reach A. -/
  vrst : Bool := true
  /-- VAO monitor asserted, R425: starts asserted after reach A. -/
  vao : Bool := true
  /-- RST_N reset held, R434 [log 2]. -/
  rstHeld : Bool := false
  /-- A valid bus has been applied since reach A, R432 [log 2]. -/
  busSeen : Bool := false
  /-- Main rails on, R440 step 1; off after reach A. -/
  rails : Bool := false
  /-- The first configured state has been reached since the latest reset, R441 [log 2]. -/
  configured : Bool := false
  /-- PWR_STATUS SURVEY, R447; reset 0. -/
  survey : Bool := false
  /-- Survey timer armed in sleep or the wake timer in standby, seconds, R430, R447 [log 2]. -/
  wakeTimer : Option Nat := none
  /-- The survey acquisition has ended and the drain of R447 step 5 runs [log 2]. -/
  draining : Bool := false
  /-- PWR_CAUSE VAO_POR, R435: a reach A reset sets it. -/
  causeVao : Bool := true
  /-- PWR_CAUSE MAIN_POR; cleared by reach A. -/
  causeMain : Bool := false
  /-- PWR_CAUSE VRST; cleared by reach A. -/
  causeVrst : Bool := false
  /-- PWR_CAUSE RST_N; cleared by reach A. -/
  causeRst : Bool := false
  /-- PWR_CAUSE ACTIVATE; cleared by reach A. -/
  causeActivate : Bool := false
  /-- PWR_CAUSE WAKE; cleared by reach A. -/
  causeWake : Bool := false
  /-- PWR_WAKE_CAUSE[2:0], R448, retained; 0 after reach A [log 2]. -/
  wakeCause : BitVec 3 := 0
  /-- The start-up under way, or the latest one, came from a wake in standby, R431, R447 [log 2]. -/
  woken : Bool := false
  /-- A wake kept while VRST is asserted, R431 [log 2]. -/
  wakeKept : Bool := false
  /-- PWR_BOOT_COUNT, R435; 0 after reach A ("start-ups since reach A"). -/
  bootCount : Nat := 0
  /-- PWR_SURVEY_CYCLES, R447, retained; 0 after reach A [log 2]. -/
  surveyCycles : Nat := 0
  /-- PWR_WARNS, RC; reset 0. -/
  warns : Nat := 0
  /-- FEED_A_LOSSES, RC; reset 0. -/
  feedALosses : Nat := 0
  /-- FEED_B_LOSSES, RC; reset 0. -/
  feedBLosses : Nat := 0
  /-- Block resets under way, PWR_BLKRST bits, R445 [log 2]. -/
  blkrst : BitVec 4 := 0
  /-- STANDBY answered and waiting its 100 ms, with WAKE_S, R430 [log 2]. -/
  standbyWait : Option Nat := none
  /-- The tick index at which that STANDBY was answered, R430 [log 2]. -/
  standbyTick : Nat := 0
  /-- What follows the stop procedure, R429 [log 2]. -/
  stopTo : StopTo := .sleep
  /-- Launches ended; the boundary of R429 step 1 has passed [log 2]. -/
  stopped : Bool := false
  /-- The POWER settings the running survey cycle took at its start, R446, R447 [log 2]. -/
  cycle : PowerRec := {}
  /-- PWR_INT_STATUS and PWR_INT_ENABLE; reset 0. -/
  int : IntPair := {}
  deriving DecidableEq, Repr

/-- Where the arming of the laser chain stands (02 R54). -/
inductive Arm where
  /-- Not armed and not arming. -/
  | off
  /-- Step 1: waiting for ILK_N to qualify. -/
  | waitIlk
  /-- Step 2: LD_AMP_DELAY runs. -/
  | ampDelay
  /-- Step 3: AMP_SETTLE runs. -/
  | settle
  /-- Step 3 over: waiting for the first launch instant. -/
  | waitLaunch
  /-- Armed: launches run. -/
  | armed
  /-- Tripped and not re-armed (R55). -/
  | tripped
  deriving DecidableEq, Repr

/-- A deferred amendment of one record (19 R421). -/
structure PendAmend where
  /-- REQ_ID, 18 R401. -/
  req : Nat
  /-- The settings as they are once the amendment is applied, in its own record only. -/
  conf : Conf
  /-- Tick index of acceptance, 02 R59, 08 R189. -/
  tick : Nat
  /-- Shadow waveform tables built, 02 R59. For a PHASE or WINDOW amendment: it waits for its own 2 ms; false where it takes effect
  with the probe-comb or WINDOW amendment that was pending when it was accepted, 07 R167, 08 R189. -/
  ready : Bool
  deriving DecidableEq, Repr

/-- From raw-sample index `r0`, the start of trace period `m0`, on, S slots lie in a trace period (02 R41). -/
structure PlanSeg where
  r0 : Nat
  m0 : Nat
  s : Nat
  deriving DecidableEq, Repr

/-- PRB registers and the launch schedule (02 R30 to R65). -/
structure Prb where
  /-- PRB_STATUS LAUNCHING; reset 0. -/
  launching : Bool := false
  /-- PRB_STATUS ILK_OK, R52; reset 0. -/
  ilkOk : Bool := false
  /-- A trip awaits its ILK_CLEAR, R65 PRB_INT_STATUS[1] [log 2]. -/
  ilkTripped : Bool := false
  /-- PRB_STATUS LMON_FROZEN, R46; reset 0. -/
  lmonFrozen : Bool := false
  /-- Arming of R54 [log 2]. -/
  arm : Arm := .off
  /-- The arming in progress is a re-arming during an acquisition, R55 [log 2]. -/
  rearm : Bool := false
  /-- Launch epoch E, R41; none before the first launch instant is set. -/
  epoch : Option Nat := none
  /-- Raw-sample index of the next launch position, R41 [log 2]. -/
  nextR : Nat := 0
  /-- Trace period of the next launch position, R41 [log 2]. -/
  m : Nat := 0
  /-- Launch position j of the next launch, R39 [log 2]. -/
  j : Nat := 0
  /-- The boundary of trace period `m` has been processed, R39 [log 2]. -/
  boundaryDone : Bool := false
  /-- Segments of constant S, newest first, R41 [log 2]. -/
  segs : List PlanSeg := []
  /-- RAWIDX: index of the latest launch position, 64 bits; reset 0. -/
  rawIdx : Nat := 0
  /-- Raw-sample index of the last launch actually made, 22 R489 code 0x0201 [log 2]. -/
  lastLaunch : Nat := 0
  /-- A launch has been made in this acquisition, 08 R179 [log 2]. -/
  launched : Bool := false
  /-- LMON_D ps; reset 0. -/
  lmonD : Nat := 0
  /-- The valid measurements of the acquisition, newest first, up to 16, R46 [log 2]. -/
  lmonSet : List Nat := []
  /-- Δ in force in ps, LMON_DRIFT, R46; reset 0. -/
  lmonDrift : Int := 0
  /-- LMON_APPLIED, ticks, R46; reset 0. -/
  lmonApplied : Int := 0
  /-- Consecutive measured trace periods without an edge, R46 [log 2]. -/
  lmonMissRun : Nat := 0
  /-- Consecutive valid measurements while frozen, newest first, R46 [log 2]. -/
  lmonGood : List Nat := []
  /-- The 4,095-tick window of R46 is open for this trace period [log 2]. -/
  lmonOpen : Bool := false
  /-- The launch instant that window begins at, R46 [log 2]. -/
  lmonTick : Nat := 0
  /-- Tick at which AMP_SETTLE of the arming began, R54, 03 R81 [log 2]. -/
  settleFrom : Nat := 0
  /-- LMON_MISSES, RC, saturating at 65,535; reset 0. -/
  lmonMisses : Nat := 0
  /-- Trace-period index at which training is expected to finish, TRAIN_END; reset 0. -/
  trainEnd : Nat := 0
  /-- The pending probe-comb amendment, R59, R61, PRB_STATUS PENDING and SHADOW_READY; reset none. -/
  pend : Option PendAmend := none
  /-- PRB_INT_STATUS and PRB_INT_ENABLE; reset 0. -/
  int : IntPair := {}
  deriving DecidableEq, Repr

/-- One judged shot of the fibre-end detector (03 R82, R83). -/
structure Judged where
  r : Nat
  /-- End e in ticks, R83. -/
  e : Nat
  deriving DecidableEq, Repr

/-- What one block adds to the profile of a shot (03 R82): per bin, its number, the sum of the combined powers, the number of
positions, whether a position carries RANGE, and the range in force at its positions. -/
structure BinPart where
  bin : Nat
  sum : Nat
  count : Nat
  range : Bool
  inForce : Nat
  deriving DecidableEq, Repr

/-- The profile of a shot as its blocks are released (03 R82): its processed blocks, the bins, how many of its blocks have been
released, and whether one was a placeholder row. -/
structure ShotProf where
  r : Nat
  blocks : Nat
  bins : List BinPart
  released : Nat
  bad : Bool
  deriving DecidableEq, Repr

/-- One pending amendment of the RECEIVER record (03 R77). -/
structure PendRx where
  req : Nat
  cfg : ReceiverRec
  deriving DecidableEq, Repr

/-- From tick `tick` on the range is `range` (03 R71, R81); `erase` says that a range switch made it, whose ticks R72 erases. -/
structure RangeSeg where
  tick : Nat
  range : Nat
  erase : Bool
  deriving DecidableEq, Repr

/-- RXF registers (03 R88). -/
structure Rxf where
  /-- RXF_STATUS RANGE; reset 3. -/
  range : Nat := 3
  /-- The ranges of the ticks, newest first, R70 to R72 [log 2]. -/
  segs : List RangeSeg := [{ tick := 0, range := 3, erase := false }]
  /-- The floor measurement runs and sets the ranges, R76, R81: the segment, 0 to 3 [log 2]. -/
  floorSeg : Option Nat := none
  /-- RXF_STATUS FLOOR_VALID; reset 0. -/
  floorValid : Bool := false
  /-- FLOOR_0 to 3; reset 0. -/
  floors : List Nat := [0, 0, 0, 0]
  /-- RXF_STATUS END_VALID; reset 0. -/
  endValid : Bool := false
  /-- RXF_STATUS BROKEN; reset 0. -/
  broken : Bool := false
  /-- RXF_STATUS LO_LOW, R80; reset 0. -/
  loLow : Bool := false
  /-- RXF_STATUS LO_HIGH; reset 0. -/
  loHigh : Bool := false
  /-- RXF_STATUS LO_LOST; reset 0. -/
  loLost : Bool := false
  /-- Consecutive updates beyond the LO_LOW threshold in force, R80 [log 2]. -/
  loLowRun : Nat := 0
  /-- As `loLowRun`, for LO_HIGH [log 2]. -/
  loHighRun : Nat := 0
  /-- As `loLowRun`, for LO_LOST [log 2]. -/
  loLostRun : Nat := 0
  /-- RXF_LO_PWR, 0.01 dBm, int16; reset 0x8000. -/
  loPwr : Int := -32768
  /-- Sum and number of the channel-16 codes of the millisecond in progress, R79 [log 2]. -/
  loSum : Nat := 0
  loCount : Nat := 0
  /-- Tick index at which housekeeping scanning started, R79; reset none. -/
  loFrom : Option Nat := none
  /-- Index of the millisecond of the tick index that the next update covers, R79 [log 2]. -/
  loMs : Nat := 0
  /-- Frames in a row with a peak of at most 52, up to 16, R74 [log 2]. -/
  lowRun : Nat := 0
  /-- Index of the next 256-tick frame to be judged, R74 [log 2]. -/
  frame : Nat := 0
  /-- Tick of the previous switch of R75 in this reset, SWITCH_TICK; 0 with none made; reset 0. -/
  switchTick : Nat := 0
  /-- A switch has been made since reset, R75 [log 2]. -/
  switched : Bool := false
  /-- The switch waiting for its tick: tick, range, and whether it is an automatic one, R71, R76, R77 [log 2]. -/
  pendSwitch : Option (Nat × Nat × Bool) := none
  /-- RXF_SWITCHES, RC; reset 0. -/
  switches : Nat := 0
  /-- RXF_CLIPS, RC; reset 0. -/
  clips : Nat := 0
  /-- END_REF ticks; reset 0. -/
  endRef : Nat := 0
  /-- END_NOW ticks; reset 0. -/
  endNow : Nat := 0
  /-- END_DECL ticks; reset 0. -/
  endDecl : Nat := 0
  /-- The latest judged shots, newest first, at most 128, R83 [log 2]. -/
  judged : List Judged := []
  /-- The run of judged shots short of END_REF (or of END_DECL while broken), newest first, R84 [log 2]. -/
  breakRun : List Judged := []
  /-- The number of judged shots in a row at full length, R86 [log 2]. -/
  restoreRun : Nat := 0
  /-- First position carrying BEYOND_END in force, with the declared end in ticks, R85 [log 2]. -/
  beyond : Option (Nat × Nat) := none
  /-- What takes effect at the next boundary: some none ends BEYOND_END, R85, R86 [log 2]. -/
  beyondPend : Option (Option (Nat × Nat)) := none
  /-- Training has ended in every processed block with the commit of this shot: END_REF is to be learned, R83 [log 2]. -/
  learn : Option Nat := none
  /-- The profiles of shots whose rows are not all released, R82 [log 2]. -/
  profiles : List ShotProf := []
  /-- TIA offset trims per lane in 1/4 LSB of x, R70 (TIA_TRIM) [log 2]. -/
  tiaTrim : List Int := [0, 0, 0, 0]
  /-- Pending RECEIVER amendments, oldest first, R77; reset none. -/
  pend : List PendRx := []
  /-- RXF_INT_STATUS and RXF_INT_ENABLE; reset 0. -/
  int : IntPair := {}
  deriving DecidableEq, Repr

/-- A converter slice's role (04 R105 ADC_SLICE STATE). -/
inductive SliceState where
  | serving
  | out
  | retired
  deriving DecidableEq, Repr

/-- One converter slice (04 R91, R105). -/
structure Slice where
  /-- OFFSET trim in force; factory. -/
  off : Int := 0
  /-- GAIN trim in force; factory. -/
  gain : Int := 0
  /-- Delay taps of phases 0–7, R91; factory. -/
  taps : List Nat := [0, 0, 0, 0, 0, 0, 0, 0]
  /-- PHASE served; none while out or retired (0xF), R93. -/
  phase : Option Nat := none
  /-- STATE, R93. -/
  state : SliceState := .serving
  /-- SUSPECT; reset 0. -/
  suspect : Bool := false
  /-- REJ_RUN; reset 0. -/
  rejRun : Nat := 0
  /-- New trims loaded at the commit point, in effect when the slice next serves, R95, R96 [log 2]. -/
  next : Option (Int × Int × List Nat) := none
  /-- Consecutive windows in which the slice was suspect, R101 [log 2]. -/
  suspRun : Nat := 0
  /-- Tick index of the first suspect window, R100 [log 2]. -/
  suspFrom : Nat := 0
  /-- A self-test of R97 is running, with the failing check and the measured value of the rejection [log 2]. -/
  testing : Option (Nat × Int) := none
  deriving DecidableEq, Repr

/-- One converter lane (04 R89, R92, R105). -/
structure Lane where
  /-- The nine slices. -/
  slices : List Slice := []
  /-- The slice that went out at the lane's previous step, R92. -/
  lastOut : Nat := 8
  /-- The lane is lost (LANE_LOST), R101, retained. -/
  lost : Bool := false
  /-- The lane is lost from the next rotation boundary on, R102, with the tick of the first suspect window [log 2]. -/
  losing : Option Nat := none
  /-- ADC_CALS, RC; reset 0. -/
  cals : Nat := 0
  /-- ADC_REJECTS, RC; reset 0. -/
  rejects : Nat := 0
  /-- ADC_SUSPECTS, RC; reset 0. -/
  suspects : Nat := 0
  deriving DecidableEq, Repr

/-- The arrangement of R93 for a lane without a retired slice, with zero trims (log 3). -/
def Lane.fresh : Lane :=
  { slices := (List.range 9).map fun i =>
      if i < 8 then { phase := some i, state := .serving } else { phase := none, state := .out } }

/-- ADC registers (04 R105). -/
structure Adc where
  /-- ADC_STATUS RUNNING; reset 0. -/
  running : Bool := false
  /-- ADC_STATUS INIT_DONE; reset 0. -/
  initDone : Bool := false
  /-- ADC_STATUS POL_X_LOST; retained, 0 after reach A. -/
  polXLost : Bool := false
  /-- ADC_STATUS POL_Y_LOST; retained, 0 after reach A. -/
  polYLost : Bool := false
  /-- The ticks from which the X and the Y samples of a lost polarisation are 0, R102 [log 2]. -/
  polXFrom : Nat := 0
  polYFrom : Nat := 0
  /-- ADC_ROT_COUNT; reset 0. -/
  rotCount : Nat := 0
  /-- Tick of the latest rotation boundary and of the latest monitor-window end processed, R92, R100 [log 2]. -/
  lastRot : Nat := 0
  lastWin : Nat := 0
  /-- FAULT_N is held since both polarisations were lost, until the next reset of reach B or A, R102. -/
  polHold : Bool := false
  /-- The four lanes, R93. -/
  lanes : List Lane := List.replicate 4 Lane.fresh
  /-- ADC_INT_STATUS and ADC_INT_ENABLE; reset 0. -/
  int : IntPair := {}
  deriving DecidableEq, Repr

/-- A shot as launched (02 R41, R43; 07 R165): what its sheaves need of the settings in force at its launch. -/
structure Shot where
  r : Nat
  /-- Launch instant t_L. -/
  tick : Nat
  /-- Capture-window start c0, R43 with the correction of R46. -/
  c0 : Int
  /-- Trace period and launch position. -/
  m : Nat
  j : Nat
  slot : Nat
  muted : Bool
  thinned : Bool
  /-- Blocks processed for this shot (the rest are shed, 05 R130). -/
  blocks : Nat
  /-- Settings of the launch: PROBE and PHASE records, WINDOW. -/
  probe : ProbeRec
  phase : PhaseRec
  window : Nat
  /-- First position beyond the declared end in force at the launch, 03 R85, 10 R231. -/
  beyond : Option Nat
  deriving DecidableEq, Repr

/-- One raw sample: value and raw flag set (05 R123). -/
structure Raw where
  v : Nat
  fl : Nat
  deriving DecidableEq, Repr

/-- A row of the winnow (05 R120). -/
structure Row where
  r : Nat
  /-- 1,024 raw samples; empty where they all carry value 0 and `fl`. -/
  data : List Raw
  /-- Flags of a row without data. -/
  fl : Nat
  /-- A placeholder for a shot sheaf (R111, R121) or a discarded row (R122). -/
  placeholder : Bool
  /-- A discarded row, R122: it takes none of the 512 places. -/
  gap : Bool
  deriving DecidableEq, Repr

/-- A sheaf (05 R108). -/
inductive Sheaf where
  | shot (r b : Nat)
  | block (b : Nat) (batch : List Row)
  | glean (tiller : Nat)
  deriving DecidableEq, Repr

/-- What a tiller does (05 R132 TIL_TSTATE). -/
inductive TState where
  /-- 0 idle or gated. -/
  | idle
  /-- 1 running a sheaf. -/
  | running (sh : Sheaf)
  /-- 2 under test, with the cause and the sheaf identity of R489 code 0x0401. -/
  | test (cause : Nat) (ident : List Byte)
  /-- 3 retired. -/
  | retired
  deriving DecidableEq, Repr

/-- The winnow's state of one block (05 R120 to R122). -/
structure WBlock where
  /-- Raw-sample index of the next row to be released. -/
  nextR : Nat := 0
  /-- Rows committed or replaced and not yet released. -/
  done : List Row := []
  /-- Rows released that no block sheaf has taken, oldest first. -/
  held : List Row := []
  /-- Raw-sample indices released as late placeholders whose sheaf still runs, R121. -/
  late : List Nat := []
  /-- A block sheaf of the block is queued or running (its token), R112, R115. -/
  busy : Bool := false
  deriving DecidableEq, Repr

/-- TIL registers and the tiller array (05 R106 to R132). -/
structure Til where
  /-- TIL_STATUS RUNNING; reset 0. -/
  running : Bool := false
  /-- TIL_K, k in force, R128; reset 0. -/
  k : Nat := 0
  /-- TIL_STATUS SHEDDING; reset 0. -/
  shedding : Bool := false
  /-- A new k (and blocks run, shedding) that waits for its boundary, K_PENDING, R129; reset none. -/
  kPend : Option (Nat × Nat × Bool) := none
  /-- TIL_BLOCKS_RUN; reset 0. -/
  blocksRun : Nat := 0
  /-- k and the blocks processed from each raw-sample index r_k on, newest first, R129, R130 [log 2]. -/
  kSegs : List (Nat × Nat × Nat) := []
  /-- r_k, THIN_ORIGIN; reset 0. -/
  origin : Nat := 0
  /-- TIL_X in position-samples/s; reset 0. -/
  x : Nat := 0
  /-- The tillers that are not idle, R106, R132. -/
  tillers : SMap TState := []
  /-- The 24 queues of R106; reset empty. -/
  queues : List (List Sheaf) := List.replicate 24 []
  /-- QHIGH per spikelet, RC; reset 0. -/
  qhigh : List Nat := List.replicate 24 0
  /-- Spikelet that received the last shot sheaf, R110 [log 2]. -/
  rr : Nat := 23
  /-- Tick of the latest dispatch pass, R110 [log 2]. -/
  pass : Nat := 0
  /-- The boundary at which launches ended: a sheaf whose input was not complete before it does not run, 20 R429 [log 2]. -/
  cut : Option Nat := none
  /-- Shot sheaves not yet dealt, in increasing r then b, R110 [log 2]. -/
  waiting : List (Nat × Nat) := []
  /-- The launched shots whose rows are not all released, R109 [log 2]. -/
  shots : List Shot := []
  /-- Slot tokens: the raw-sample index of the next shot due of (b, slot), key b·128 + slot, R116 [log 2]. -/
  tokens : SMap Nat := []
  /-- Slot tokens held by a running sheaf, key b·128 + slot, R116 [log 2]. -/
  held : List Nat := []
  /-- The shot sheaves (r, b) abandoned: the slot token passes them, R121 [log 2]. -/
  gone : List (Nat × Nat) := []
  /-- The winnow, per block, R120 [log 2]. -/
  winnow : SMap WBlock := []
  /-- TIL_SHOT_DEALT, wrapping; reset 0. -/
  shotDealt : Nat := 0
  /-- TIL_BLOCK_DEALT, wrapping; reset 0. -/
  blockDealt : Nat := 0
  /-- TIL_STEALS, wrapping; reset 0. -/
  steals : Nat := 0
  /-- TIL_TOKEN_WAITS, RC; reset 0. -/
  tokenWaits : Nat := 0
  /-- TIL_LATE, RC; reset 0. -/
  late : Nat := 0
  /-- TIL_ABANDONED, RC; reset 0. -/
  abandoned : Nat := 0
  /-- TIL_WGAPS, RC; reset 0. -/
  wgaps : Nat := 0
  /-- TIL_ABORTS, RC; reset 0. -/
  aborts : Nat := 0
  /-- TIL_TRANSIENT, RC; reset 0. -/
  transient : Nat := 0
  /-- Tick indices of the transient faults of each tiller within the last hour, 22 R486 [log 2]. -/
  faultTimes : SMap (List Nat) := []
  /-- Tick index of each tiller's latest glean, 22 R482 [log 2]. -/
  gleaned : SMap Nat := []
  /-- TIL_INT_STATUS and TIL_INT_ENABLE; reset 0. -/
  int : IntPair := {}
  deriving DecidableEq, Repr

/-- Slot record of (b, k) (08 R176). -/
structure SlotRec where
  /-- TCOUNT. -/
  tcount : Nat := 0
  /-- FLAGS[0] TVALID. -/
  tvalid : Bool := false
  /-- FLAGS[4:1] NTL. -/
  ntl : Nat := 0
  /-- PSUM, int48. -/
  psum : Int := 0
  /-- FTHR, int48. -/
  fthr : Int := 0
  /-- Serial number of the latest restart applied to this record, R179 [log 2]. -/
  restart : Nat := 0
  /-- N_TRAIN that governs this record's training, R189 [log 2]. -/
  ntrain : Nat := 0
  /-- FADE_SHIFT that FTHR is scaled with, R189 [log 2]. -/
  fs : Nat := 0
  /-- Raw-sample index of the shot that took it last: the amendments up to it have rescaled FTHR, R189 [log 2]. -/
  fsR : Nat := 0
  deriving DecidableEq, Repr

/-- A training restart (08 R179): its serial number, the first raw-sample index it applies to, the blocks (none: all), and
whether TVALID and FTHR are cleared. -/
structure Restart where
  id : Nat
  fromR : Nat
  blocks : Option (List Nat)
  clear : Bool
  deriving DecidableEq, Repr

/-- The block-sheaf state of one position (01 R24, 08 R182, 09 R197, R208). -/
structure PosState where
  /-- last, uint16. -/
  last : Nat := 0
  /-- acc, int48. -/
  acc : Int := 0
  /-- pend, uint16. -/
  pend : Nat := 0
  /-- pfl. -/
  pfl : Nat := 0
  /-- HAVEPEND. -/
  havePend : Bool := false
  /-- tcnt. -/
  tcnt : Nat := 0
  /-- CIC integrators ig1–ig4, int56. -/
  ig : List Int := [0, 0, 0, 0]
  /-- CIC combs cd1–cd4, int56. -/
  cd : List Int := [0, 0, 0, 0]
  /-- FIR delay line, T int16 values; empty stands for zeros. -/
  dl : List Int := []
  /-- Write index wi. -/
  wi : Nat := 0
  /-- Decimation phase fph. -/
  fph : Nat := 0
  /-- The latest output was computed inside a crossfade (R216 field bit [11]). -/
  xf : Bool := false
  /-- HF, hard flags held, in quality-word positions. -/
  hf : Nat := 0
  /-- FRESH. -/
  fresh : Bool := false
  /-- PC. -/
  pc : Nat := 0
  /-- SF, soft flags, in quality-word positions. -/
  sf : Nat := 0
  /-- CNT. -/
  cnt : Nat := 0
  deriving DecidableEq, Repr

/-- Phase and probe settings of the raw samples from index `r0` on (08 R189). -/
structure PhSeg where
  r0 : Nat
  phase : PhaseRec
  probe : ProbeRec
  deriving DecidableEq, Repr

/-- COH registers, slot records, baselines and position state (07 R168, 08 R191). -/
structure Coh where
  /-- COH_CMP_STATUS REF_READY; reset 0. -/
  refReady : Bool := false
  /-- The pending WINDOW amendment, R167; reset none. -/
  winPend : Option PendAmend := none
  /-- COH_CMP_ROWS, wrapping; reset 0. -/
  rows : Nat := 0
  /-- COH_CMP_SAT, RC; reset 0. -/
  cmpSat : Nat := 0
  /-- COH_REF_BUILDS, RC; reset 0. -/
  refBuilds : Nat := 0
  /-- COH_INT_STATUS and COH_INT_ENABLE; reset 0. -/
  int : IntPair := {}
  /-- Slot records, key b·128 + k, 08 R176 [log 2]. -/
  slots : SMap SlotRec := []
  /-- Baselines, uint16, key (b·128 + k)·1,024 + j, 05 R124 [log 2]. -/
  base : SMap Nat := []
  /-- Position records, key p, 05 R124 [log 2]. -/
  pos : SMap PosState := []
  /-- Settings of the raw samples by index, newest first, R189 [log 2]. -/
  segs : List PhSeg := []
  /-- Training restarts in force, newest first, R179 [log 2]. -/
  restarts : List Restart := []
  /-- Restarts that take effect at the next trace-period boundary (or, with a tick, the first boundary at or after it):
  blocks, clear, tick, R179 [log 2]. -/
  restartPend : List (Option (List Nat) × Bool × Nat) := []
  /-- Raw-sample index at which the latest restart of all blocks began, for TRAIN_END, R180 [log 2]. -/
  restartSeq : Nat := 0
  /-- Serial number of the latest training restart, R179 [log 2]. -/
  restartId : Nat := 0
  /-- ALL_TRAINED; reset 0. -/
  allTrained : Bool := false
  /-- Blocks whose every slot has finished training, R191 [log 2]. -/
  trained : List Nat := []
  /-- Raw-sample index of the shot whose commit last completed the training of a block, 03 R83 [log 2]. -/
  trainedAt : Nat := 0
  /-- The pending PHASE amendment, R190; reset none. -/
  phPend : Option PendAmend := none
  /-- COH_FADED, RC; reset 0. -/
  faded : Nat := 0
  /-- COH_FILL_HOLD, RC; reset 0. -/
  fillHold : Nat := 0
  /-- COH_RAW_SAT, RC; reset 0. -/
  rawSat : Nat := 0
  /-- COH_TRAIN_RESTARTS, RC; reset 0. -/
  trainRestarts : Nat := 0
  /-- COH_PH_INT_STATUS and COH_PH_INT_ENABLE; reset 0. -/
  phInt : IntPair := {}
  deriving DecidableEq, Repr

/-- An output row (09 R210), as stored in the history ring (13 R271). -/
structure OutRow where
  q : Nat
  /-- Timestamp in units of 2⁻¹⁶ ns (16 R345). -/
  ts : Nat
  block : Nat
  xe : Int
  /-- LOST, 13 R273. -/
  lost : Bool
  /-- SHED, 13 R272. -/
  shed : Bool
  rowq : Nat
  words : List Int
  flags : List Nat
  deriving DecidableEq, Repr

/-- A crossfade (09 R202, R203). -/
structure Xfade where
  req : Nat
  /-- Source and target banks. -/
  src : Nat
  dst : Nat
  /-- q_x. -/
  qx : Nat
  /-- N_x. -/
  len : Nat
  /-- Its first output has been produced. -/
  started : Bool
  deriving DecidableEq, Repr

/-- A swap request pending or held (09 R204, R521). -/
structure SwapReq where
  req : Nat
  bank : Nat
  len : Nat
  deriving DecidableEq, Repr

/-- A SYNC index or restart in the output grid: from raw index `ns` on, the grid starts at output `q0` with k = 0, under CIC_R and
FIR_DF (09 R192). -/
structure Grid where
  ns : Nat
  q0 : Nat
  cicR : Nat
  firDf : Nat
  deriving DecidableEq, Repr

/-- DEC registers and the module-wide decimator state (09 R192 to R216). -/
structure Dec where
  /-- DEC_STATUS RUNNING; reset 0. -/
  running : Bool := false
  /-- The SYNC indices in force and passed, newest first; the head's ns is SYNC_IDX; reset none (0). -/
  grids : List Grid := []
  /-- External SYNC pending: n_s, R195, SYNC_PENDING; reset none. -/
  syncPend : Option Nat := none
  /-- Internal restart at the first launch with this index, R196 [log 2]. -/
  restartPend : Option Nat := none
  /-- DEC_STATUS SETTLING; reset 0. -/
  settling : Bool := false
  /-- BANK in force (or crossfade source); reset 0. -/
  bank : Nat := 0
  /-- The bank in force at output 0 of the acquisition, R201, R521 [log 2]. -/
  bank0 : Nat := 0
  /-- The crossfades begun in this acquisition, newest first, R203 [log 2]. -/
  sched : List Xfade := []
  /-- FILL_PCT from each raw-sample index on, newest first, R214 [log 2]. -/
  fills : List (Nat × Nat) := []
  /-- A bank has been in force since the latest reset, R201 [log 2]. -/
  bankSet : Bool := false
  /-- The crossfade accepted or under way, R202; XFADE, XF_TO; reset none. -/
  xf : Option Xfade := none
  /-- The pending swap request, R204; SWAP_PENDING, PEND_BANK, PEND_LEN; reset none. -/
  swap : Option SwapReq := none
  /-- The request held outside acquisition, R521 [log 2]. -/
  heldSwap : Option SwapReq := none
  /-- XF_START, q_x of the current or latest crossfade; reset 0. -/
  xfStart : Nat := 0
  /-- XF_LEN; reset 0. -/
  xfLen : Nat := 0
  /-- DEC_STATUS MINPHASE; reset 0. -/
  minphase : Bool := false
  /-- OUTSEQ, the latest q completed in every processed block; reset 0. -/
  outSeq : Nat := 0
  /-- The next q of each block, R192; an unlisted block is at 0 [log 2]. -/
  blockQ : SMap Nat := []
  /-- The pending DECIMATION amendments, oldest first, R214 [log 2]. -/
  pend : List PendAmend := []
  /-- BANK_LOADS per bank since acquisition start, R216; reset 0. -/
  loads : List Nat := [0, 0, 0]
  /-- DEC_SYNCS, RC; reset 0. -/
  syncs : Nat := 0
  /-- DEC_SYNC_REPLACED, RC; reset 0. -/
  replaced : Nat := 0
  /-- DEC_SYNC_IGNORED, RC; reset 0. -/
  ignored : Nat := 0
  /-- DEC_RESTARTS, RC; reset 0. -/
  restarts : Nat := 0
  /-- DEC_SWAPS, RC; reset 0. -/
  swaps : Nat := 0
  /-- DEC_SUPERSEDED, RC; reset 0. -/
  superseded : Nat := 0
  /-- DEC_OUT_SAT, RC; reset 0. -/
  outSat : Nat := 0
  /-- DEC_INT_STATUS and DEC_INT_ENABLE; reset 0. -/
  int : IntPair := {}
  deriving DecidableEq, Repr

end Sys2Proof.Machine
end

