-- ==== Sys2Proof/Machine/Parts2.lean ====
section
/-! DEFINITION. The state of the parts of the module, second half: quasi-static and Raman channels, zones, acquisition, DRAM
controller, streams, time base and housekeeping. Conventions as in Parts1. Timestamps are linear: units of 2⁻¹⁶ ns of TAI since
1958-01-01 (16 R345). -/

namespace Sys2Proof.Machine

/-- A quasi-static window of a block, in progress or ended (10 R219 to R222). -/
structure QsRun where
  /-- Window index w of the block since acquisition start. -/
  w : Nat
  /-- Start period m_w. -/
  mw : Nat
  /-- psh_b. -/
  psh : Nat
  /-- Slot plan, slots S and comb offset o_c in force during the window, R224, R234. -/
  plan : Nat
  slots : Nat
  oc : Int
  /-- N_w and N_sd_eff. -/
  nw : Nat
  nsd : Nat
  /-- Contributions per slot. -/
  counts : SMap Nat
  /-- Raw-sample index of the last contributing shot, R222. -/
  lastR : Nat
  /-- Thinning was in force for a contributing shot, R231. -/
  thin : Bool
  /-- First position that carried BEYOND_END at a contributing shot, R231. -/
  beyond : Option Nat
  /-- Tick at which the last contribution committed, R229. -/
  endTick : Nat
  /-- Settings in force at the window end, R235, R236. -/
  cfg : QsRec
  deriving DecidableEq, Repr

/-- What a committed shot of a selected period would add to a window that has not begun yet (10 R222): period, raw-sample index, slot,
powers, thinning in force, first position with BEYOND_END. -/
structure QsEarly where
  m : Nat
  r : Nat
  slot : Nat
  pw : List Int
  thin : Bool
  beyond : Option Nat
  deriving DecidableEq, Repr

/-- The quasi-static windows of one block (10 R219, R222, R237 QSS_BLK). -/
structure QsWin where
  /-- The window in progress: ACTIVE, PSH; reset none. -/
  run : Option QsRun := none
  /-- The window that has ended and waits for its evaluation, R224 [log 2]. -/
  ended : Option QsRun := none
  /-- The block sheaf running now was taken after that window ended, R224 [log 2]. -/
  evalNow : Bool := false
  /-- The period in which the next window starts, none while the block must finish training first, R222 [log 2]. -/
  next : Option Nat := none
  /-- Index of the next window to begin, R234; reset 0. -/
  w : Nat := 0
  /-- Committed shots that the window in progress does not take and a later one may, oldest first, R222 [log 2]. -/
  early : List QsEarly := []
  deriving DecidableEq, Repr

/-- The reference of one position (10 R227, R233). -/
structure QsRef where
  /-- ref, S int16 values of 12 bits. -/
  ref : List Int
  /-- o_r, kHz. -/
  offset : Int
  /-- B, kHz. -/
  base : Int
  deriving DecidableEq, Repr

/-- A pending QS_REF command (10 R229). -/
structure QsCmd where
  req : Nat
  /-- 0 KEEP, 1 ZERO. -/
  mode : Nat
  /-- Blocks still to act; none: all blocks not listed in `done`. -/
  blocks : Option (List Nat)
  done : List Nat
  tick : Nat
  deriving DecidableEq, Repr

/-- QSS registers and tables (10 R217 to R237). -/
structure Qss where
  /-- QSS_STATUS RUNNING; reset 0. -/
  running : Bool := false
  /-- The pending QS amendment, R236; reset none. -/
  pend : Option PendAmend := none
  /-- The pending reference command, R229; reset none. -/
  cmd : Option QsCmd := none
  /-- A polarisation has been lost: the references are cleared at the next trace-period boundary, R230 [log 2]. -/
  clearAsked : Bool := false
  /-- Windows per block. -/
  wins : SMap QsWin := []
  /-- Accumulators, uint32, key ((buf·131,072 + p)·128 + k), R233 [log 2]. -/
  acc : SMap Nat := []
  /-- References per position (an unlisted one carries NOREF), R227, R230. -/
  refs : SMap (Option QsRef) := []
  /-- QSS_WINDOWS, wrapping; reset 0. -/
  windows : Nat := 0
  /-- QSS_DISCARDED, RC; reset 0. -/
  discarded : Nat := 0
  /-- QSS_CHAINS, RC; reset 0. -/
  chains : Nat := 0
  /-- QSS_CAPTURES, RC; reset 0. -/
  captures : Nat := 0
  /-- QSS_EDGE, RC; reset 0. -/
  edge : Nat := 0
  /-- QSS_LOWQ, RC; reset 0. -/
  lowq : Nat := 0
  /-- QSS_CORRUPT, RC; reset 0. -/
  corrupt : Nat := 0
  /-- Blocks whose window of the present round has ended, for WINDOW_DONE, R237 [log 2]. -/
  round : List Nat := []
  /-- QSS_INT_STATUS and QSS_INT_ENABLE; reset 0. -/
  int : IntPair := {}
  deriving DecidableEq, Repr

/-- A completed row of a byte-string stream: the data and what its frames carry (15 R326, R333). -/
structure StreamUnit where
  /-- The newest raw sample of the unit, for the role it falls in (21 R469); none for a unit without one. -/
  newest : Option Nat
  /-- The tick at which what it reports began (R339). -/
  begins : Nat
  unit : Nat
  ts : Nat
  qword : Nat
  bytes : List Byte
  deriving DecidableEq, Repr

/-- An evaluated average (11 R245 to R252): what its rows need, while it waits for its partner trace (R250). -/
structure DtsAvg where
  avg : Nat
  /-- Settings at its end: DTS record and N_G. -/
  cfg : DtsRec
  ng : Nat
  phi : Nat
  /-- Own ln R per position in units of 2⁻⁴⁸, none where it is not defined. -/
  lnR : List (Option Int)
  nUsed : Nat
  tsStart : Nat
  tsEnd : Nat
  /-- Valid readings of COIL_RTD: their sum in 0.01 °C and their number. -/
  tref : Int × Nat
  /-- Net means M_AS and M_ST in 1/8 LSB. -/
  asM : List Int
  stM : List Int
  qwords : List Nat
  clip : Bool
  coilHeld : Bool
  /-- LN_C in force, units of 2⁻⁴⁸. -/
  lnc : Option Int
  /-- Tick of its evaluation, R250; g0 tick of its first used trace; raw-sample index of its last one. -/
  tick : Nat
  firstG0 : Nat
  lastR : Nat
  deriving DecidableEq, Repr

/-- The traces of an average (11 R242, R251). -/
structure DtsRun where
  /-- j. -/
  avg : Nat
  /-- The DTS record, N_G and φ in force at its end. -/
  cfg : DtsRec
  ng : Nat
  phi : Nat
  accAs : SMap Nat
  accSt : SMap Nat
  nUsed : Nat
  firstG0 : Nat
  lastG0 : Nat
  lastR : Nat
  clip : Bool
  endDecl : Option Nat
  deriving DecidableEq, Repr

/-- DTS registers, accumulators and the average in progress (11 R239 to R254). -/
structure Dts where
  /-- DTS_STATUS RUNNING; reset 0. -/
  running : Bool := false
  /-- LN_C in force in units of 2⁻⁴⁸, DTS_LNC; CAL_VALID is its presence; reset 0 (none). -/
  lnc : Option Int := none
  /-- DTS_STATUS COIL_HELD; reset 0. -/
  coilHeld : Bool := false
  /-- DTS_STATUS DUAL; reset 0. -/
  dual : Bool := false
  /-- PHASE, φ; reset 0. -/
  phi : Nat := 0
  /-- The pending DTS amendment, R253; reset none. -/
  pend : Option PendAmend := none
  /-- Accumulators of anti-Stokes codes, key d, R242 [log 2]. -/
  accAs : SMap Nat := []
  /-- Accumulators of Stokes codes, key d, R242 [log 2]. -/
  accSt : SMap Nat := []
  /-- N_used of the average in progress, R242 [log 2]. -/
  nUsed : Nat := 0
  /-- The average in progress, j, R242 [log 2]. -/
  avg : Nat := 0
  /-- g0 tick of its first and last used trace [log 2]. -/
  firstG0 : Nat := 0
  lastG0 : Nat := 0
  /-- Raw-sample index of its last used trace [log 2]. -/
  lastR : Nat := 0
  /-- Averages whose last trace has been added and that wait for their evaluation, oldest first, R243 [log 2]. -/
  complete : List DtsRun := []
  /-- A clipped sample was accumulated, R239 [log 2]. -/
  clip : Bool := false
  /-- Lowest declared end in ticks in force in a trace of the average, R251 [log 2]. -/
  endDecl : Option Nat := none
  /-- Valid readings of COIL_RTD with their tick, since the first trace, R246 [log 2]. -/
  readings : List (Nat × Int) := []
  /-- K of the latest dual-ended average, R249, units of 2⁻⁴⁸ [log 2]. -/
  kDual : Option Int := none
  /-- The averages waiting for their partner trace, oldest first, R250 [log 2]. -/
  waits : List DtsAvg := []
  /-- Partner traces received before the own evaluation: average and ln R, R248 [log 2]. -/
  partner : List (Nat × List (Option Int)) := []
  /-- Latest evaluated average, DTS_AVG; reset 0. -/
  lastAvg : Nat := 0
  /-- DTS_TREF, 0.01 °C; reset 0x8000. -/
  tref : Int := -32768
  /-- DALPHA_EST, none until an estimate exists, R247; reset 0 (none). -/
  dalphaEst : Option Int := none
  /-- BG_AS, 1/8 LSB; reset 0. -/
  bgAs : Nat := 0
  /-- BG_ST, 1/8 LSB; reset 0. -/
  bgSt : Nat := 0
  /-- DTS_CLIPS, RC; reset 0. -/
  clips : Nat := 0
  /-- DTS_DISCARDED, RC; reset 0. -/
  discarded : Nat := 0
  /-- DTS_EMPTY, RC; reset 0. -/
  empty : Nat := 0
  /-- DTS_DE_FALLBACK, RC; reset 0. -/
  fallback : Nat := 0
  /-- DTS_CORRUPT, RC; reset 0. -/
  corrupt : Nat := 0
  /-- DTS_INT_STATUS and DTS_INT_ENABLE; reset 0. -/
  int : IntPair := {}
  deriving DecidableEq, Repr

/-- Comparator of a zone band (12 R263, R270 ZON_LIVE). -/
structure ZComp where
  /-- 0 ARMED, 1 OUT_LOW, 2 OUT_HIGH. -/
  st : Nat := 0
  /-- Persistence count. -/
  count : Nat := 0
  /-- JUDGED. -/
  judged : Bool := false
  /-- Largest level of the run, R267 PEAK. -/
  peak : Nat := 0
  /-- q and timestamp of the run's first output, R263. -/
  onsetQ : Nat := 0
  onsetTs : Nat := 0
  /-- OR of the judged outputs' DEGRADED, RANGE, FADED, MINPHASE over the run, R267. -/
  qword : Nat := 0
  /-- Level of the latest judged interval, PROBE_LEVEL. -/
  level : Nat := 0
  /-- Judged positions of the latest interval, PROBE_JUDGED. -/
  nJudged : Nat := 0
  deriving DecidableEq, Repr

/-- Filter state of a position in a zone band (12 R258, R264). -/
structure ZFilt where
  y1 : Int := 0
  y2 : Int := 0
  e : Nat := 0
  /-- Outputs for which the position is still excluded since a change of the zone band, R264. -/
  guard : Nat := 0
  /-- Excluded so at an output of the interval in progress. -/
  bad : Bool := false
  deriving DecidableEq, Repr

/-- Input history and judging of a position (12 R258, R260). -/
structure ZPos where
  x1 : Int := 0
  x2 : Int := 0
  /-- Outputs for which the position is still excluded by ZON_GUARD. -/
  guard : Nat := 0
  /-- The position is not judged in the interval in progress. -/
  bad : Bool := false
  /-- OR of its quality words in the interval in progress. -/
  qword : Nat := 0
  deriving DecidableEq, Repr

/-- From output `q0` on, detection intervals of `nzi` outputs start there; `restart` says that a restart or SYNC began it (12
R260, R262), at the SYNC index `ns`; `rate` is f_out there as a fraction (R257). -/
structure ZGrid where
  q0 : Nat
  nzi : Nat
  restart : Bool
  ns : Nat
  rate : Nat × Nat
  deriving DecidableEq, Repr

/-- The zone settings of the outputs from `q0` on (12 R269): zone table, filters, parameters, the zone bands changed by the
amendment that brought them, and the comparators those bands had before it (R264): intervals before `q0` still undecided are
decided with them. -/
structure ZCfg where
  q0 : Nat
  zones : SMap ZoneEntry
  filters : SMap (List Int)
  params : ZoneParams
  changed : List Nat
  saved : SMap ZComp
  deriving DecidableEq, Repr

/-- A detection interval some block has finished (12 R260, R266): first and last output, their timestamps, the blocks that have
finished it, the energies per zone band and position (key (zone·4 + band)·131,072 + p) of judged positions, and their quality
words. -/
structure ZInt where
  first : Nat
  last : Nat
  tsFirst : Nat
  tsLast : Nat
  got : List Nat
  e : List (Nat × Nat)
  qw : List (Nat × Nat)
  deriving DecidableEq, Repr

/-- An event record (12 R267). -/
structure Event where
  type : Nat
  detail : Nat
  zone : Nat
  seq : Nat
  tsA : Nat
  tsB : Nat
  index : Nat
  level : Nat
  peak : Nat
  pos : Nat
  count : Nat
  tag : Nat
  qword : Nat
  deriving DecidableEq, Repr

/-- ZON registers and the zone engine (12 R255 to R270). -/
structure Zon where
  /-- ZON_STATUS RUNNING; reset 0. -/
  running : Bool := false
  /-- The pending zone amendment, R269; reset none. -/
  pend : Option PendAmend := none
  /-- The event queue, oldest first, at most 4,096, R268; reset empty. -/
  queue : List Event := []
  /-- Events lost and the SEQ of the first, not yet reported, R268 [log 2]. -/
  lostRun : Option (Nat × Nat) := none
  /-- ZON_SEQ; reset 0. -/
  seq : Nat := 0
  /-- Comparators, key zone·4 + band, R263; an unlisted one is ARMED with count 0. -/
  comps : SMap ZComp := []
  /-- Filter states, key (zone·4 + band)·131,072 + p, R258 [log 2]. -/
  filt : SMap ZFilt := []
  /-- Position histories, key p, R258 [log 2]. -/
  pos : SMap ZPos := []
  /-- The interval grid, newest first, R260 [log 2]. -/
  grid : List ZGrid := []
  /-- The zone settings by output, newest first, R269 [log 2]. -/
  cfgs : List ZCfg := []
  /-- First output of the interval in progress of each block plus one, and the rows of it received, R260 [log 2]. -/
  cur : SMap (Nat × Nat) := []
  /-- Timestamp of the first output of the interval in progress of each block, R267 [log 2]. -/
  curTs : SMap Nat := []
  /-- Intervals finished by some block and not yet decided, oldest first, R266 [log 2]. -/
  ints : List ZInt := []
  /-- Outputs below this one belong to intervals already decided, R266 [log 2]. -/
  decidedQ : Nat := 0
  /-- ZON_LEAVES, RC; reset 0. -/
  leaves : Nat := 0
  /-- ZON_REARMS, RC; reset 0. -/
  rearms : Nat := 0
  /-- ZON_EV_LOST, RC; reset 0. -/
  evLost : Nat := 0
  /-- ZON_TRIGOUTS, RC; reset 0. -/
  trigouts : Nat := 0
  /-- ZON_TRIG_MERGED, RC; reset 0. -/
  trigMerged : Nat := 0
  /-- ZON_UNJUDGED, RC; reset 0. -/
  unjudged : Nat := 0
  /-- ZON_MEM_ERR, RC; reset 0. -/
  memErr : Nat := 0
  /-- PROBE_SEL, RW, 12 bits; reset 0. -/
  probeSel : Nat := 0
  /-- The latest event, ZON_LAST; reset 0 (none). -/
  last : Option Event := none
  /-- ZON_INT_STATUS and ZON_INT_ENABLE; reset 0. -/
  int : IntPair := {}
  deriving DecidableEq, Repr

/-- An entry of a segment record (13 R291). -/
structure RecEntry where
  word : Int
  qword : Nat
  xe : Int
  deriving DecidableEq, Repr

/-- A trigger as it reaches the engine (13 R274). -/
structure Trigger where
  /-- t_T, units of 2⁻¹⁶ ns. -/
  tT : Nat
  /-- Arrival stamp, tick index. -/
  arrival : Nat
  /-- Position range of the segment it would open: POS_START, NPOS (R277). -/
  pos : Nat
  npos : Nat
  /-- EVENT_SEQ and ZONE of R291. -/
  seq : Nat
  zone : Nat
  deriving DecidableEq, Repr

/-- An open segment (13 R277 to R281). -/
structure Segment where
  recId : Nat
  /-- 0 ZONE, 1 PAD, 2 CMD. -/
  source : Nat
  /-- Source settings in force when it opened, R283. -/
  cfg : SrcRec
  trig : Trigger
  /-- k_T, once an output at or after t_T is known, R276. -/
  kT : Option Nat
  /-- Instants of merged triggers that may extend it and whose output is not yet known, R281. -/
  merges : List Nat
  /-- N rows. -/
  n : Nat
  tof0 : Nat
  pitch : Nat
  gauge : Nat
  /-- P_OUT ticks. -/
  pOut : Nat
  trigs : Nat
  tLast : Nat
  heldOff : Nat
  extended : Bool
  trunc : Bool
  capped : Bool
  /-- An extension could not reserve its space: the record has stopped growing, R284. -/
  frozen : Bool
  /-- The tick at which its last entry was copied; it is complete after the cycle of that tick, R278. -/
  endTick : Option Nat
  syncIdx : Nat
  /-- UNSYNC, SHADOW, SUPPLY_WARN held during the segment: bits 0 to 2. -/
  modflags : Nat
  plan : Nat
  /-- Rows copied so far, in order; each holds NPOS entries. -/
  rows : List (List RecEntry)
  /-- Entries copied as GAP: cause, q, block. -/
  gaps : List (Nat × Int × Nat)
  deriving DecidableEq, Repr

/-- A hold-off of a source (13 R282). -/
inductive Hold where
  /-- Time: HOLD ms from the segment end at this tick. -/
  | time (ms fromTick : Nat)
  /-- Events left. -/
  | events (left : Nat)
  deriving DecidableEq, Repr

/-- A trigger source (13 R274). -/
structure Source where
  /-- The open segment; reset none. -/
  seg : Option Segment := none
  /-- The hold-off; reset none. -/
  hold : Option Hold := none
  /-- Held-off triggers since the last record, R282 [log 2]. -/
  heldOff : Nat := 0
  deriving DecidableEq, Repr

/-- A gap record (13 R287). -/
structure GapRec where
  cause : Nat
  recId : Nat
  /-- FIRST: an output number, negative before output 0, or a tick index. -/
  first : Int
  count : Nat
  /-- 128-bit block map. -/
  blocks : Nat
  tsFirst : Nat
  gapSeq : Nat
  deriving DecidableEq, Repr

/-- What a directory entry holds (13 R284, R287, R288). -/
inductive RecBody where
  | segment (seg : Segment) (ended : Bool)
  | gap (g : GapRec)
  | raw
  deriving DecidableEq, Repr

/-- A directory entry of the record store (13 R284; 18 R400 REC_LIST). -/
structure DirEntry where
  recId : Nat
  /-- TYPE 1 segment, 2 gap, 3 raw. -/
  type : Nat
  complete : Bool
  locked : Bool
  /-- Streams sending it. -/
  sending : List Nat
  length : Nat
  tTrig : Nat
  body : RecBody
  deriving DecidableEq, Repr

/-- A raw capture (13 R288, R289; R293 RAW_STATE). -/
structure RawCap where
  /-- RAW_STATE: 0 idle, 1 armed, 2 running, 3 resident; reset 0. -/
  st : Nat := 0
  /-- Start by trigger (of `src`) or at `tick`. -/
  byTrigger : Bool := false
  src : Nat := 0
  tick : Nat := 0
  f : Nat := 0
  preF : Nat := 0
  /-- The trigger instant, once triggered. -/
  tTrig : Option Nat := none
  /-- EVENT_SEQ of the trigger, R291. -/
  seq : Nat := 0xFFFFFFFF
  /-- REC_ID of the capture. -/
  recId : Nat := 0
  /-- Tick of the next frame, R104. -/
  next : Nat := 0
  /-- The frames kept, oldest first, with their tick and contents (none: lost); RAW_FRAMES is their number, RAW_TICK the tick of the
  first; reset none. -/
  frames : List (Nat × Option (List Byte)) := []
  /-- The run of lost frames that is not yet a gap record: tick of its first, number, R287. -/
  lostRun : Option (Nat × Nat) := none
  /-- MODFLAGS held during the capture, R290, R291. -/
  modflags : Nat := 0
  deriving DecidableEq, Repr

/-- ACQ registers, history ring and record store (13 R271 to R293). -/
structure Acq where
  /-- ACQ_STATUS RUNNING; reset 0. -/
  running : Bool := false
  /-- ACQ_STATUS STORE_FULL; reset 0. -/
  storeFull : Bool := false
  /-- The history ring: the stored row of each block of each slot, key 128·slot + block, R271; reset empty. -/
  ring : SMap (Option OutRow) := []
  /-- RING_DEPTH, D_h; reset 0. -/
  depth : Nat := 0
  /-- First q of the acquisition, R272 [log 2]. -/
  firstQ : Nat := 0
  /-- Newest q stored in every block plus one; 0 for an empty ring; OLDEST_Q derives from it, R272; reset 0. -/
  newQ : Nat := 0
  /-- Timestamps of the outputs of this acquisition, key q, kept while a record may name them, R276, R287 [log 2]. -/
  outTs : List (Nat × Nat) := []
  /-- The ring holds an acquisition that has ended, R522 [log 2]. -/
  ended : Bool := false
  /-- Outputs with LOST rows that are not yet in a gap record, each with the map of its blocks, R287 [log 2]. -/
  histLost : SMap Nat := []
  /-- Triggers dropped whose outputs are not yet known: t_T, PRE, POST, block map, R285 [log 2]. -/
  drops : List (Nat × Nat × Nat × Nat) := []
  zone : Source := {}
  pad : Source := {}
  cmd : Source := {}
  /-- The record directory, oldest first, at most 65,536 entries; reset empty (R284). -/
  dir : List DirEntry := []
  /-- REC_NEXT_ID; reset 0. -/
  nextId : Nat := 0
  /-- GAP_SEQ of the next gap record, R287 [log 2]. -/
  gapSeq : Nat := 0
  /-- The raw capture. -/
  raw : RawCap := {}
  /-- ACQ_TRIGGERS, RC; reset 0. -/
  triggers : Nat := 0
  /-- ACQ_MERGED, RC; reset 0. -/
  merged : Nat := 0
  /-- ACQ_HELDOFF, RC; reset 0. -/
  heldoff : Nat := 0
  /-- ACQ_REC_DROPPED, RC; reset 0. -/
  recDropped : Nat := 0
  /-- ACQ_EVICTED, RC; reset 0. -/
  evicted : Nat := 0
  /-- ACQ_GAPS, RC; reset 0. -/
  gaps : Nat := 0
  /-- ACQ_LOST_ROWS, RC; reset 0. -/
  lostRows : Nat := 0
  /-- ACQ_RAW_LOST, RC; reset 0. -/
  rawLost : Nat := 0
  /-- ACQ_INT_STATUS and ACQ_INT_ENABLE; reset 0. -/
  int : IntPair := {}
  deriving DecidableEq, Repr

/-- A queued DRAM request (14 R303, R304). -/
structure MemReq where
  req : DramReq
  /-- How its unit comes back from the decoder, R311. -/
  ecc : EccResult
  /-- Promoted to class 2, R304. -/
  promoted : Bool
  deriving DecidableEq, Repr

/-- One DRAM bank (14 R302, R307). -/
structure Bank where
  /-- Predictor, 2 bits; 1 at reset. -/
  pred : Nat := 1
  /-- The last row accessed, R302; none since reset [log 2]. -/
  lastRow : Option Nat := none
  /-- The open row, R302 [log 2]. -/
  openRow : Option Nat := none
  /-- Debt d, 0 to 8, R307; reset 0. -/
  debt : Nat := 0
  /-- Tick from which the next repayment may be issued, R307 [log 2]. -/
  repayAt : Nat := 0
  deriving DecidableEq, Repr

/-- One DRAM channel (14 R294, R315 MEM_CH). -/
structure Channel where
  /-- BAND; reset 0. -/
  band : Nat := 0
  /-- A band read that takes effect at the next refresh due, R306 [log 2]. -/
  newBand : Option Nat := none
  /-- SELF_REF; reset 0. -/
  selfRef : Bool := false
  /-- The 16 banks. -/
  banks : List Bank := List.replicate 16 {}
  /-- Requests held, oldest first, at most 64: OUTSTANDING; reset empty. -/
  queue : List MemReq := []
  /-- Requesters waiting for a free entry, oldest first, R303 [log 2]. -/
  waiting : List MemReq := []
  /-- Tick of the latest request, R309 [log 2]. -/
  lastReq : Nat := 0
  /-- Self-refresh has been left and mode register 4 has not been read since, R310 [log 2]. -/
  mr4Due : Bool := false
  deriving DecidableEq, Repr

/-- The latest uncorrectable error (14 R315 ERR_ADDR, ERR_INFO). -/
structure MemErr where
  /-- Usable address; reset 0. -/
  addr : Nat := 0
  /-- Channel; reset 0. -/
  ch : Nat := 0
  /-- Bank; reset 0. -/
  bank : Nat := 0
  /-- Requester code; reset 0. -/
  req : Nat := 0
  /-- ERR_LASTING; reset 0. -/
  lasting : Bool := false
  /-- Row; reset 0. -/
  row : Nat := 0
  deriving DecidableEq, Repr

/-- A DRAM row under test with the error that began it (14 R311, R312). -/
structure RowTest where
  ch : Nat
  bank : Nat
  row : Nat
  addr : Nat
  code : Nat
  syndrome : Nat
  deriving DecidableEq, Repr

/-- MEM registers, controller and DRAM contents (14 R294 to R315). -/
structure Mem where
  /-- MEM_STATUS READY; reset 0. -/
  ready : Bool := false
  /-- The eight channels. -/
  chans : List Channel := List.replicate 8 {}
  /-- Real-time ports in panic, R305, PORT_PANIC; reset 0. -/
  panic : List Bool := [false, false, false]
  /-- FIFO fill of the real-time ports in percent, R305 [log 2]. -/
  fill : List Nat := [0, 0, 0]
  /-- FIFO_HIGH, RC; reset 0. -/
  fillHigh : List Nat := [0, 0, 0]
  /-- PANICS, RC; reset 0. -/
  panics : List Nat := [0, 0, 0]
  /-- MEM_STATUS SPARE_OUT; reset 0. -/
  spareOut : Bool := false
  /-- FAULT_N held until the next reset of reach B or A, R313. -/
  spareHold : Bool := false
  /-- Usable bytes by address, R296; an unlisted byte reads 0 (log 11); DRAM contents are lost when unpowered (R19). -/
  data : SMap Byte := []
  /-- Units with poisoned check bytes, by unit number, R312 [log 2]. -/
  poison : List Nat := []
  /-- Rows under test, oldest first, R312, 22 R485 [log 2]. -/
  tests : List RowTest := []
  /-- Data returned by the latest granted request and whether it was an error response, R311 [log 2]. -/
  lastRead : Option (Nat × Option (List Byte)) := none
  /-- FIFOs of the real-time ports that have overflowed: the data a port writes next are lost, R305 [log 2]. -/
  overflow : List Bool := [false, false, false]
  /-- The check of R301 has left its patterns in the system reserve: the free value that is their first byte [log 2]. -/
  pattern : Option Nat := none
  /-- Units of the patterns that have been written since [log 2]. -/
  patternGone : List Nat := []
  /-- MEM_CE, RC; reset 0. -/
  ce : Nat := 0
  /-- MEM_UE, RC; reset 0. -/
  ue : Nat := 0
  /-- MEM_REFBURST, RC; reset 0. -/
  refburst : Nat := 0
  /-- MEM_POSTPONED, RC; reset 0. -/
  postponed : Nat := 0
  /-- MEM_SR_ENTRIES, RC; reset 0. -/
  srEntries : Nat := 0
  /-- MEM_TRANSIENT, RC; reset 0. -/
  transient : Nat := 0
  /-- Latest uncorrectable error; reset 0. -/
  err : MemErr := {}
  /-- MEM_INT_STATUS and MEM_INT_ENABLE; reset 0. -/
  int : IntPair := {}
  deriving DecidableEq, Repr

/-- A stream frame as formed (15 R328), with what its sending takes from its formation: the stream's record (15 R323, R330,
R339), its stream key, and the REC_ID of the directory entry it carries. -/
structure Frame where
  stype : Nat
  stream : Nat
  hflags : Nat
  fseq : Nat
  ts : Nat
  unit : Nat
  qword : Nat
  thinK : Nat
  kepoch : Nat
  payload : List Byte
  frag : Nat
  frags : Nat
  /-- DROPS of the header, once the frame has left a port. -/
  drops : Option Nat
  /-- The ports it goes out on. -/
  ports : List Nat
  cfg : StreamRec
  key : List Byte
  own : Option Nat
  deriving DecidableEq, Repr

/-- The result names of commands and requests (18 R400; 19 R417, R421). The spec gives them no code numbers. -/
inductive Result where
  | ok
  | deferred
  | invalid
  | conflict
  | busy
  | denied
  | unsupported
  | stale
  deriving DecidableEq, Repr

/-- A response: its result and its data (18 R396). -/
structure Response where
  result : Result
  data : List Byte
  deriving DecidableEq, Repr

/-- A management datagram on its way to a host (18 R391 to R396). -/
inductive MgmtOut where
  | challenge (sid : Nat) (salt : List Byte) (iter : Nat) (nd : List Byte)
  | accept (sid : Nat) (dp : List Byte) (timeout role serial : Nat)
  | refuse (sid : Nat) (code : Result)
  /-- With the key K_m2h it is encrypted under. -/
  | response (sid seq : Nat) (key : List Byte) (r : Response)
  deriving DecidableEq, Repr

/-- A management datagram with its transport and destination (18 R391). -/
structure MgmtSend where
  transport : Transport
  dst : Nat
  msg : MgmtOut
  deriving DecidableEq, Repr

/-- What leaves a port beside stream frames (15 R324, R325, R338). -/
inductive PortMsg where
  | arpRequest (ip : Nat)
  | arpReply (ip mac : Nat)
  | gratuitousArp
  | icmpReply (ip mac : Nat) (payload : List Byte)
  | mgmt (m : MgmtSend)
  deriving DecidableEq, Repr

/-- A stream frame on the wire (15 R323, R328): Ethernet destination, VLAN tag (VID, PCP), IPv4 and UDP fields, header, payload and
tag. -/
structure Wire where
  dstMac : Nat
  srcMac : Nat
  vlan : Option (Nat × Nat)
  dscp : Nat
  df : Bool
  ident : Nat
  ttl : Nat
  srcIp : Nat
  dstIp : Nat
  srcUdp : Nat
  dstUdp : Nat
  /-- The UDP checksum. -/
  udpSum : Nat
  header : List Byte
  payload : List Byte
  tag : List Byte
  deriving DecidableEq, Repr

/-- What a port has sent (15 R338). -/
inductive Sent where
  | frame (w : Wire)
  /-- With the VID of its IEEE 802.1Q tag, R323. -/
  | msg (m : PortMsg) (vid : Option Nat)
  deriving DecidableEq, Repr

/-- A next hop on one port (15 R324). -/
structure ArpEntry where
  ip : Nat
  mac : Option Nat
  /-- Requests sent without a reply. -/
  tries : Nat
  unresolved : Bool
  deriving DecidableEq, Repr

/-- One port (15 R317, R340). -/
structure Port where
  /-- LINK_A or LINK_B; reset 0. -/
  up : Bool := false
  /-- TX_FRAMES, wrapping; reset 0. -/
  tx : Nat := 0
  /-- RX_FRAMES, wrapping; reset 0. -/
  rx : Nat := 0
  /-- RX_DROPPED, RC; reset 0. -/
  rxDropped : Nat := 0
  /-- FEC_CORR, RC; reset 0. -/
  fecCorr : Nat := 0
  /-- FEC_UNCORR, RC; reset 0. -/
  fecUncorr : Nat := 0
  /-- LINK_DOWNS, RC; reset 0. -/
  linkDowns : Nat := 0
  /-- ARP table, R324 [log 2]. -/
  arp : List ArpEntry := []
  /-- ARP and management responses waiting, oldest first, R338 [log 2]. -/
  msgs : List PortMsg := []
  /-- Heartbeats waiting, R338 [log 2]. -/
  beats : List Frame := []
  /-- Formed data frames waiting on this port, in the order formed, R338 [log 2]. -/
  frames : List Frame := []
  /-- ICMP echo replies in the second in progress: (second, count), R325 [log 2]. -/
  icmp : Nat × Nat := (0, 0)
  /-- What the port sent last [log 2]. -/
  sent : Option Sent := none
  deriving DecidableEq, Repr

/-- One stream's engine (15 R321 to R340 NET_STR). -/
structure Stream where
  /-- SHED; reset 0. -/
  shed : Bool := false
  /-- The port that carries the stream in aggregate mode, R320 [log 2]. -/
  port : Nat := 0
  /-- BUF_FULL; reset 0. -/
  bufFull : Bool := false
  /-- FRAMES, wrapping; reset 0. -/
  frames : Nat := 0
  /-- DROPS, RC; reset 0. -/
  drops : Nat := 0
  /-- Frames discarded since the previous frame that left, saturating at 65,535, R328 [log 2]. -/
  dropsSince : Nat := 0
  /-- DROPS since the stream was enabled, saturating, R335 [log 2]. -/
  dropsTotal : Nat := 0
  /-- Next FSEQ, R329 [log 2]. -/
  fseq : Nat := 0
  /-- Key epoch of the stream, R329 [log 2]. -/
  kepoch : Nat := 0
  /-- Next unit number to form: q for DAS, count for TELEMETRY and RAW [log 2]. -/
  nextUnit : Nat := 0
  /-- UNIT of the latest data unit, R335 [log 2]. -/
  lastUnit : Nat := 0
  /-- Quality bits UNSYNC, SHADOW, SUPPLY_WARN held since the previous frame, R331 [log 2]. -/
  since : Nat := 0
  /-- Rows and records handed to the stream, oldest first, R333 [log 2]. -/
  units : List StreamUnit := []
  /-- RECORD stream: records due, R333 [log 2]. -/
  recs : List Nat := []
  /-- RECORD stream: the unit whose frames are being formed, its directory entry, and the next FRAG, R333 [log 2]. -/
  part : Option (StreamUnit × Option Nat × Nat) := none
  /-- EVENT stream: event records gathered for the next frame, R334 [log 2]. -/
  events : List Event := []
  /-- HK stream: its own read index, unread count, wrap length and samples lost, 17 R369 [log 2]. -/
  hkRd : Nat := 0
  hkUnread : Nat := 0
  hkWrap : Nat := 256
  hkLost : Nat := 0
  /-- The amendments waiting for the next unit boundary, oldest first, R339 [log 2]. -/
  pend : List (Nat × StreamRec) := []
  /-- Token bucket of 64 KiB in 1/32,000 byte, true at tick `bucketTick`, R336 [log 2]. -/
  bucket : Nat := 2097152000
  bucketTick : Nat := 0
  /-- Key epoch and FSEQ up to which the bucket has been charged [log 2]. -/
  paid : Nat × Nat := (0, 0)
  /-- The tick from which the data of its first unit begin: that of its enabling in acquisition, R339 [log 2]. -/
  enabledAt : Nat := 0
  /-- Heartbeat with ENDING has been formed, R335 [log 2]. -/
  ending : Bool := false
  deriving DecidableEq, Repr

/-- NET registers (15 R340). -/
structure Net where
  /-- NET_STATUS RUNNING; reset 0. -/
  running : Bool := false
  /-- NET_STATUS BOTH_DOWN; reset 0. -/
  bothDown : Bool := false
  /-- NET_STATUS ARP_CONFLICT; reset 0. -/
  arpConflict : Bool := false
  /-- NET_A. -/
  portA : Port := {}
  /-- NET_B. -/
  portB : Port := {}
  /-- The 16 streams. -/
  streams : List Stream := List.replicate 16 {}
  /-- Output rows that a DAS stream has still to form, R327 [log 2]. -/
  rows : List OutRow := []
  /-- Latch sets of the TELEMETRY streams, per stream: (address, word), 23 R500 [log 2]. -/
  latches : List (Nat × List (Nat × Word)) := []
  /-- NET_INT_STATUS and NET_INT_ENABLE; reset 0. -/
  int : IntPair := {}
  deriving DecidableEq, Repr

/-- One TDC channel (16 R360 TDC_CH). -/
structure Tdc where
  /-- COARSE; reset 0. -/
  c : Nat := 0
  /-- OVF; reset 0. -/
  ovf : Bool := false
  /-- VALID; reset 0. -/
  valid : Bool := false
  /-- N_MEAS; reset 0. -/
  n : Nat := 0
  /-- N1; reset 0. -/
  n1 : Nat := 0
  /-- N2; reset 0. -/
  n2 : Nat := 0
  /-- LSB_FS; reset 0. -/
  lsb : Nat := 0
  /-- CAL_BAD, RC; reset 0. -/
  calBad : Nat := 0
  /-- COARSE_ONLY, RC; reset 0. -/
  coarse : Nat := 0
  /-- Busy until its next calibration is done, R357; at reset no calibration has been done [log 2]. -/
  busy : Bool := true
  /-- Self-test of R356 running, with the LSB in fs and o of the bad calibration [log 2]. -/
  testing : Option (Nat × Int) := none
  /-- Prescaler counter, R358 [log 2]. -/
  presc : Nat := 0
  deriving DecidableEq, Repr

/-- A segment of the time map (16 R344): T(x) = t + (x − xa)·0.25 ns·(1 + rho·2⁻³²). -/
structure TimeSeg where
  xa : Nat
  /-- T(xa) in units of 2⁻⁴⁸ ns. -/
  t : Nat
  /-- ρ in units of 2⁻³². -/
  rho : Int
  deriving DecidableEq, Repr

/-- Time states (16 R348). -/
inductive TimeState where
  | free
  | rtc
  | locking
  | locked
  | holdover
  | set
  deriving DecidableEq, Repr

/-- TIM registers and the time base (16 R341 to R360). -/
structure Tim where
  /-- Tick index, 64 bits, 01 R17; not running before step 2 of start-up, where it is set to 0. -/
  tick : Nat := 0
  /-- The system PLL is locked and the tick index runs, 01 R17 [log 2]. -/
  counting : Bool := false
  /-- The timing clock comes from the sample PLL, 01 R17; off at reset. -/
  fromSample : Bool := false
  /-- TIM_STATUS STATE; reset 0. -/
  st : TimeState := .free
  /-- REF_IN qualified, R342 [log 2]. -/
  refOk : Bool := false
  /-- PPS_OK; reset 0. -/
  ppsOk : Bool := false
  /-- TOD_OK; reset 0. -/
  todOk : Bool := false
  /-- SEC_MISMATCH; reset 0. -/
  secMismatch : Bool := false
  /-- The time map, R344; T is 0 at tick 0 with ρ = 0 until a source sets it (SEC from the RTC, R348). -/
  map : TimeSeg := { xa := 0, t := 0, rho := 0 }
  /-- Earlier segments, newest first, R344: a timestamp of an earlier tick is its value then [log 2]. -/
  mapOld : List TimeSeg := []
  /-- ρ_f, the frequency estimate, R351 [log 2]. -/
  rhoF : Int := 0
  /-- The rate that takes effect 1 ms after the edge: tick and ρ, R351 [log 2]. -/
  pendRate : Option (Nat × Int) := none
  /-- Spaced edges in a row, R349 [log 2]. -/
  ppsRun : Nat := 0
  /-- Instant of the latest edge in 2⁻⁴⁸ ns, R349 [log 2]. -/
  ppsLast : Option Nat := none
  /-- Tick of the latest qualified edge; none before the first and once PPS is lost, R349 [log 2]. -/
  ppsTick : Option Nat := none
  /-- Label accepted for the next edge: SEC, or a conflict of two sentences, R350 [log 2]. -/
  label : Option (Option Nat) := none
  /-- Consecutive seconds with |e| ≤ 100 ns, R348 [log 2]. -/
  lockRun : Nat := 0
  /-- TIM_PPS_ERR, ps, saturating int32; reset 0. -/
  ppsErr : Int := 0
  /-- A step owed at the next acquisition start: the time in 2⁻⁴⁸ ns minus the map's, R346 [log 2]. -/
  stepOwed : Option Int := none
  tdc0 : Tdc := {}
  tdc1 : Tdc := {}
  tdc2 : Tdc := {}
  tdc3 : Tdc := {}
  /-- PPS_REJECTS, RC; reset 0. -/
  ppsRejects : Nat := 0
  /-- TOD_REJECTS, RC; reset 0. -/
  todRejects : Nat := 0
  /-- REF_SWITCHES, RC; reset 0. -/
  refSwitches : Nat := 0
  /-- TIM_INT_STATUS and TIM_INT_ENABLE; reset 0. -/
  int : IntPair := {}
  deriving DecidableEq, Repr

/-- State of a housekeeping comparator (17 R372). -/
structure HkComp where
  /-- STATE: 0 ARMED, 1 OUT_LOW, 2 OUT_HIGH; reset 0. -/
  st : Nat := 0
  /-- COUNT; reset 0. -/
  count : Nat := 0
  deriving DecidableEq, Repr

/-- One RTD channel (17 R380 HKA_RTD). -/
structure Rtd where
  /-- TEMP, int16; reset 0x8000. -/
  temp : Int := -32768
  /-- CAUSE; reset 4. -/
  cause : Nat := 4
  /-- RES, 10 mΩ; reset 0. -/
  res : Nat := 0
  /-- CONVS, wrapping; reset 0. -/
  convs : Nat := 0
  /-- BREAKS, RC; reset 0. -/
  breaks : Nat := 0
  /-- RTD_BREAK; reset 0. -/
  brk : Bool := false
  /-- A break was seen in the conversion in progress, R376 [log 2]. -/
  brkNow : Bool := false
  /-- The conversion in progress is the first after enabling or a change, R376 [log 2]. -/
  settling : Bool := true
  /-- Settings of the conversion in progress, R379; the RTD record's reset values. -/
  cfg : RtdRec := {}
  /-- Tick at which the latest conversion ended, from which the next one integrates, R374 [log 2]. -/
  endTick : Option Nat := none
  deriving DecidableEq, Repr

/-- HKA registers and the housekeeping buffer (17 R361 to R380). -/
structure Hka where
  /-- HKA_STATUS RUNNING; reset 0. -/
  running : Bool := false
  /-- RD_BAD, W1C; reset 0. -/
  rdBad : Bool := false
  /-- HK_LEN in force; reset 256. -/
  len : Nat := 256
  /-- HK_LEN_NEW with its REQ_ID; reset 0 (none). -/
  lenNew : Option (Nat × Nat) := none
  /-- Effective mask in force, HK_MASK_EFF; reset 0x0001_0000. -/
  maskEff : Nat := 0x10000
  /-- HK_PERIOD in force in the scan in progress, R364; reset 0. -/
  period : Nat := 0
  /-- Channels still to convert in the scan in progress, R363 [log 2]. -/
  scan : List Nat := []
  /-- Tick at which the latest scan started, R363 [log 2]. -/
  scanTick : Option Nat := none
  /-- The next sample is the first of its scan, R365 [log 2]. -/
  first : Bool := false
  /-- The scan in progress is the first under a new effective mask, R365 [log 2]. -/
  maskNew : Bool := true
  /-- The buffer: sample words by slot, R366; an unlisted slot reads 0; reset empty. -/
  buf : SMap Nat := []
  /-- WP, HK_WR; reset 0. -/
  wp : Nat := 0
  /-- HK_WIDX, 64 bits; reset 0. -/
  widx : Nat := 0
  /-- HK_RD; reset 0. -/
  rd : Nat := 0
  /-- Unread samples of the host reader, R367 [log 2]. -/
  unread : Nat := 0
  /-- HK_RWRAP; reset 256. -/
  rwrap : Nat := 256
  /-- HK_OVR, RC; reset 0. -/
  ovr : Nat := 0
  /-- HK_SCANS, wrapping; reset 0. -/
  scans : Nat := 0
  /-- LAST_c and VALID_c; an unlisted channel reads 0; reset empty. -/
  last : SMap (Option Nat) := []
  /-- Comparator states; reset ARMED, 0. -/
  comps : List HkComp := List.replicate 32 {}
  /-- Amended settings of comparators that wait for the next sample of their channel, R373 [log 2]. -/
  cmpNew : SMap (Option CmpCfg) := []
  rtd0 : Rtd := {}
  rtd1 : Rtd := {}
  rtd2 : Rtd := {}
  rtd3 : Rtd := {}
  /-- HKA_INT_STATUS and HKA_INT_ENABLE; reset 0. -/
  int : IntPair := {}
  deriving DecidableEq, Repr

end Sys2Proof.Machine
end

