-- ==== Sys2Proof/Machine/Parts3.lean ====
section
/-! DEFINITION. The state of the parts of the module, third part: trust and sessions, configuration, cascade and pair,
background work, the retained fault RAM of the AOS, flash, fuses and factory data. Conventions as in Parts1. -/

namespace Sys2Proof.Machine

/-- A SEQ of the window of R397 with what became of it: the response, or none while it executes with the number of copies
that wait for it. -/
structure Cached where
  seq : Nat
  resp : Option Response
  copies : Nat
  deriving DecidableEq, Repr

/-- A part of an amendment group: type, instance, body bytes so far (19 R420). -/
structure GroupRec where
  type : Nat
  inst : Nat
  body : List Byte
  deriving DecidableEq, Repr

/-- The open amendment group of a session (19 R420). -/
structure Group where
  req : Nat
  parts : List GroupRec
  deriving DecidableEq, Repr

/-- What a reader has latched: the address of each latched word with its value (23 R500). -/
abbrev LatchSet := List (Nat × Word)

/-- One session (18 R393 to R399, R404 SEC_SESS). -/
structure Session where
  sid : Nat
  /-- n of SEC_SESS_n, R404. -/
  slot : Nat
  /-- STATE 2: open; else half-open. -/
  isOpen : Bool
  /-- ROLE: 0 MONITOR, 1 OPERATOR, 2 ADMIN. -/
  role : Nat
  localSess : Bool
  transport : Transport
  /-- Source address and port of UDP datagrams, R391. -/
  src : Nat
  credId : Nat
  /-- Credential slot, none for LOCAL or an unknown or locked credential. -/
  credSlot : Option Nat
  nh : List Byte
  nd : List Byte
  /-- SALT and ITER of its CHALLENGE. -/
  salt : List Byte
  iter : Nat
  /-- H of R397. -/
  hMax : Nat
  /-- The window of R397, newest first. -/
  window : List Cached
  /-- Tick index of the latest verified command (IDLE), R399. -/
  lastCmd : Nat
  /-- Salt bound to the session by CRED_SALT, per slot, R390. -/
  salts : List (Nat × List Byte)
  /-- Latch set of R500. -/
  latches : LatchSet
  /-- Open amendment group, R420. -/
  group : Option Group
  /-- Session keys K_h2m and K_m2h, R395; empty while half-open. -/
  kH2m : List Byte
  kM2h : List Byte
  deriving DecidableEq, Repr

/-- The state of a request (18 R401). -/
inductive ReqState where
  | pending
  | applied
  | superseded
  | refused
  deriving DecidableEq, Repr

/-- A request identifier and its status (18 R401). -/
structure ReqStat where
  id : Nat
  state : ReqState
  /-- Raw-sample index or output number at which it took effect. -/
  index : Nat
  deriving DecidableEq, Repr

/-- The reply to the latest PROOF of a session, for repeated proofs (18 R394). -/
structure ProofReply where
  sid : Nat
  hp : List Byte
  msg : MgmtSend
  deriving DecidableEq, Repr

/-- SEC registers and the session engine (18 R381 to R404). -/
structure Sec where
  /-- Sessions open or half-open, at most 4, R394; SESSIONS, LOCAL, SEC_SESS_n; reset none. -/
  sess : List Session := []
  /-- Handshake replies kept for repeated PROOFs, newest first, R394 [log 2]. -/
  replies : List ProofReply := []
  /-- Per credential slot: tick indices of the wrong proofs of the last 60 s, R394; reset none. -/
  fails : List (List Nat) := List.replicate 8 []
  /-- CRED_LOCKED, R394; reset 0. -/
  locked : List Bool := List.replicate 8 false
  /-- Per credential slot: the tick index at which it was last locked, R394; no meaning while it is not. -/
  lockTicks : List Nat := List.replicate 8 0
  /-- KEPOCH, R403; reset 0. -/
  kepoch : Nat := 0
  /-- REKEY_PENDING, R403; reset 0. -/
  rekeyPend : Bool := false
  /-- K_sm of the current epoch, R402; none before the first acquisition after a reset. -/
  ksm : Option (List Byte) := none
  /-- K_sm of the pending epoch when it differs, R403 [log 2]. -/
  ksmPend : Option (List Byte) := none
  /-- K_sm and number of the previous epoch, R403 [log 2]. -/
  prevEpoch : Option (Nat × List Byte) := none
  /-- Responses waiting on the SPI target, oldest first, R391 [log 2]. -/
  spiTx : List MgmtSend := []
  /-- What the SPI target returned to the latest fetch: LEN 0 is none, R391 [log 2]. -/
  spiLast : Option MgmtSend := none
  /-- Status of the latest 256 requests, newest first, R401; reset none. -/
  reqs : List ReqStat := []
  /-- The next REQ_ID, R401 [log 2]. -/
  nextReq : Nat := 1
  /-- The management core restarts, R21; it answers nothing meanwhile [log 2]. -/
  restarting : Bool := false
  /-- LIFECYCLE accepted and waiting for its fuse write, R382 [log 2]. -/
  lifePend : Option Nat := none
  /-- SEC_CMDS, wrapping; reset 0. -/
  cmds : Nat := 0
  /-- SEC_HS_FAIL, RC; reset 0. -/
  hsFail : Nat := 0
  /-- SEC_TAG_FAIL, RC; reset 0. -/
  tagFail : Nat := 0
  /-- SEC_STALE, RC; reset 0. -/
  stale : Nat := 0
  /-- SEC_DUP, RC; reset 0. -/
  dup : Nat := 0
  /-- SEC_LOCKOUTS, RC; reset 0. -/
  lockouts : Nat := 0
  /-- SEC_BUSY, RC; reset 0. -/
  busy : Nat := 0
  /-- SEC_INT_STATUS and SEC_INT_ENABLE; reset 0. -/
  int : IntPair := {}
  deriving DecidableEq, Repr

/-- A rejection of R412: STEP, TYPE, INST and byte offset; all 0 when passed or not tried. -/
structure Rej where
  step : Nat := 0
  type : Nat := 0
  inst : Nat := 0
  ofs : Nat := 0
  deriving DecidableEq, Repr

/-- Where the open staging stands (19 R417, R423 STAGE). -/
inductive Stage where
  | none
  | erasing
  | opened
  | checked
  deriving DecidableEq, Repr

/-- CFG registers, image selection and staging (19 R405 to R423). -/
structure CfgB where
  /-- ACTIVE_SLOT: 0 A, 1 B, 2 golden; reset 0. -/
  activeSlot : Nat := 0
  /-- FW_SLOT; reset 0. -/
  fwSlot : Nat := 0
  /-- FW_GOLDEN; reset 0. -/
  fwGolden : Bool := false
  /-- OPT_BAD; reset 0. -/
  optBad : Bool := false
  /-- WAKE_POLICY in force (option byte 9, R407), PWR 0x014; reset 0. -/
  wakePolicy : Nat := 0
  /-- OVERLAY in force (option byte 10), PWR 0x014; reset 0. -/
  overlay : Nat := 0
  /-- WAKE_S in force (option bytes 12–15), PWR_WAKE_S; reset 0. -/
  wakeS : Nat := 0
  /-- STAGE; reset none (0). -/
  stage : Stage := .none
  /-- STAGE_TARGET; reset 0. -/
  stageTarget : Nat := 0
  /-- LENGTH of STAGE_BEGIN, R417 [log 2]. -/
  stageLen : Nat := 0
  /-- HASH of STAGE_BEGIN, R417 [log 2]. -/
  stageHash : List Byte := []
  /-- What has been written into the open staging, as (offset, bytes); STAGE_WRITTEN is their sum; reset 0. -/
  staged : List (Nat × Nat) := []
  /-- The rejection of slot A, CFG_REJ_A; reset 0. -/
  rejA : Rej := {}
  /-- The rejection of slot B, CFG_REJ_B; reset 0. -/
  rejB : Rej := {}
  /-- The rejection of the latest STAGE_CHECK, CFG_REJ_STAGE; reset 0. -/
  rejStage : Rej := {}
  /-- CFG_IMG_VERSION; reset 0. -/
  imgVersion : Nat := 0
  /-- CFG_IMG_HASH, 32 bytes; reset 0. -/
  imgHash : List Byte := List.replicate 32 0
  /-- KEY_SLOT of the active image: 0–2, 0xFE Kenmus root, 0xFF unsigned, 18 R385 [log 2]. -/
  imgKey : Nat := 0xFF
  /-- CFG_AMENDS, RC; reset 0. -/
  amends : Nat := 0
  /-- CFG_AMEND_REFUSED, RC; reset 0. -/
  refused : Nat := 0
  /-- CFG_FALLBACKS, RC; reset 0. -/
  fallbacks : Nat := 0
  /-- Image slots already tried at this boot, R414 [log 2]. -/
  tried : List Nat := []
  /-- The image of the slot being booted, or the active one, is in trial, R416; TRIAL; reset 0. -/
  trial : Bool := false
  /-- This boot has fallen back already, R414, R416 [log 2]. -/
  fell : Bool := false
  /-- The settings of the slot accepted at step 4 of R440, in force from step 5 on [log 2]. -/
  accepted : Option Conf := none
  /-- The settings of the active image, from step 5 of R440 on: AMENDED shows that those in force differ; reset none [log 2]. -/
  image : Option Conf := none
  /-- ACTIVATE mode 2 on the active waits for its switch-over, 21 R475 [log 2]. -/
  actSwitch : Bool := false
  /-- An image ACTIVATE of mode 1 waits for the next reset, whose reach C source it is, 20 R432 [log 2]. -/
  actNext : Bool := false
  /-- CFG_INT_STATUS and CFG_INT_ENABLE; reset 0. -/
  int : IntPair := {}
  deriving DecidableEq, Repr

/-- A direction of the ring (21 R449, R451). -/
structure RingDir where
  /-- Lanes in service. -/
  lanes : List Bool := [false, false]
  /-- The CRC errors for which a lane is under BIST, R451 [log 2]. -/
  testing : List (Option Nat) := [none, none]
  /-- Ticks of the transient faults of each lane within the last hour, 22 R486. -/
  faults : List (List Nat) := [[], []]
  deriving DecidableEq, Repr

/-- A member as the ring's other members see it (21 R477 CAS_MEM). -/
structure Member where
  present : Bool := false
  joined : Bool := false
  excluded : Bool := false
  pairRole : Nat := 0
  reason : Nat := 0
  hotPct : Nat := 0
  /-- |e_c| in 0.1 ns. -/
  terr : Nat := 0
  /-- FW_VERSION, eligibility and TAKEBACK_REQ of its heartbeat, R450 [log 2]. -/
  fw : Nat := 0
  eligible : Bool := false
  takebackReq : Bool := false
  /-- Tick at which its latest HEARTBEAT passed its CRC check, R452 [log 2]. -/
  beat : Nat := 0
  /-- Tick at which the latest SLEW was sent to it, R459 [log 2]. -/
  slewTick : Nat := 0
  deriving DecidableEq, Repr

/-- A Dzirak message this module sends (21 R450). -/
inductive RingMsg where
  | heartbeat (b : BeatBody)
  | joinReq (b : JoinBody)
  | joinAck (dst : Nat)
  | joinRefuse (dst reason : Nat)
  | time (markTick masterTime delayPs : Nat)
  | slew (target : Nat) (ec : Int)
  | state (b : StateBody)
  | syncIdx (ns : Nat)
  | amendProp (type inst : Nat) (body : List Byte)
  | amendVote (result : Nat)
  | amendCommit (period : Nat)
  | seedBegin
  | seedChunk (block : Nat) (data : List Byte)
  | seedCommit (block : Nat)
  | seedEnd
  | release (lastIdx : Nat)
  | takeReq
  | dtsTrace (avg : Nat) (lnR : List (Option Int))
  | syncInstant (instant : Nat)
  deriving DecidableEq, Repr

/-- A message on its way to the next member of the ring, with its header (21 R450). -/
structure RingSend where
  src : Nat
  dst : Nat
  hops : Nat
  seq : Nat
  msg : RingMsg
  deriving DecidableEq, Repr

/-- The contents of a seed chunk of one block (21 R471): slot records and baselines by slot, and the quasi-static references. -/
structure SeedChunk where
  block : Nat
  slots : List (Nat × SlotRec)
  base : List (Nat × Nat)
  refs : List (Nat × QsRef)
  deriving DecidableEq, Repr

/-- A proposed amendment on the master (21 R461): the request, its records, the votes still missing. -/
structure Proposal where
  req : Nat
  /-- Tick at which AMEND_PROP was sent, R461 [log 2]. -/
  tick : Nat
  sid : Nat
  seq : Nat
  recs : List GroupRec
  waiting : List Nat
  deriving DecidableEq, Repr

/-- A committed amendment of a cascade and the trace period at whose boundary it takes effect (21 R461); `req` is 0 on a member. -/
structure Committed where
  req : Nat
  recs : List GroupRec
  period : Nat
  deriving DecidableEq, Repr

/-- CAS registers, ring and pair (21 R449 to R477). -/
structure Cas where
  /-- The ring's link is up, R451, R456 [log 2]. -/
  link : Bool := false
  /-- Lanes of the receiving and the transmitting direction, LANES; reset 0. -/
  rxDir : RingDir := {}
  txDir : RingDir := {}
  /-- MASTER; reset 0. -/
  master : Bool := false
  /-- JOINED; reset 0. -/
  joined : Bool := false
  /-- JOIN_ACK received, time not yet within 20 ns, R456 step 3 [log 2]. -/
  acked : Bool := false
  /-- |e_c| ≤ 20 ns reached; joins at the next STATE, R456 step 4 [log 2]. -/
  timed : Bool := false
  /-- Rank 0 declared lost and not yet rejoined, R458 [log 2]. -/
  lost0 : Bool := false
  /-- EXCLUDED; reset 0. -/
  excluded : Bool := false
  /-- PAIR_ROLE: 0 none, 1 active, 2 standby; reset 0. -/
  pairRole : Nat := 0
  /-- SEEDING; reset 0. -/
  seeding : Bool := false
  /-- PARTNER; reset 0. -/
  partner : Bool := false
  /-- SOAKING; reset 0. -/
  soaking : Bool := false
  /-- SWITCH_PENDING; reset 0. -/
  switchPending : Bool := false
  /-- CAS_TERR, e_c ps; reset 0. -/
  terr : Int := 0
  /-- CAS_REFUSE; reset 0. -/
  refuse : Nat := 0
  /-- HOT blocks of this module as standby, HOT_BLOCKS; reset none (0). -/
  hot : List Nat := []
  /-- STRAIN_REZERO; reset 0. -/
  strainRezero : Bool := false
  /-- TAKEBACK_REQ; reset 0. -/
  takebackReq : Bool := false
  /-- RELEASE_REQ; reset 0. -/
  releaseReq : Bool := false
  /-- Latest r_sw, SWITCH_IDX; reset 0. -/
  switchIdx : Nat := 0
  /-- Tick index at which the soak ends, SOAK_LEFT, R473; reset none (0). -/
  soakEndTick : Nat := 0
  /-- SOAK_S as the running soak took it, s, R473, R476 [log 2]. -/
  soakLen : Nat := 0
  /-- A soak has been cancelled by PAIR_SWITCH action 2, R474: none starts until its conditions have ceased [log 2]. -/
  soakSkip : Bool := false
  /-- CAS_MEM_n, 16 members; reset 0. -/
  members : List Member := List.replicate 16 {}
  /-- The latest state of the master, R460 [log 2]. -/
  stateSeen : Option StateBody := none
  /-- The state of the master this module last realigned to, R460 [log 2]. -/
  adopted : Option StateBody := none
  /-- The role of the raw samples by index, newest first: from which index on, and whether it is the standby role, R469 [log 2]. -/
  roleSegs : List (Nat × Bool) := []
  /-- Index of the latest training restart as STATE carries it, R450 [log 2]. -/
  trainIdx : Nat := 0
  /-- The partner is declared lost, R452 [log 2]. -/
  partnerLost : Bool := false
  /-- The partner's ARB_HB is declared lost, R465 [log 2]. -/
  hbLost : Bool := false
  /-- RELEASE received, with the last launch index named, R466, R467 [log 2]. -/
  released : Option Nat := none
  /-- A takeover is under way: the switch index r_sw, R468 [log 2]. -/
  takeover : Option Nat := none
  /-- Blocks the active is to seed next, R470 [log 2]. -/
  seedAsk : List Nat := []
  /-- Blocks of the latest seeding that the standby has confirmed, R472 [log 2]. -/
  seedAcked : List Nat := []
  /-- Seeding on the active: r_0, R471 [log 2]. -/
  seedR0 : Option Nat := none
  /-- Blocks of the seeding under way whose chunk has not been sent, R471 [log 2]. -/
  seedLeft : List Nat := []
  /-- Copies made at shot-sheaf commits, key b·128 + k: slot record and baseline array, R471 [log 2]. -/
  seedBuf : List (Nat × SlotRec × List Nat) := []
  /-- Chunks received whole, installed at the next trace-period boundary, R472 [log 2]. -/
  seedRx : List SeedChunk := []
  /-- A proposed amendment waits for its votes, R461 [log 2]. -/
  proposal : Option Proposal := none
  /-- The records of a proposal this member has validated, waiting for their COMMIT, R461 [log 2]. -/
  proposed : List GroupRec := []
  /-- Tick index of the latest AMEND_PROP received, R461 [log 2]. -/
  proposedTick : Nat := 0
  /-- The fingerprint of the latest JOIN_REQ sent, R457 [log 2]. -/
  sentFinger : List Byte := []
  /-- Committed amendments waiting for their boundary, oldest first, R461 [log 2]. -/
  commits : List Committed := []
  /-- Rates off the reference, R459: the member slews towards e_c = 0 [log 2]. -/
  slewing : Bool := false
  /-- Tick at which the latest SLEW for this member was received, R459 [log 2]. -/
  slewTick : Nat := 0
  /-- Own SYNC_P/N edge instant, 2⁻⁴⁸ ns, R459 [log 2]. -/
  syncInst : Nat := 0
  /-- The latest 64 messages sent on the ring, newest last, R450 [log 2]. -/
  tx : List RingSend := []
  /-- SEQ of the next message this module originates, R450; uint32, wrapping [log 2]. -/
  ringSeq : Nat := 0
  /-- CAS_SWITCHES, RC; reset 0. -/
  switches : Nat := 0
  /-- CAS_SEEDS, RC; reset 0. -/
  seeds : Nat := 0
  /-- CAS_SEED_ABORTS, RC; reset 0. -/
  seedAborts : Nat := 0
  /-- CAS_LOSSES, RC; reset 0. -/
  losses : Nat := 0
  /-- CAS_SLEWS, RC; reset 0. -/
  slews : Nat := 0
  /-- CAS_REFUSALS, RC; reset 0. -/
  refusals : Nat := 0
  /-- CAS_CRC_ERR, RC; reset 0. -/
  crcErr : Nat := 0
  /-- CAS_INT_STATUS and CAS_INT_ENABLE; reset 0. -/
  int : IntPair := {}
  deriving DecidableEq, Repr

/-- A fault-log entry (22 R488); CRC is computed when the entry is shown. -/
structure LogEntry where
  seq : Nat
  code : Nat
  cls : Nat
  eflags : Nat
  ts : Nat
  boot : Nat
  unit : Nat
  rep : Nat
  data : List Byte
  deriving DecidableEq, Repr

/-- One of the seven tasks of R478 (22 R492). -/
structure Task where
  /-- RUNNING; reset 0. -/
  running : Bool := false
  /-- LATE_t, RC; reset 0. -/
  late : Nat := 0
  /-- MAXLATE_t ms, RC; reset 0. -/
  maxLate : Nat := 0
  /-- Tick index of the start of the previous run, R479; none before the first [log 2]. -/
  last : Option Nat := none
  deriving DecidableEq, Repr

/-- An SRAM row under its targeted test (22 R484, R489). -/
structure SramTest where
  bank : Nat
  row : Nat
  syndrome : Nat
  requester : Nat
  deriving DecidableEq, Repr

/-- BGW registers and background work (22 R478 to R492). -/
structure Bgw where
  /-- The seven tasks. -/
  tasks : List Task := List.replicate 7 {}
  /-- Tick index at which the present acquisition's background conditions began to hold, R479 [log 2]. -/
  acqFrom : Nat := 0
  /-- SRAM rows under test: bank, row, syndrome, requester, R484 [log 2]. -/
  sramTests : List SramTest := []
  /-- LOG_WORN; reset 0. -/
  logWorn : Bool := false
  /-- SRAM_PASSES, wrapping; reset 0. -/
  sramPasses : Nat := 0
  /-- DRAM_PASSES, wrapping; reset 0. -/
  dramPasses : Nat := 0
  /-- Words the SRAM scrubber has read in the present pass, R480 [log 2]. -/
  sramPos : Nat := 0
  /-- Next usable address the DRAM scrubber reads, R481 [log 2]. -/
  dramPos : Nat := 0
  /-- Units passed over on channels in self-refresh, R481 [log 2]. -/
  dramSkipped : List Nat := []
  /-- SRAM_CE, RC; reset 0. -/
  sramCe : Nat := 0
  /-- SRAM_UE, RC; reset 0. -/
  sramUe : Nat := 0
  /-- GLEANS, wrapping; reset 0. -/
  gleans : Nat := 0
  /-- TESTS_TRANSIENT, RC; reset 0. -/
  testsTransient : Nat := 0
  /-- TESTS_LASTING, RC; reset 0. -/
  testsLasting : Nat := 0
  /-- LOG_SEL, RW; reset 0. -/
  logSel : Nat := 0
  /-- LOG_SEL_VALID; reset 0. -/
  logSelValid : Bool := false
  /-- LOG_WORD_0 to 15; reset 0. -/
  logWords : List Word := List.replicate 16 0
  /-- The newest entry, to coalesce into, R490 [log 2]. -/
  newest : Option Nat := none
  /-- The RAM queue of R490, oldest first, at most 256 entries [log 2]. -/
  queue : List LogEntry := []
  /-- Entries dropped and the SEQ of the first, R490 [log 2]. -/
  dropped : Option (Nat × Nat) := none
  /-- Token bucket of R490: tokens at `bucketTick` [log 2]. -/
  bucket : Nat := 4096
  bucketTick : Nat := 0
  /-- Next channel of TDC_CHECK, R478 [log 2]. -/
  tdcNext : Nat := 0
  /-- BGW_INT_STATUS and BGW_INT_ENABLE; reset 0. -/
  int : IntPair := {}
  deriving DecidableEq, Repr

/-- The retained state of the AOS (22 R487; 20 R432): kept across reach B and C, cleared by reach A. -/
structure Aos where
  /-- Tiller retirement map: retired tillers, 0x040. -/
  tillers : List Nat := []
  /-- Slice retirement map, 9·lane + slice, 0x070. -/
  slices : List Nat := []
  /-- TDC retirements, 0x070. -/
  tdcs : List Nat := []
  /-- Lane degradation per direction (2·direction + lane), 0x070. -/
  lanes : List Nat := []
  /-- SRAM spare map: (bank, row) of each used entry, at most 256, 0x080. -/
  sram : List (Nat × Nat) := []
  /-- SRAM_SPARE_OUT, 22 R492, retained; 0 after reach A. -/
  sramSpareOut : Bool := false
  /-- DRAM blacklist: row slot replaced by spare slot i, 0x280, 14 R313. -/
  dram : SMap (Option Nat) := []
  /-- Fault-log entries awaiting flash, oldest first, at most 22, 0xA80. -/
  log : List LogEntry := []
  /-- Boot count, RTC second and cause of the last power loss, 0x000. -/
  lossBoot : Nat := 0
  lossRtc : Nat := 0
  lossCause : Nat := 0
  /-- The next fault-log SEQ, 0x000; LOG_NEWEST is the one before it. -/
  nextSeq : Nat := 0
  /-- RTC second; cleared by reach A (20 R432). -/
  rtc : Nat := 0
  /-- Tick index at which `rtc` was true (the RTC counts seconds), and whether the RTC has been set, 16 R348, R353. -/
  rtcTick : Nat := 0
  rtcSet : Bool := false
  deriving DecidableEq, Repr

/-- Preference byte of the option bytes (19 R406 bytes 5 and 6). -/
structure Pref where
  slot : Nat := 0
  trial : Bool := false
  tries : Nat := 0
  deriving DecidableEq, Repr

/-- The option bytes (19 R406). `good` says that MAGIC, VER and CRC are right, R407. -/
structure OptBytes where
  good : Bool := true
  boot : Pref := {}
  fw : Pref := {}
  lifecycle : Nat := 0
  debugLock : Bool := false
  wakePolicy : Nat := 0
  overlay : Nat := 0
  wakeS : Nat := 0
  deriving DecidableEq, Repr

/-- A credential slot (18 R389). -/
structure Cred where
  credId : Nat
  role : Nat
  salt : List Byte
  iter : Nat
  kc : List Byte
  deriving DecidableEq, Repr

/-- A sector of the fault-log ring (22 R490): its erase count and entries, oldest first. -/
structure LogSector where
  erases : Nat := 0
  entries : List LogEntry := []
  deriving DecidableEq, Repr

/-- The flash (19 R405): kept across every reset. -/
structure Flash where
  /-- Option bytes, R406; on a module from the factory the defaults of R407 [log 3]. -/
  opt : OptBytes := {}
  /-- Credential store, 8 slots, 18 R389; none set from the factory [log 3]. -/
  creds : List (Option Cred) := List.replicate 8 none
  /-- Fault-log ring, 32 sectors; empty from the factory [log 3]. -/
  ring : List LogSector := List.replicate 32 {}
  /-- Ring head: the sector being filled [log 3]. -/
  head : Nat := 0
  /-- Firmware slot 0: empty from the factory [log 3]. -/
  fw0 : List Byte := []
  /-- Firmware slot 1: empty from the factory [log 3]. -/
  fw1 : List Byte := []
  /-- Golden firmware, factory [log 3]. -/
  fwGolden : List Byte := []
  /-- Image slot A: empty from the factory [log 3]. -/
  imgA : List Byte := []
  /-- Image slot B: empty from the factory [log 3]. -/
  imgB : List Byte := []
  /-- Golden image, factory [log 3]. -/
  imgGolden : List Byte := []
  deriving DecidableEq, Repr

/-- The fuses: written once, kept across every reset (18 R381 to R388; 20 R437; 23 R505). -/
structure Fuses where
  /-- LIFECYCLE: 0 OPEN, 1 PROVISIONED, 2 SECURED, 3 SCRAPPED; OPEN from the factory [log 3]. -/
  lifecycle : Nat := 0
  /-- Debug lock [log 3]. -/
  debugLock : Bool := false
  /-- SVN_MIN [log 3]. -/
  svnMin : Nat := 0
  /-- Customer key hashes, three slots [log 3]. -/
  keys : List (Option (List Byte)) := [none, none, none]
  /-- Revoked key slots [log 3]. -/
  revoked : List Bool := [false, false, false]
  /-- ORDER: 0 KT7-128-E, 1 KT7-064-E [log 3]. -/
  order : Nat := 0
  /-- PWR_PADFUSE: the code of each GPIO, none while unfused, 20 R437 [log 3]. -/
  pads : List (Option Nat) := List.replicate 8 none
  deriving DecidableEq, Repr

/-- Factory data (19 R405; 23 R505) [log 3]. -/
structure Fact where
  /-- GLB_SERIAL, factory [log 3]. -/
  serial : Nat := 0
  /-- DIE_REV, factory [log 3]. -/
  dieRev : Nat := 0
  /-- SUBSTRATE_REV, factory [log 3]. -/
  substrateRev : Nat := 0
  /-- AOS_REV, factory [log 3]. -/
  aosRev : Nat := 0
  /-- Factory MAC, 48 bits, 15 R318 [log 3]. -/
  mac : Nat := 0
  /-- Gain words g of range r and lane, 03 R87, key 4·r + lane: nominal 256·2^r [log 3]. -/
  gains : List Nat := (List.range 4).flatMap fun r => List.replicate 4 (256 * 2 ^ r)
  /-- LANE_DELAY per lane in 0.1 ps, 04 R98 [log 3]. -/
  laneDelay : List Int := [0, 0, 0, 0]
  /-- Factory trims of the slices, key 9·lane + slice: offset, gain, taps, 04 R94 [log 3]. -/
  trims : List (Int × Int × List Nat) := List.replicate 36 (0, 0, [0, 0, 0, 0, 0, 0, 0, 0])
  /-- Device certificate, DER, 18 R384 [log 3]. -/
  cert : List Byte := []
  /-- Device private key, 18 R384 [log 3]. -/
  devKey : List Byte := []
  /-- Device secret of the salts of unknown credentials, 18 R394 [log 3]. -/
  devSecret : List Byte := []
  /-- Factory through-latency of the ring, ps, 21 R459 [log 3]. -/
  throughPs : Nat := 0
  /-- FW_VERSION of the running firmware, 18 R404 [log 3]. -/
  fwVersion : Nat := 0
  /-- FW_SVN of the running firmware, 18 R404 [log 3]. -/
  fwSvn : Nat := 0
  deriving DecidableEq, Repr

end Sys2Proof.Machine
end

