-- ==== Sys2Proof/Machine/State.lean ====
section
/-! DEFINITION. The state of the module: every register, buffer, counter, mode and pin the spec gives it, and the queue of
commands that wait. `State.reset` is the machine right after a reset of reach A (20 R432), before its rails are on (log 9). -/

namespace Sys2Proof.Machine

/-- The module's state. -/
structure State where
  /-- The commands that wait, first in, first out; the model's own queue; reset empty. -/
  pending : List Instr := []
  /-- Counter of free values drawn (random bytes and unstated values); the model's own field, no statement rests on its value
  [log 6]. -/
  free : Nat := 0
  /-- The settings in force, 19 R410, R421; reset: the registers' reset values. -/
  conf : Conf := {}
  /-- Pads, 24 R507. -/
  pads : Pads := {}
  /-- GLB block, 23 R505. -/
  glb : Glb := {}
  /-- PWR block, 20 R448. -/
  pwr : Pwr := {}
  /-- PRB block, 02 R65. -/
  prb : Prb := {}
  /-- RXF block, 03 R88. -/
  rxf : Rxf := {}
  /-- ADC block, 04 R105. -/
  adc : Adc := {}
  /-- TIL block, 05 R132. -/
  til : Til := {}
  /-- COH block, 07 R168, 08 R191. -/
  coh : Coh := {}
  /-- DEC block, 09 R215, R216. -/
  dec : Dec := {}
  /-- QSS block, 10 R237. -/
  qss : Qss := {}
  /-- DTS block, 11 R254. -/
  dts : Dts := {}
  /-- ZON block, 12 R270. -/
  zon : Zon := {}
  /-- ACQ block, 13 R293. -/
  acq : Acq := {}
  /-- MEM block and DRAM, 14 R315. -/
  mem : Mem := {}
  /-- NET block, 15 R340. -/
  net : Net := {}
  /-- TIM block, 16 R360. -/
  tim : Tim := {}
  /-- HKA block, 17 R380. -/
  hka : Hka := {}
  /-- SEC block, 18 R404. -/
  sec : Sec := {}
  /-- CFG block, 19 R423. -/
  cfg : CfgB := {}
  /-- CAS block, 21 R477. -/
  cas : Cas := {}
  /-- BGW block, 22 R492. -/
  bgw : Bgw := {}
  /-- Retained state of the AOS, 22 R487; cleared by reach A. -/
  aos : Aos := {}
  /-- Flash, 19 R405; kept. -/
  flash : Flash := {}
  /-- Fuses, 18 R381; kept. -/
  fuses : Fuses := {}
  /-- Factory data, 19 R405; kept. -/
  fact : Fact := {}
  deriving DecidableEq, Repr

/-- Why the module stops on a command. The spec gives every command of the table an effect, so no command stops on every path. -/
inductive Fault where
  /-- Raised by `execDramRequest` for a usable byte address at or beyond the usable capacity, which does not exist (14 R295, R296).
  Safe: no requester of the module forms such an address. -/
  | noSuchAddress
  deriving DecidableEq, Repr

/-- Why a command has no meaning. -/
inductive Refusal where
  /-- Raised by an arm of `exec` whose command the model has no meaning for; the string is its mnemonic. Safe: the model stops
  where the module goes on. -/
  | notModelled (mnemonic : String)
  deriving DecidableEq, Repr

/-- The module right after a reset of reach A: every field at its reset value (20 R432, R435, R436; log 2, log 3, log 9). -/
def State.reset : State := {}

end Sys2Proof.Machine
end

