-- ==== Sys2Proof/Machine/Flags.lean ====
section
/-! DEFINITION. Flags: counters that saturate or wrap, interrupt bits and their aggregation, and the levels that the state implies: MODE,
FAULT_N, ALIVE, INT_N (20 R428, R443, R444; 23 R499 to R505). -/

namespace Sys2Proof.Machine

/-! ### Counters -/

/-- A saturating counter of `w` bits increased by `n`. -/
def satAdd (w c n : Nat) : Nat := min (c + n) (2 ^ w - 1)

/-- A wrapping counter of `w` bits increased by `n`. -/
def wrapAdd (w c n : Nat) : Nat := (c + n) % 2 ^ w

/-! ### Interrupt bits (23 R499, R503) -/

/-- The pair with status bit `b` set by hardware. -/
def IntPair.raise (p : IntPair) (b : Nat) : IntPair := { p with st := p.st ||| BitVec.ofNat 32 (2 ^ b) }

/-- `raise` when `c` holds. -/
def IntPair.raiseIf (p : IntPair) (c : Bool) (b : Nat) : IntPair := if c then p.raise b else p

/-- A W1C write of `v` in a cycle in which hardware sets the bits `hw` (23 R499). -/
def IntPair.w1c (p : IntPair) (v hw : Word) : IntPair := { p with st := (p.st &&& ~~~v) ||| hw }

/-- Some enabled status bit is set. -/
def IntPair.active (p : IntPair) : Bool := p.st &&& p.en ≠ 0

/-! ### Modes and held levels -/

/-- MODE of PWR_STATUS (20 R428, R448): 0 start-up, 1 sleep, 2 acquisition, 3 stopping. Standby and the golden image, which
never reaches the first configured state (20 R439, R441), read 0. -/
def State.mode (s : State) : Nat :=
  match s.pwr.phase with
  | .sleep => 1
  | .acquisition => 2
  | .stopping => 3
  | _ => 0

/-- The module is configured: it has reached its first configured state and runs in one of the modes from there on. -/
def State.isConfigured (s : State) : Bool := s.mode != 0

/-- The test access port answers (18 R381; 24 R513): in OPEN and PROVISIONED. Where it does not, TDO stays high impedance and TCK, TMS
and TDI are ignored. -/
def State.jtagOpen (s : State) : Bool := decide (s.fuses.lifecycle < 2)

/-- FAULT_N is held asserted (20 R443). -/
def State.faultHeld (s : State) : Bool :=
  !s.isConfigured || s.adc.polHold || s.til.shedding || s.mem.spareHold

/-- FAULT_N is low: held, or a pulse runs (20 R443). -/
def State.faultLow (s : State) : Bool := s.faultHeld || s.pads.faultPulse

/-- ALIVE runs (20 R444). -/
def State.alive (s : State) : Bool :=
  s.isConfigured && !s.faultHeld && s.pwr.standbyWait.isNone &&
    (match s.pwr.phase, s.pwr.stopTo with
     | .stopping, .standby _ => false
     | .stopping, .survey => s.pwr.cycle.surveyEnd != 1
     | _, _ => true)

/-- FAULT_N pulses for 1 ms; a pulse that comes while it is held or pulses has no further effect (20 R443). A pulse restarts a
running soak (21 R473). -/
def State.pulse (s : State) : State :=
  if s.faultLow then s
  else { s with
    pads := { s.pads with faultPulse := true }
    glb := { s.glb with int := s.glb.int.raise 0 }
    cas := if s.cas.soaking then
      { s.cas with soakEndTick := s.tim.tick + s.cas.soakLen * 4000000000 } else s.cas }

/-- GLB_INT_PEND (23 R503). -/
def State.intPend (s : State) : BitVec 20 :=
  let b (p : IntPair) (n : Nat) : BitVec 20 := if p.active then BitVec.ofNat 20 (2 ^ n) else 0
  b s.glb.int 0 ||| b s.pwr.int 1 ||| b s.prb.int 2 ||| b s.rxf.int 3 ||| b s.adc.int 4 ||| b s.til.int 5 |||
  b s.coh.int 6 ||| b s.coh.phInt 6 ||| b s.dec.int 7 ||| b s.qss.int 8 ||| b s.dts.int 9 ||| b s.zon.int 10 |||
  b s.acq.int 11 ||| b s.mem.int 12 ||| b s.net.int 13 ||| b s.tim.int 14 ||| b s.hka.int 15 ||| b s.sec.int 16 |||
  b s.cfg.int 17 ||| b s.cas.int 18 ||| b s.bgw.int 19

/-- INT_N is asserted (23 R504): high impedance from any reset to the first configured state (20 R436). -/
def State.intN (s : State) : Bool := s.isConfigured && (s.intPend &&& s.glb.intMask != 0)

/-- What the GLB status bits record of a command's effect (23 R505) while the main domain runs: FAULT when FAULT_N became held, MODE
when MODE changed. -/
def noteGlobal (s t : State) : State :=
  if !t.tim.counting then t
  else { t with glb := { t.glb with
      int := (t.glb.int.raiseIf (t.faultHeld && !s.faultHeld) 0).raiseIf (t.mode != s.mode) 1 } }

end Sys2Proof.Machine
end

