-- ==== Sys2Proof/Machine/Ops.lean ====
section
/-! DEFINITION. The operations the meanings share: sparse tables, lists, random bytes, training restarts, and the one operation
every meaning ends with. -/

namespace Sys2Proof.Machine

/-! ### Sparse tables (log 10) -/

/-- The value of key `k`: an unlisted key holds the default `d`. -/
def smGet {α : Type} (d : α) (m : SMap α) (k : Nat) : α :=
  match m with
  | [] => d
  | (a, v) :: m => if a = k then v else smGet d m k

/-- The table without key `k`. -/
def smErase {α : Type} (m : SMap α) (k : Nat) : SMap α :=
  match m with
  | [] => []
  | (a, v) :: m => if a = k then smErase m k else (a, v) :: smErase m k

/-- The table with (k, v) put in its place in the key order; `k` is not listed. -/
def smInsert {α : Type} (m : SMap α) (k : Nat) (v : α) : SMap α :=
  match m with
  | [] => [(k, v)]
  | (a, w) :: m => if k < a then (k, v) :: (a, w) :: m else (a, w) :: smInsert m k v

/-- The table with value `v` at key `k`; the default is not listed. -/
def smSet {α : Type} [DecidableEq α] (d : α) (m : SMap α) (k : Nat) (v : α) : SMap α :=
  if v = d then smErase m k else smInsert (smErase m k) k v

/-- The canonical form: keys strictly rising, no default listed. -/
def smWf {α : Type} [DecidableEq α] (d : α) (m : SMap α) : Bool :=
  decide ((m.map Prod.fst).Pairwise (· < ·)) && m.all fun e => decide (e.2 ≠ d)

/-- The table with the listed values, later ones winning. -/
def smSetAll {α : Type} [DecidableEq α] (d : α) (m : SMap α) (l : List (Nat × α)) : SMap α :=
  l.foldl (fun m e => smSet d m e.1 e.2) m

/-- The table without the keys `p` selects. -/
def smDrop {α : Type} (m : SMap α) (p : Nat → Bool) : SMap α := m.filter fun e => !p e.1

/-- A list with element `i` changed by `f`; beyond its end, unchanged. -/
def modAt {α : Type} (l : List α) (i : Nat) (f : α → α) : List α :=
  match l, i with
  | [], _ => []
  | a :: l, 0 => f a :: l
  | a :: l, i + 1 => a :: modAt l i f

/-- Element `i` of a list, `d` beyond its end. -/
def nth {α : Type} (l : List α) (i : Nat) (d : α) : α := (l[i]?).getD d

/-- `a` put into a list before the first element that `le` does not put before it. -/
def insertBy {α : Type} (le : α → α → Bool) (a : α) : List α → List α
  | [] => [a]
  | b :: l => if le b a then b :: insertBy le a l else a :: b :: l

/-- The list in the order of `le`, equal elements in their order. -/
def orderBy {α : Type} (le : α → α → Bool) (l : List α) : List α := l.foldl (fun m a => insertBy le a m) []

/-- The list with `a` added unless it is listed. -/
def addOnce (l : List Nat) (a : Nat) : List Nat := if l.contains a then l else l ++ [a]

/-- Number of configured blocks, P/1,024 (05 R107). -/
def ProbeRec.nblocks (p : ProbeRec) : Nat := p.p / 1024

/-! ### Ports -/

/-- Line mode of port p, 0 NET_A, 1 NET_B. -/
def NetRec.mode (c : NetRec) (p : Nat) : Nat := if p = 0 then c.modeA else c.modeB

/-- Port p. -/
def Net.port (x : Net) (p : Nat) : Port := if p = 0 then x.portA else x.portB

/-- Port p set. -/
def Net.setPort (x : Net) (p : Nat) (y : Port) : Net := if p = 0 then { x with portA := y } else { x with portB := y }

/-- Port p changed by `f`. -/
def State.modPort (s : State) (p : Nat) (f : Port → Port) : State :=
  { s with net := s.net.setPort p (f (s.net.port p)) }

/-- A frame is received on port p: RX_FRAMES, and in mode 3 the RS-FEC codewords met since the previous one (15 R340). -/
def State.received (s : State) (p : Nat) (x : RxMeta) : State :=
  let fec := s.conf.net.mode p == 3
  s.modPort p fun y => { y with
    rx := wrapAdd 32 y.rx 1
    fecCorr := satAdd 32 y.fecCorr (if fec then x.fecCorr else 0)
    fecUncorr := satAdd 32 y.fecUncorr (if fec then x.fecUncorr else 0) }

/-- The tag of a frame is the one accepted (15 R325): VID with VLAN_EN, no tag without. -/
def NetRec.takes (c : NetRec) (x : RxMeta) : Bool := x.vlan == if c.vlanEn = 1 then some c.vid else none

/-- A received frame is discarded and counted (15 R325). -/
def State.discard (s : State) (p : Nat) (x : RxMeta) : State :=
  (s.received p x).modPort p fun y => { y with rxDropped := satAdd 32 y.rxDropped 1 }

/-- The port of a transport; none for the SPI target. -/
def portOf : Transport → Option Nat
  | .udpA => some 0
  | .udpB => some 1
  | .spi => none

/-! ### Messages of the ring (21 R450) -/

/-- The module is a member of a ring whose link is up. -/
def State.inRing (s : State) : Bool := s.conf.cascade.role != 0 && s.cas.link

/-- The other rank of a pair or a loop. -/
def State.partnerRank (s : State) : Nat := 1 - s.conf.cascade.rank

/-- The rank that performs the master duties as this module sees it: the lowest joined one, rank 0 before any has joined (21 R460). -/
def State.masterRank (s : State) : Nat :=
  ((List.range 16).find? fun n => (nth s.cas.members n {}).present && (nth s.cas.members n {}).joined).getD 0

/-- DST of a message (21 R450; log 85): one rank where the rules name its receiver, 0xFF for all where they do not. -/
def State.ringDst (s : State) : RingMsg → Nat
  | .joinReq _ | .amendVote _ | .syncInstant _ => s.masterRank
  | .joinAck d | .joinRefuse d _ | .slew d _ => d
  | .seedBegin | .seedChunk _ _ | .seedCommit _ | .seedEnd | .release _ | .takeReq | .dtsTrace _ _ => s.partnerRank
  | .heartbeat _ | .time _ _ _ | .state _ | .syncIdx _ | .amendProp _ _ _ | .amendCommit _ => 255

/-- A message leaves on the ring while its link is up. -/
def State.putRing (s : State) (x : RingSend) : State :=
  if s.cas.link then
    let l := s.cas.tx ++ [x]
    { s with cas := { s.cas with tx := l.drop (l.length - 64) } }
  else s

/-- A message of this module is sent on the ring, with the next SEQ. -/
def State.sendRing (s : State) (m : RingMsg) : State :=
  let t := s.putRing { src := s.conf.cascade.rank, dst := s.ringDst m, hops := 0, seq := s.cas.ringSeq, msg := m }
  { t with cas := { t.cas with ringSeq := if s.cas.link then wrapAdd 32 s.cas.ringSeq 1 else s.cas.ringSeq } }

/-- A received message is forwarded as `m` unless it is addressed to this module: one hop more (21 R450; log 85). -/
def State.passOn (s : State) (h : RingHdr) (m : RingMsg) : State :=
  if h.dst = s.conf.cascade.rank then s
  else s.putRing { src := h.src, dst := h.dst, hops := wrapAdd 8 h.hops 1, seq := h.seq, msg := m }

/-- A message is received from the previous member (21 R450): where its CRC fails it is discarded and counted; one this module originated
has come round; any other is forwarded as `m` unless it is addressed to this module, and taken by `f` where it is addressed to it or to
all. -/
def State.ringIn (s : State) (h : RingHdr) (m : RingMsg) (f : State → State) : State :=
  if !s.inRing then s
  else if !h.crcOk then { s with cas := { s.cas with crcErr := satAdd 32 s.cas.crcErr 1 } }
  else if h.src = s.conf.cascade.rank then s
  else if h.dst = s.conf.cascade.rank ∨ h.dst = 255 then f (s.passOn h m)
  else s.passOn h m

/-! ### Random bytes and free values (log 6) -/

/-- `n` random bytes and the state with them drawn. -/
def drawBytes (s : State) (n : Nat) : List Byte × State :=
  ((List.range n).map fun i => Config.freeByte (s.free + i), { s with free := s.free + n })

/-- A training restart of the blocks (none: all) asked for the first trace-period boundary at or after tick `t` (08 R179);
`clear` says that TVALID and FTHR are cleared. -/
def State.askRestart (s : State) (blocks : Option (List Nat)) (clear : Bool) (t : Nat) : State :=
  { s with coh := { s.coh with restartPend := s.coh.restartPend ++ [(blocks, clear, t)] } }

/-- How every meaning ends: the state `t` the command leaves, with the queue as it was and what GLB records. -/
def State.done (s t : State) : Host.Outcome State Fault Refusal :=
  .next { noteGlobal s t with pending := s.pending }

end Sys2Proof.Machine
end

