-- ==== Sys2Proof/Machine/Clock.lean ====
section
/-! DEFINITION. The time map and timestamps (16 R344 to R348). Instants are held in units of 2⁻⁴⁸ ns, timestamps in units of
2⁻¹⁶ ns of TAI since 1958-01-01. -/

namespace Sys2Proof.Machine

/-- One second in units of 2⁻⁴⁸ ns. -/
def sec48 : Nat := 1000000000 * 2 ^ 48

/-- One second in ticks (01 R17). -/
def secTicks : Nat := 4000000000

/-- One millisecond in ticks. -/
def msTicks : Nat := 4000000

/-- The first tick of the timing-clock cycle after the one that tick `t` lies in (01 R17). A timeout that expires at `t` takes effect
there, so that every arrival of the cycle of `t` comes before it (01 R26, R27). -/
def afterCycle (t : Nat) : Nat := 16 * (t / 16) + 16

/-- Time is at tick `t` or later: while the timing clock comes from the system PLL the tick index moves in steps of 16 (01 R17). -/
def State.advance (s : State) (t : Nat) : State :=
  { s with tim := { s.tim with tick := max s.tim.tick (if s.tim.fromSample then t else alignUp t 16) } }

/-- The timeout that expires at tick `t` has expired, with every arrival of its cycle before it (01 R26, R27). -/
def State.expire (s : State) (t : Nat) : State := s.advance (afterCycle t)

/-- The source of the timing clock changes, at a timing-clock cycle whose tick index is a multiple of 16 (01 R17). -/
def State.clockFrom (s : State) (sample : Bool) : State :=
  { s with tim := { s.tim with tick := alignUp s.tim.tick 16, fromSample := sample } }

/-- One picosecond interval in units of 2⁻⁴⁸ ns, rounded to nearest; `d` divides the count of picoseconds (log 12). -/
def ps48 (ps : Int) (d : Nat) : Int := roundDiv (ps * (2 ^ 48 : Nat)) (1000 * d)

/-- T on one segment at tick x, given in 1/1,024 tick (16 R344): exact in 2⁻⁴⁸ ns. -/
def TimeSeg.at1024 (g : TimeSeg) (x : Int) : Int :=
  g.t + (x - 1024 * g.xa) * ((2 ^ 32 : Nat) + g.rho) * 16

/-- The segment that governs tick x, in 1/1,024 tick: the newest whose anchor is not later. -/
def segFor (cur : TimeSeg) (old : List TimeSeg) (x : Int) : TimeSeg :=
  if 1024 * (cur.xa : Int) ≤ x then cur
  else match old with
    | [] => cur
    | g :: old => segFor g old x

/-- T(x) in 2⁻⁴⁸ ns, x in 1/1,024 tick (16 R344). -/
def State.t1024 (s : State) (x : Int) : Nat := ((segFor s.tim.map s.tim.mapOld x).at1024 x).toNat

/-- T at tick x in 2⁻⁴⁸ ns. -/
def State.t48 (s : State) (x : Nat) : Nat := s.t1024 (1024 * (x : Int))

/-- The timestamp of an instant in 2⁻⁴⁸ ns: rounded half to even to 2⁻¹⁶ ns (16 R345). -/
def tsOf48 (t : Nat) : Nat := (roundEven t (2 ^ 32)).toNat

/-- The timestamp of a tick. -/
def State.tsAt (s : State) (x : Nat) : Nat := tsOf48 (s.t48 x)

/-- The current timestamp. -/
def State.now (s : State) : Nat := s.tsAt s.tim.tick

/-- The TAI second of a timestamp. -/
def tsSec (ts : Nat) : Nat := ts / 65536 / 1000000000

/-- The 96-bit layout of a timestamp (16 R345): FRAC, NS, SEC. -/
def tsLayout (ts : Nat) : Nat :=
  let ns := ts / 65536
  ts % 65536 + 2 ^ 16 * (ns % 1000000000) + 2 ^ 48 * (ns / 1000000000 % 2 ^ 48)

/-- The timestamp a 96-bit layout holds; none where NS is 10⁹ or more (16 R345). -/
def tsOfLayout (w : Nat) : Option Nat :=
  if bits w 47 16 ≥ 1000000000 then none
  else some (bits w 15 0 + 65536 * (bits w 47 16 + 1000000000 * bits w 95 48))

/-- Code of a time state (16 R348). -/
def TimeState.code : TimeState → Nat
  | .free => 0
  | .rtc => 1
  | .locking => 2
  | .locked => 3
  | .holdover => 4
  | .set => 5

/-- The AOS RTC second now (16 R348): it counts on while the main rails are on. -/
def State.rtcSec (s : State) : Nat :=
  (s.aos.rtc + (if s.tim.counting then (s.tim.tick - s.aos.rtcTick) / secTicks else 0)) % 2 ^ 48

/-- The RTC reloaded with SEC, as whenever time is set or locked (16 R348). -/
def State.reloadRtc (s : State) : State :=
  { s with aos := { s.aos with rtc := tsSec s.now, rtcTick := s.tim.tick, rtcSet := true } }

/-- A new segment from tick `x` on with rate ρ: T(x) is the value of the old one there (16 R344). -/
def State.newSeg (s : State) (x : Nat) (rho : Int) : State :=
  { s with tim := { s.tim with map := { xa := x, t := s.t48 x, rho := rho }, mapOld := s.tim.map :: s.tim.mapOld } }

/-- A step of the map at the present tick (16 R346). -/
def State.stepMap (s : State) (t : Nat) (rho : Int) : State :=
  { s with tim := { s.tim with map := { xa := s.tim.tick, t := t, rho := rho }, mapOld := s.tim.map :: s.tim.mapOld } }

/-- The module acquires: mode 2 (20 R428). -/
def State.acquiring (s : State) : Bool := s.mode == 2

end Sys2Proof.Machine
end

