-- ==== Sys2Proof/Machine/Faults.lean ====
section
/-! DEFINITION. The fault log and the outcome of targeted self-tests (22 R484 to R491). -/

namespace Sys2Proof.Machine

/-- EFLAGS[0]: the time state is LOCKED or SET (22 R488). -/
def State.timeGood (s : State) : Nat :=
  match s.tim.st with
  | .locked | .set => 1
  | _ => 0

/-- An entry with one more occurrence coalesced into it: REPEAT saturates, EFLAGS[2] is set (22 R488, R490). -/
def LogEntry.again (e : LogEntry) : LogEntry := { e with rep := satAdd 16 e.rep 1, eflags := e.eflags ||| 4 }

/-- Every log entry the module holds: in flash, in the RAM queue, in the AOS (22 R487, R490). -/
def State.logAll (s : State) : List LogEntry :=
  s.aos.log ++ (s.flash.ring.flatMap LogSector.entries) ++ s.bgw.queue

/-- The held entry with this SEQ. -/
def State.logFind (s : State) (seq : Nat) : Option LogEntry := s.logAll.find? fun e => e.seq == seq

/-- The entry with this SEQ coalesced, wherever it stands. -/
def State.logCoalesce (s : State) (seq : Nat) : State :=
  let f (l : List LogEntry) := l.map fun e => if e.seq = seq then e.again else e
  { s with
    bgw := { s.bgw with queue := f s.bgw.queue }
    aos := { s.aos with log := f s.aos.log }
    flash := { s.flash with ring := s.flash.ring.map fun g => { g with entries := f g.entries } } }

/-- The newest entry takes an occurrence with this CODE, UNIT and CLASS: it is equal in them and was created within 1 s
(22 R490). -/
def State.logJoins (s : State) (code cls unit : Nat) : Option Nat :=
  match s.bgw.newest with
  | none => none
  | some q =>
    match s.logFind q with
    | none => none
    | some e =>
      if e.code = code ∧ e.unit = unit ∧ e.cls = cls ∧ s.now ≤ e.ts + 65536000000000 then some q else none

/-- A new fault-log entry of the management core: into the RAM queue of 256, or dropped and counted (22 R490). -/
def State.logNew (s : State) (code cls unit : Nat) (data : List Byte) : State :=
  let e : LogEntry := { seq := s.aos.nextSeq, code, cls, eflags := s.timeGood, ts := s.now, boot := s.pwr.bootCount,
                        unit, rep := 0, data }
  let s := { s with aos := { s.aos with nextSeq := wrapAdd 32 s.aos.nextSeq 1 } }
  if s.bgw.queue.length ≥ 256 then
    { s with bgw := { s.bgw with
        dropped := some (match s.bgw.dropped with
          | none => (1, e.seq)
          | some (n, q) => (n + 1, q))
        int := s.bgw.int.raise 3 } }
  else { s with bgw := { s.bgw with queue := s.bgw.queue ++ [e], newest := some e.seq } }

/-- A fault is logged: coalesced into the newest entry or written as a new one (22 R488, R490). -/
def State.log (s : State) (code cls unit : Nat) (data : List Byte) : State :=
  match s.logJoins code cls unit with
  | some q => s.logCoalesce q
  | none => s.logNew code cls unit data

/-- An entry written by the AOS into its own RAM: the RTC second as TS, EFLAGS[1]; with all 22 slots full the oldest is
overwritten (22 R488, R491). -/
def State.logAos (s : State) (code cls unit : Nat) (data : List Byte) : State :=
  let e : LogEntry := { seq := s.aos.nextSeq, code, cls, eflags := s.timeGood ||| 2,
                        ts := s.rtcSec * 1000000000 * 65536, boot := s.pwr.bootCount, unit, rep := 0, data }
  let l := if s.aos.log.length ≥ 22 then s.aos.log.drop 1 else s.aos.log
  { s with aos := { s.aos with log := l ++ [e], nextSeq := wrapAdd 32 s.aos.nextSeq 1 } }

/-- A targeted test passed: the fault is transient, counted and logged (22 R484, R492). -/
def State.transient (s : State) (code unit : Nat) (data : List Byte) : State :=
  let s := { s with bgw := { s.bgw with testsTransient := satAdd 16 s.bgw.testsTransient 1, int := s.bgw.int.raise 0 } }
  s.log code 1 unit data

/-- A targeted test failed, or repeated faults escalated: the fault is lasting, FAULT_N pulses, counted and logged
(22 R484, R486, R492). -/
def State.lasting (s : State) (code unit : Nat) (data : List Byte) : State :=
  let s := { s with bgw := { s.bgw with testsLasting := satAdd 16 s.bgw.testsLasting 1, int := s.bgw.int.raise 1 } }
  (s.pulse).log code 2 unit data

/-- The main rails are on and the management core schedules background work (01 R29; 22 R478). -/
def State.coreRuns (s : State) : Bool := s.tim.counting && !s.sec.restarting

/-- A run of task t starts, `prev` after the start of the run before it, with its conditions holding since tick `held` (22 R479):
LATE_t and MAXLATE_t when the nominal interval in ticks is exceeded within that time. -/
def noteRun (s : State) (t : Nat) (prev : Option Nat) (held interval : Nat) : State :=
  match prev with
  | none => s
  | some p =>
    let e := s.tim.tick - max p held
    if e ≤ interval then s else
    { s with bgw := { s.bgw with
        tasks := modAt s.bgw.tasks t fun x => { x with
          late := satAdd 32 x.late 1, maxLate := max x.maxLate (min ((e - interval) / msTicks) (2 ^ 32 - 1)) }
        int := s.bgw.int.raise 2 } }

/-- Four transient faults within one hour, counting the one at tick `now` (22 R486): the kept times. -/
def recentFaults (old : List Nat) (now : Nat) : List Nat :=
  now :: old.filter fun t => now ≤ t + 3600 * secTicks

end Sys2Proof.Machine
end

