-- ==== Sys2Proof/Machine/Session.lean ====
section
/-! DEFINITION. The command session every host command runs in: replay window, roles, cached responses, request identifiers
(18 R396 to R401). -/

namespace Sys2Proof.Machine

/-- A response without data. -/
def plain (r : Result) : Response := { result := r, data := [] }

/-- A response with data. -/
def withData (r : Result) (d : List Byte) : Response := { result := r, data := d }

/-- The management core answers: from step 4 of start-up on, on the SPI target, and on the ports from the first configured
state or in the golden image (20 R439; 19 R415), but not while it restarts (01 R21). -/
def State.answers (s : State) : Bool :=
  !s.sec.restarting && match s.pwr.phase with
    | .rails | .pll | .mgmt | .standby => false
    | _ => true

/-- The session engine takes a datagram that came in on a port: unfragmented, to NET_IP:MGMT_UDP, with the tag accepted
(15 R325). -/
def NetRec.takesMgmt (c : NetRec) (v : Via) : Bool :=
  c.takes v.rx && !v.frag && v.dstIp == c.ip && v.dstUdp == c.mgmtUdp

/-- A management datagram arrives: a port that is up counts the frame (15 R317, R340). None where the port is down or discards it
(15 R325). -/
def State.arrives (s : State) (v : Via) : Option State :=
  match portOf v.tr with
  | none => some s
  | some p => if (s.net.port p).up && s.conf.net.takesMgmt v then some (s.received p v.rx) else none

/-- A management datagram the session engine does not see: discarded and counted by a port that is up (15 R325). -/
def State.turnedAway (s : State) (v : Via) : State :=
  match portOf v.tr with
  | none => s
  | some p => if (s.net.port p).up then s.discard p v.rx else s

/-- The session with its responses sent where the datagram they answer came from (18 R391). -/
def Session.from (x : Session) (v : Via) : Session := { x with transport := v.tr, src := v.src }

/-- The open session with this SID. -/
def State.session (s : State) (sid : Nat) : Option Session :=
  s.sec.sess.find? fun x => x.isOpen && x.sid == sid

/-- The session with this SID changed by `f`. -/
def State.modSession (s : State) (sid : Nat) (f : Session → Session) : State :=
  { s with sec := { s.sec with sess := s.sec.sess.map fun x => if x.sid = sid then f x else x } }

/-- A management datagram sent on its transport (18 R391): into the SPI response queue, or to the port it came in on
(15 R325, R338). -/
def State.sendMgmt (s : State) (m : MgmtSend) : State :=
  match m.transport with
  | .spi => { s with sec := { s.sec with spiTx := s.sec.spiTx ++ [m] } }
  | .udpA => { s with net := { s.net with portA := { s.net.portA with msgs := s.net.portA.msgs ++ [.mgmt m] } } }
  | .udpB => { s with net := { s.net with portB := { s.net.portB with msgs := s.net.portB.msgs ++ [.mgmt m] } } }

/-- A response of the session sent with the SEQ of its command, under the session's key (18 R396). -/
def State.respond (s : State) (x : Session) (seq : Nat) (r : Response) : State :=
  s.sendMgmt { transport := x.transport, dst := x.src, msg := .response x.sid seq x.kM2h r }

/-- What the replay window says of a SEQ (18 R397). -/
inductive Replay where
  | zero
  | run
  | seen (c : Cached)
  | stale
  deriving DecidableEq, Repr

/-- The handling of a SEQ (18 R397). -/
def Session.replay (x : Session) (seq : Nat) : Replay :=
  if seq = 0 then .zero
  else if x.hMax < seq then .run
  else if seq + 63 < x.hMax then .stale
  else match x.window.find? fun c => c.seq == seq with
    | some c => .seen c
    | none => .run

/-- SEQ accepted: H rises to it, and entries below H − 63 leave the cache (18 R397). -/
def Session.accept (x : Session) (seq tick : Nat) : Session :=
  let h := max x.hMax seq
  { x with hMax := h, lastCmd := tick,
           window := { seq := seq, resp := none, copies := 0 } :: x.window.filter fun c => h ≤ c.seq + 63 }

/-- The response of SEQ kept for its copies (18 R397). -/
def Session.keep (x : Session) (seq : Nat) (r : Response) : Session :=
  { x with window := x.window.map fun c => if c.seq = seq then { c with resp := some r, copies := 0 } else c }

/-- The response of a command: kept, then sent once, and once more for each copy that arrived while it executed (18 R397). -/
def State.answer (s : State) (sid seq : Nat) (r : Response) : State :=
  match s.session sid with
  | none => s
  | some x =>
    let copies := ((x.window.find? fun c => c.seq == seq).map Cached.copies).getD 0
    let s := s.modSession sid fun x => x.keep seq r
    (List.range (copies + 1)).foldl (fun s _ => s.respond x seq r) s

/-- A duplicate of a command in the window: its cached response is sent again, or it waits for it (18 R397; SEC_DUP). -/
def State.duplicate (s : State) (x : Session) (c : Cached) : State :=
  match c.resp with
  | some r =>
    let s := { s with sec := { s.sec with dup := satAdd 16 s.sec.dup 1 } }
    s.respond x c.seq r
  | none => s.modSession x.sid fun x =>
      { x with window := x.window.map fun d => if d.seq = c.seq then { d with copies := d.copies + 1 } else d }

/-- Commands accepted in lifecycle state SCRAPPED: READ, ATTEST, CERT_READ and CLOSE (18 R400). -/
def scrappedAllows (code : Nat) : Bool := code == 0x0001 || code == 0x0050 || code == 0x0051 || code == 0x007F

/-- A command with a verified tag in an open session (18 R391, R396, R397, R400): replay handling, role and lifecycle, then `f`, whose
response is kept and sent where the datagram came from; `f` answers none where the response comes later. What `f` answers last happens
once the response has been sent. -/
def State.commandThen (s : State) (h : Hdr) (code role : Nat)
    (f : State → Session → State × Option Response × (State → State)) : State :=
  match s.session h.sid with
  | none => s
  | some x =>
  match s.arrives h.via with
  | none => s.turnedAway h.via
  | some s =>
    if !s.answers then s else
    let s := s.modSession h.sid fun x => { x.from h.via with lastCmd := s.tim.tick }
    let x := x.from h.via
    match x.replay h.seq with
    | .zero => s.respond x h.seq (plain .invalid)
    | .stale =>
      let s := { s with sec := { s.sec with stale := satAdd 16 s.sec.stale 1 } }
      s.respond x h.seq (plain .stale)
    | .seen c => s.duplicate x c
    | .run =>
      let s := s.modSession h.sid fun x => x.accept h.seq s.tim.tick
      let s := { s with sec := { s.sec with cmds := wrapAdd 32 s.sec.cmds 1 } }
      if x.role < role ∨ (s.fuses.lifecycle = 3 ∧ scrappedAllows code = false) then s.answer h.sid h.seq (plain .denied)
      else match s.session h.sid with
        | none => s
        | some y =>
          let (t, r, g) := f s y
          match r with
          | some r => g (t.answer h.sid h.seq r)
          | none => g t

/-- A command after whose response nothing follows. -/
def State.command (s : State) (h : Hdr) (code role : Nat) (f : State → Session → State × Option Response) : State :=
  s.commandThen h code role fun s x => ((f s x).1, (f s x).2, id)

/-- A command whose response is ready at once. -/
def State.command1 (s : State) (h : Hdr) (code role : Nat) (f : State → Session → State × Response) : State :=
  s.command h code role fun s x => ((f s x).1, some (f s x).2)

/-- A session closed (18 R399): its keys, cache, latches and open group go with it. -/
def State.closeSession (s : State) (sid : Nat) : State :=
  { s with sec := { s.sec with
      sess := s.sec.sess.filter fun x => x.sid != sid
      int := s.sec.int.raiseIf (s.sec.sess.any fun x => x.isOpen && x.sid == sid) 1 } }

/-- Every session closed. -/
def State.closeAll (s : State) : State :=
  { s with sec := { s.sec with
      sess := []
      int := s.sec.int.raiseIf (s.sec.sess.any Session.isOpen) 1 } }

/-! ### Request identifiers (18 R401) -/

/-- A fresh REQ_ID in state pending; the latest 256 are kept. -/
def State.newReq (s : State) : Nat × State :=
  (s.sec.nextReq, { s with sec := { s.sec with
      nextReq := s.sec.nextReq + 1
      reqs := ({ id := s.sec.nextReq, state := .pending, index := 0 } :: s.sec.reqs).take 256 } })

/-- A request's status set. -/
def State.setReq (s : State) (id : Nat) (st : ReqState) (index : Nat) : State :=
  { s with sec := { s.sec with
      reqs := s.sec.reqs.map fun q => if q.id = id then { q with state := st, index := index } else q } }

/-- Code of a request state (18 R401). -/
def ReqState.code : ReqState → Nat
  | .pending => 0
  | .applied => 1
  | .superseded => 2
  | .refused => 3

/-- REQ_ID and a boundary index as AMEND and its like answer them (18 R400): uint32, uint64. -/
def reqData (req index : Nat) : List Byte := leBytes 4 req ++ leBytes 8 index

end Sys2Proof.Machine
end

