-- ==== Sys2Proof/Machine/Receiver.lean ====
section
/-! DEFINITION. The receiver front end: gain words, range changes, LO power (03 R66 to R80, R88). The receiver floor and the
fibre-end detector are in Machine/FibreEnd.lean. -/

namespace Sys2Proof.Machine

/-! ### The normalised sample (03 R70) -/

/-- Gain word of a range and lane (03 R70, R88). -/
def State.gain (s : State) (range lane : Nat) : Nat := nth s.fact.gains (4 * range + lane) 0

/-- The normalised sample: round_half_even(x·g/256), 0 when erased (03 R70, R72). -/
def normSample (g : Nat) (x : Int) (erased : Bool) : Int := if erased then 0 else roundEven (x * g) 256

/-- A code is clipped (03 R73). -/
def clipped (x : Int) : Bool := x == -128 || x == 127

/-- The range in force at tick t of the ranges set, newest first (03 R70, R71). -/
def rangeAt (l : List RangeSeg) (t : Int) : Nat := ((l.find? fun g => decide ((g.tick : Int) ≤ t)).map RangeSeg.range).getD 3

/-- Some tick from `a` up to `b` is one of the 16 from a switch tick on (03 R72). -/
def erasedIn (l : List RangeSeg) (a b : Int) : Bool := l.any fun g => g.erase && decide ((g.tick : Int) < b ∧ a < (g.tick : Int) + 16)

/-- The normalised sample of a lane at tick t from its code (03 R70, R72; 04 R102): 0 from the loss of its polarisation on. -/
def State.normAt (s : State) (lane : Nat) (t x : Int) : Int :=
  let lost := if lane < 2 then s.adc.polXLost && decide ((s.adc.polXFrom : Int) ≤ t)
    else s.adc.polYLost && decide ((s.adc.polYFrom : Int) ≤ t)
  if lost then 0 else normSample (s.gain (rangeAt s.rxf.segs t) lane) x (erasedIn s.rxf.segs t (t + 1))

/-- Range r is in force from tick t on (03 R71, R81). -/
def Rxf.setRange (x : Rxf) (t r : Nat) (erase : Bool) : Rxf :=
  { x with range := r, segs := { tick := t, range := r, erase := erase } :: x.segs }

/-- In fixed mode FIXED_RANGE is in force at tick t (03 R76). -/
def Rxf.fixedIn (x : Rxf) (c : ReceiverRec) (t : Nat) : Rxf :=
  if c.mode = 1 ∨ x.range = c.fixedRange then x else x.setRange t c.fixedRange false

/-- The counts of the fibre-end detector start again when it resumes (03 R87). -/
def Rxf.suspend (x : Rxf) : Rxf := { x with breakRun := [], restoreRun := 0 }

/-! ### Range changes (03 R71 to R77) -/

/-- Auto mode is in force (03 R88). -/
def State.autoRange (s : State) : Bool := s.conf.receiver.mode == 1

/-- Auto-ranging is frozen while launches are not in progress (03 R76). -/
def State.rangeFrozen (s : State) : Bool := !s.prb.launching

/-- The range a frame end asks for, the first row that applies (03 R74). -/
def frameRequest (range peak clips lowRun : Nat) : Option Nat :=
  if clips ≠ 0 ∧ range < 3 then some 3
  else if 118 ≤ peak ∧ range < 3 then some (range + 1)
  else if 16 ≤ lowRun ∧ 0 < range then some (range - 1)
  else none

/-- The end of a 256-tick frame with its peak and its number of clipped codes (03 R74, R75, R88): clips are counted in any mode;
in auto mode, unless frozen, the frame is judged, and a request not blocked by the 4,096-tick spacing, nor by a switch that
waits, sets the switch tick 32 ticks after the frame end. A frame that ends while auto-ranging is frozen or in fixed mode does not
count among the last 16: it starts their run again (DESIGN CHOICE, log 75). -/
def frameEnd (s : State) (peak clips : Nat) : State :=
  if ¬ s.adc.running then s else
  let k := max (s.rxf.frame + 1) (ceilDiv s.tim.tick 256)
  let fe := 256 * k
  let judging := s.autoRange && !s.rangeFrozen
  let low := if !judging then 0 else if peak ≤ 52 then min 16 (s.rxf.lowRun + 1) else 0
  let ts := fe + 32
  let free := s.rxf.pendSwitch.isNone && (!s.rxf.switched || decide (s.rxf.switchTick + 4096 ≤ ts))
  let want := if judging && free then frameRequest s.rxf.range peak clips low else none
  { s with
    tim := (s.advance fe).tim
    rxf := { s.rxf with
      frame := k, lowRun := low, clips := satAdd 32 s.rxf.clips clips
      pendSwitch := match want with
        | some r => some (ts, r, true)
        | none => s.rxf.pendSwitch
      int := s.rxf.int.raiseIf (clips != 0) 1 } }

/-- The switch that waits takes place at its switch tick (03 R71): new range, counted, recorded. -/
def rangeSwitch (s : State) : State :=
  match s.rxf.pendSwitch with
  | none => s
  | some (t, r, _) =>
    { s with
      tim := (s.advance t).tim
      rxf := { s.rxf.setRange t r true with
        switchTick := t, switched := true, pendSwitch := none
        switches := satAdd 16 s.rxf.switches 1, int := s.rxf.int.raise 0 } }

/-- The range R76 calls for when launches begin or resume. -/
def startRange (c : ReceiverRec) : Nat := if c.mode = 1 then c.startRange else c.fixedRange

/-- Launches begin or resume with the launch at tick `t` (03 R76): a range other than the one in force is switched to at the first
multiple of 8 at or after it. -/
def rxfLaunchBegin (s : State) (t : Nat) : State :=
  let r := startRange s.conf.receiver
  if r = s.rxf.range then { s with rxf := { s.rxf with pendSwitch := none } }
  else { s with rxf := { s.rxf with pendSwitch := some (alignUp t 8, r, false) } }

/-- The first tick at or after `t` that is a multiple of 8 and at least 4,096 ticks after the previous switch (03 R77). -/
def amendSwitchTick (x : Rxf) (t : Nat) : Nat :=
  if x.switched then alignUp (max t (x.switchTick + 4096)) 8 else alignUp t 8

/-- The switch that waits once the settings `c` are in force from the boundary at tick `t` on (03 R76, R77): in fixed mode the one to
FIXED_RANGE, or none where that range is in force, for automatic requests are dropped; auto mode keeps the range, and a request made
in auto mode stands. -/
def boundarySwitch (x : Rxf) (c : ReceiverRec) (t : Nat) : Option (Nat × Nat × Bool) :=
  if c.mode = 1 then x.pendSwitch.filter fun w => w.2.2
  else if c.fixedRange = x.range then none
  else some (amendSwitchTick x t, c.fixedRange, false)

/-- The RECEIVER amendments take effect at the boundary at tick `t` (03 R77). -/
def rxfBoundary (s : State) (t : Nat) : State :=
  match s.rxf.pend.getLast? with
  | none => s
  | some last =>
    let reqs := s.rxf.pend.map PendRx.req
    let s := { s with
      conf := { s.conf with receiver := last.cfg }
      cfg := { s.cfg with amends := satAdd 16 s.cfg.amends reqs.length }
      rxf := { s.rxf with
        pend := [], pendSwitch := boundarySwitch s.rxf last.cfg t } }
    reqs.foldl (fun s q => s.setReq q .applied s.prb.nextR) s

/-! ### LO power (03 R79, R80) -/

/-- A status bit with set and clear conditions, each after 10 consecutive updates: the bit, the run, and whether it was set now
(03 R80). -/
def loStep (now : Bool) (run : Nat) (setC clrC : Bool) : Bool × Nat × Bool :=
  let r := if (if now then clrC else setC) then run + 1 else 0
  if 10 ≤ r then (!now, 0, !now) else (now, r, false)

/-- The LO status bits judged for an update (03 R80); while LO_LOST is set the fibre-end detector is suspended (03 R87). -/
def loJudge (x : Rxf) (loMin v : Int) : Rxf :=
  let (low, lowRun, i2) := loStep x.loLow x.loLowRun (decide (v < loMin)) (decide (loMin + 50 ≤ v))
  let (high, highRun, i3) := loStep x.loHigh x.loHighRun (decide (1350 < v)) (decide (v ≤ 1300))
  let (lost, lostRun, i4) := loStep x.loLost x.loLostRun (decide (v < -1000)) (decide (-950 ≤ v))
  { (if lost then x.suspend else x) with
    loPwr := v, loLow := low, loLowRun := lowRun, loHigh := high, loHighRun := highRun, loLost := lost, loLostRun := lostRun,
    int := ((x.int.raiseIf i2 2).raiseIf i3 3).raiseIf i4 4 }

/-- Housekeeping scanning starts (03 R79; 20 R440 step 6): the first update is that of the first millisecond of the tick index that
begins at or after it. -/
def loScanStart (s : State) : State :=
  match s.rxf.loFrom with
  | some _ => s
  | none => { s with rxf := { s.rxf with loFrom := some s.tim.tick, loMs := ceilDiv s.tim.tick msTicks } }

/-- A reading of the LO channel (03 R79): it counts in the millisecond it is converted in, unless that is before the first one
reported. -/
def loReading (s : State) (code : Nat) : State :=
  if s.rxf.loFrom.isNone ∨ s.tim.tick < msTicks * s.rxf.loMs then s
  else { s with rxf := { s.rxf with loSum := s.rxf.loSum + code, loCount := s.rxf.loCount + 1 } }

/-- The millisecond of the tick index that is next to be reported ends (03 R79): the LO power is the converted mean of its readings;
one without a reading repeats the previous value. -/
def loUpdate (s : State) : State :=
  match s.rxf.loFrom with
  | none => s
  | some _ =>
    let n := s.rxf.loCount
    let v := if n = 0 then s.rxf.loPwr else clampInt (-32767) 32767 (Config.loPower s.rxf.loSum n)
    let x := { s.rxf with loSum := 0, loCount := 0, loMs := s.rxf.loMs + 1 }
    { s with
      tim := (s.advance (msTicks * (s.rxf.loMs + 1))).tim
      rxf := if n = 0 ∧ x.loPwr = -32768 then x else loJudge x s.conf.receiver.loMin v }

/-- The block reset of the receiver (20 R445): counters cleared, floors and END_REF invalid. -/
def rxfReset (s : State) : State :=
  { s with rxf := { s.rxf with
      switches := 0, clips := 0, floorValid := false, endValid := false, floors := [0, 0, 0, 0], endRef := 0 } }

/-! ### Meanings -/

/-- A 256-tick frame ends (03 R74). -/
def execRangeFrameEnd (peak clips : Nat) (s : State) : Host.Outcome State Fault Refusal := s.done (frameEnd s peak clips)

/-- The switch tick of a range switch (03 R71). -/
def execRangeSwitch (s : State) : Host.Outcome State Fault Refusal := s.done (rangeSwitch s)

/-- A millisecond of LO readings ends (03 R79). -/
def execLoPowerUpdate (s : State) : Host.Outcome State Fault Refusal := s.done (loUpdate s)

end Sys2Proof.Machine
end

