-- ==== Sys2Proof/Machine/Converters.lean ====
section
/-! DEFINITION. The main converters: rotation, calibration, self-test, live monitor, lost lanes (04 R89 to R105). -/

namespace Sys2Proof.Machine

/-- A lane holds a retired slice (04 R101). -/
def Lane.retired (l : Lane) : Nat := (l.slices.filter fun x => x.state == .retired).length

/-- The number of the out slice (04 R92). -/
def Lane.out (l : Lane) : Option Nat := l.slices.findIdx? fun x => x.state == .out

/-- Slice i of a lane changed. -/
def Lane.modSlice (l : Lane) (i : Nat) (f : Slice → Slice) : Lane := { l with slices := modAt l.slices i f }

/-- The lane ℓ changed. -/
def State.modLane (s : State) (n : Nat) (f : Lane → Lane) : State :=
  { s with adc := { s.adc with lanes := modAt s.adc.lanes n f } }

/-- Lane ℓ. -/
def State.lane (s : State) (n : Nat) : Lane := nth s.adc.lanes n {}

/-- Factory trims of a slice (04 R95). -/
def State.factoryTrim (s : State) (lane slice : Nat) : Int × Int × List Nat :=
  nth s.fact.trims (9 * lane + slice) (0, 0, List.replicate 8 0)

/-- A slice with given trims in force. -/
def Slice.withTrim (x : Slice) (t : Int × Int × List Nat) : Slice := { x with off := t.1, gain := t.2.1, taps := t.2.2, next := none }

/-- The arrangement of R93 for the slices of a lane: without a retired slice, 0–7 serve phases 0–7 and 8 is out; with one or more,
the remaining ones serve phases 0 … in increasing slice number and none is out. -/
def arrange (l : List Slice) (retired : List Nat) : List Slice :=
  let serving := (List.range 9).filter fun i => !retired.contains i
  l.mapIdx fun i x =>
    let x := { x with suspect := false, suspRun := 0, testing := none }
    if retired.contains i then { x with state := .retired, phase := none }
    else if retired = [] ∧ i = 8 then { x with state := .out, phase := none }
    else { x with state := .serving, phase := serving.findIdx? fun j => j == i }

/-- The retired slices of a lane, as the AOS keeps them (22 R487). -/
def retiredOf (aos : Aos) (lane : Nat) : List Nat :=
  (aos.slices.filter fun k => k / 9 == lane).map fun k => k % 9

/-- A lane arranged under R93 from the retirements kept; a lane with two retired slices is lost. -/
def laneStart (aos : Aos) (n : Nat) (l : Lane) : Lane :=
  let r := retiredOf aos n
  { l with slices := arrange l.slices r, lastOut := 8, lost := decide (2 ≤ r.length), losing := none }

/-- The polarisations lost by the lost lanes (04 R102): XI or XQ loses X, YI or YQ loses Y. -/
def polLost (l : List Lane) (k : Nat) : Bool := ((l.drop (2 * k)).take 2).any Lane.lost

/-- ADC registers after a reset: factory trims, the arrangement of R93, the losses kept (04 R93, R105). -/
def adcFresh (fact : Fact) (aos : Aos) (hold : Bool) : Adc :=
  let lanes := (List.range 4).map fun n =>
    let sl := (List.range 9).map fun i => Slice.withTrim {} (nth fact.trims (9 * n + i) (0, 0, List.replicate 8 0))
    laneStart aos n { slices := sl }
  { lanes := lanes, polXLost := polLost lanes 0, polYLost := polLost lanes 1, polHold := hold }

/-- Acquisition start: converters powered, slices arranged under R93; a lane with two retired slices starts lost, with its polarisation,
a pulse on FAULT_N and the interrupt (04 R93, R99, R102); references of a polarisation not lost before are cleared (10 R230). Training
starts and the floors are measured in any case. -/
def adcAcqStart (s : State) : State :=
  let lanes := s.adc.lanes.mapIdx fun n l => laneStart s.aos n l
  let x := polLost lanes 0
  let y := polLost lanes 1
  let s := if x || y then s.pulse else s
  let fresh := (x && !s.adc.polXLost) || (y && !s.adc.polYLost)
  { s with
    qss := { s.qss with clearAsked := s.qss.clearAsked || fresh }
    adc := { s.adc with
      running := true, initDone := false, rotCount := 0, lanes := lanes, polXLost := x, polYLost := y
      polXFrom := s.tim.tick, polYFrom := s.tim.tick, int := s.adc.int.raiseIf (x || y) 5
      polHold := s.adc.polHold || (x && y)
      lastRot := s.tim.tick / 2 ^ 24 * 2 ^ 24, lastWin := s.tim.tick / 2 ^ 20 * 2 ^ 20 } }

/-! ### Calibration (04 R95 to R97, R99) -/

/-- The limits of R95 that depend on the calibration: changes of offset, gain and tap. -/
structure CalLimits where
  off : Int
  gain : Int
  tap : Int
  deriving DecidableEq, Repr

/-- Limits of a rotation calibration (04 R95). -/
def rotationLimits : CalLimits := { off := 4, gain := 10, tap := 2 }

/-- Limits of an initial calibration, from the factory values (04 R95). -/
def initialLimits : CalLimits := { off := 16, gain := 40, tap := 8 }

/-- |a| ≤ b. -/
def within (a b : Int) : Bool := decide (-b ≤ a ∧ a ≤ b)

/-- The tap whose measured delay is nearest to the aim, of two as near the lower one (04 R91; log 75). -/
def nearestTap (l : List Int) (aim : Int) : Nat :=
  let d (i : Nat) : Nat := (nth l i 0 - aim).natAbs
  (List.range (min 32 l.length)).foldl (fun m i => if d i < d m then i else m) 0

/-- The taps a calibration of a slice of a lane with LANE_DELAY `aim` chooses, one per phase (04 R91, R98), from the first of its two
measurements (DESIGN CHOICE, log 75). -/
def calTaps (m : CalMeas) (aim : Int) : List Nat := m.skew1.map fun l => nearestTap l aim

/-- The residual skew per phase after the tap choice, in 0.1 ps (04 R95). -/
def calResid (m : CalMeas) (aim : Int) : List Nat := m.skew1.map fun l => (nth l (nearestTap l aim) 0 - aim).natAbs

/-- How far the two measurements of the skew lie apart per phase at the tap chosen, in 0.1 ps (04 R95). -/
def calAgree (m : CalMeas) (aim : Int) : List Nat :=
  List.zipWith (fun a b => (nth b (nearestTap a aim) 0 - nth a (nearestTap a aim) 0).natAbs) m.skew1 m.skew2

/-- LANE_DELAY of a lane in 0.1 ps (04 R98). -/
def State.laneDelay (s : State) (lane : Nat) : Int := nth s.fact.laneDelay lane 0

/-- The largest absolute difference of two lists of taps. -/
def maxDiff (a b : List Nat) : Int :=
  (List.zip a b).foldl (fun m p => max m (max ((p.1 : Int) - p.2) ((p.2 : Int) - p.1))) 0

/-- The largest value of a list. -/
def maxNat (l : List Nat) : Nat := l.foldl max 0

/-- The first check of R95 that fails, by its row 1–9, with the value measured; `old` is the value the change is judged against. Of
offset and gain the first measurement is held to the absolute and change limits, and loaded (DESIGN CHOICE, log 75). -/
def calCheck (lim : CalLimits) (old : Int × Int × List Nat) (m : CalMeas) (aim : Int) : Option (Nat × Int) :=
  let checks : List (Bool × Int) := [
    (within m.off1 32, m.off1),
    (within (m.off1 - old.1) lim.off, m.off1 - old.1),
    (within (m.off2 - m.off1) 1, m.off2 - m.off1),
    (within m.gain1 60, m.gain1),
    (within (m.gain1 - old.2.1) lim.gain, m.gain1 - old.2.1),
    (within (m.gain2 - m.gain1) 2, m.gain2 - m.gain1),
    (decide (maxDiff (calTaps m aim) old.2.2 ≤ lim.tap), maxDiff (calTaps m aim) old.2.2),
    (decide (maxNat (calResid m aim) ≤ 6), maxNat (calResid m aim)),
    (decide (maxNat (calAgree m aim) ≤ 3), maxNat (calAgree m aim))]
  (checks.zipIdx.find? fun c => !c.1.1).map fun c => (c.2 + 1, c.1.2)

/-- DATA of a slice entry: failing check, measured value (22 R489; log 13). -/
def sliceData (t : Nat × Int) : List Byte := leBytes 4 t.1 ++ leBytes 4 (ofInt 32 t.2)

/-- The commit point of the out slice of a lane (04 R95, R97): new trims are loaded for its next service, or all are discarded,
counted, and the self-test begins. ADC_CALS counts the calibrations that pass (DESIGN CHOICE, log 75). -/
def calCommit (s : State) (n : Nat) (m : CalMeas) : State :=
  if ¬ (s.adc.running ∧ s.adc.initDone) then s else
  let l := s.lane n
  match l.out with
  | none => s
  | some i =>
    let x := nth l.slices i {}
    match calCheck rotationLimits (x.off, x.gain, x.taps) m (s.laneDelay n) with
    | none => s.modLane n fun l =>
        { (l.modSlice i fun x => { x with next := some (m.off1, m.gain1, calTaps m (s.laneDelay n)), rejRun := 0 }) with
          cals := satAdd 16 l.cals 1 }
    | some f =>
      let s := s.modLane n fun l =>
        { (l.modSlice i fun x => { x with rejRun := x.rejRun + 1, testing := some f }) with
          rejects := satAdd 16 l.rejects 1 }
      { s with adc := { s.adc with int := s.adc.int.raise 1 } }

/-- Initial calibration of slice i of lane n with its measurement (04 R99): the new trims, or the factory trims and the self-test
of R97. A retired slice is not calibrated. -/
def initialCal (s : State) (n i : Nat) (m : CalMeas) : State :=
  if (nth (s.lane n).slices i {}).state = .retired then s else
  match calCheck initialLimits (s.factoryTrim n i) m (s.laneDelay n) with
  | none => s.modLane n fun l =>
      { (l.modSlice i fun x => { x.withTrim (m.off1, m.gain1, calTaps m (s.laneDelay n)) with rejRun := 0 }) with cals := satAdd 16 l.cals 1 }
  | some f =>
    let s := s.modLane n fun l =>
      { (l.modSlice i fun x => { x.withTrim (s.factoryTrim n i) with rejRun := x.rejRun + 1, testing := some f }) with
        rejects := satAdd 16 l.rejects 1 }
    { s with adc := { s.adc with int := s.adc.int.raise 1 } }

/-- The initial calibration of every slice ends (04 R99); measurement 9·lane + slice. -/
def initialCalDone (s : State) (meas : List CalMeas) : State :=
  if ¬ s.adc.running ∨ s.adc.initDone then s else
  let s := meas.zipIdx.foldl (fun s e => initialCal s (e.2 / 9) (e.2 % 9) e.1) s
  { s with adc := { s.adc with initDone := true, int := s.adc.int.raise 0 } }

/-! ### Retirement and lost lanes (04 R97, R101, R102) -/

/-- A lane is lost: its polarisation goes at the next rotation boundary (04 R101, R102). `t` is the tick at which the first suspect
window began. -/
def loseLane (s : State) (n t : Nat) : State :=
  let s := s.modLane n fun l => { l with lost := true, losing := some t }
  ({ s with adc := { s.adc with int := s.adc.int.raise 4 } } : State).log 0x0302 2 n (leBytes 8 t)

/-- A slice is retired (04 R97, R101): kept in the AOS; the out slice takes the phase a retired serving slice leaves (log 17);
FAULT_N pulses; the second retirement of a lane loses it. -/
def retireSlice (s : State) (n i : Nat) (f : Nat × Int) (t : Nat) : State :=
  let l := s.lane n
  let x := nth l.slices i {}
  let second := decide (1 ≤ l.retired)
  let s := s.modLane n fun l =>
    let l := match x.phase, l.out with
      | some p, some o => l.modSlice o fun y => { y with state := .serving, phase := some p }
      | _, _ => l
    l.modSlice i fun y => { y with state := .retired, phase := none, suspect := false, testing := none, next := none, rejRun := 0 }
  let s := { s with
    aos := { s.aos with slices := addOnce s.aos.slices (9 * n + i) }
    adc := { s.adc with int := s.adc.int.raise 3 } }
  let s := s.lasting 0x0301 (9 * n + i) (sliceData f)
  if second then loseLane s n t else s

/-- The slice self-test ends (04 R97): every code within ±1 passes; a failure, or a third rejection in a row, retires the slice. A lane
so lost has no suspect window: the tick of its log entry is the present one (DESIGN CHOICE, log 75). -/
def sliceTestEnd (s : State) (n i : Nat) (devs : SelfTestCodes) : State :=
  let x := nth (s.lane n).slices i {}
  match x.testing with
  | none => s
  | some f =>
    if (devs.all fun d => within d 1) && decide (x.rejRun < 3) then
      (s.modLane n fun l => l.modSlice i fun y => { y with testing := none }).transient 0x0301 (9 * n + i) (sliceData f)
    else retireSlice s n i f s.tim.tick

/-! ### Rotation (04 R92 to R94) -/

/-- The slice that goes out at the boundary `b` (04 R92, R100): the lowest-numbered slice suspect since a window that ended
before it, else the one after the slice that went out last. -/
def outgoing (l : Lane) (b : Nat) : Nat :=
  match l.slices.findIdx? fun x => x.suspect && x.state == .serving && decide (x.suspFrom + 2 ^ 20 < b) with
  | some i => i
  | none => (l.lastOut + 1) % 9

/-- New trims come into effect when a slice next serves (04 R96). -/
def Slice.load (x : Slice) : Slice :=
  match x.next with
  | some t => x.withTrim t
  | none => x

/-- A rotation step of a lane with an out slice and no retired one (04 R92). -/
def Lane.rotate (l : Lane) (b : Nat) : Lane :=
  match l.out with
  | none => l
  | some o =>
    if l.retired ≠ 0 then l else
    let g := outgoing l b
    let p := (nth l.slices g {}).phase
    let l := l.modSlice o fun x => { x.load with state := .serving, phase := p }
    let l := l.modSlice g fun x => { x with state := .out, phase := none, suspect := false, suspRun := 0 }
    { l with lastOut := g }

/-- A polarisation is lost from the rotation boundary `b` on (04 R102): training restarts in every block at the next
trace-period boundary, floors are halved, FAULT_N pulses; with both lost FAULT_N is held. -/
def losePol (s : State) (k b : Nat) : State :=
  if (if k = 0 then s.adc.polXLost else s.adc.polYLost) then s else
  let s := { s with
    adc := { s.adc with
      polXLost := s.adc.polXLost || k == 0, polYLost := s.adc.polYLost || k == 1
      polXFrom := if k = 0 then b else s.adc.polXFrom, polYFrom := if k = 1 then b else s.adc.polYFrom, int := s.adc.int.raise 5 }
    rxf := { s.rxf with floors := s.rxf.floors.map fun (f : Nat) => (roundDiv f 2).toNat } }
  let s := s.pulse
  let s := { s with adc := { s.adc with polHold := s.adc.polHold || (s.adc.polXLost && s.adc.polYLost) } }
  let s := s.askRestart none true b
  let s := { s with qss := { s.qss with clearAsked := true } }
  s.log 0x0303 2 k (leBytes 8 b)

/-- A rotation boundary (04 R92, R102): every lane makes its step; lost lanes take effect. -/
def rotation (s : State) : State :=
  if ¬ s.adc.running then s else
  let b := max (alignUp s.tim.tick (2 ^ 24)) (s.adc.lastRot + 2 ^ 24)
  let losing (k : Nat) : Bool := ((s.adc.lanes.drop (2 * k)).take 2).any fun l => l.losing.isSome
  let x := losing 0
  let y := losing 1
  let s := { s with
    tim := (s.advance b).tim
    adc := { s.adc with
      lastRot := b, rotCount := wrapAdd 32 s.adc.rotCount 1
      lanes := s.adc.lanes.map fun l => if s.adc.initDone then { l.rotate b with losing := none } else l } }
  let s := if x then losePol s 0 b else s
  if y then losePol s 1 b else s

/-! ### Live monitor (04 R100, R101) -/

/-- Sum over the other seven phases. -/
def others (l : List Int) (p : Nat) : Int := l.sum - nth l p 0

/-- Phase p of a lane meets a condition of R100: mean off by more than 2 LSB, mean square by more than 10 %, or a bit that stays
constant while it changes in every other phase. -/
def suspectPhase (l : List PhaseStat) (p : Nat) : Bool :=
  let sums := l.map PhaseStat.sum
  let sqs := l.map fun x => (x.sumSq : Int)
  let dm := 7 * nth sums p 0 - others sums p
  let dq := 7 * nth sqs p 0 - others sqs p
  let varies (x : PhaseStat) : BitVec 8 := x.orBits &&& ~~~x.andBits
  let rest := (l.zipIdx.filter fun e => e.2 != p).map fun e => varies e.1
  let mine := (l[p]?.map varies).getD 0
  !within dm (2 * 7 * 131072) || decide (others sqs p < 10 * dq ∨ others sqs p < -(10 * dq)) ||
    (rest.foldl (fun a b => a &&& b) (~~~mine)) != 0

/-- The slices of lane n judged at the end `w` of a window (04 R100, R101). The entry of a slice retired here names no check of R95: its
check and value are 0 (DESIGN CHOICE, log 75). -/
def judgeLane (s : State) (n w : Nat) (stats : List PhaseStat) : State :=
  (List.range 9).foldl (fun s i =>
    let x := nth (s.lane n).slices i {}
    match x.state, x.phase with
    | .serving, some p =>
      if suspectPhase stats p then
        let run := x.suspRun + 1
        let first := !x.suspect
        let from' := if first then w - 2 ^ 20 else x.suspFrom
        let s := s.modLane n fun l =>
          { (l.modSlice i fun y => { y with suspect := true, suspRun := run, suspFrom := from' }) with
            suspects := satAdd 16 l.suspects 1 }
        let s := { s with adc := { s.adc with int := s.adc.int.raiseIf first 2 } }
        if (s.lane n).retired ≠ 0 ∧ 4 ≤ run then retireSlice s n i (0, 0) from' else s
      else s.modLane n fun l => l.modSlice i fun y => { y with suspRun := 0 }
    | _, _ => s) s

/-- A monitor window ends (04 R100); statistic 8·lane + phase. -/
def monitorEnd (s : State) (stats : List PhaseStat) : State :=
  if ¬ s.adc.running ∨ ¬ s.acquiring then s else
  let w := max (alignUp s.tim.tick (2 ^ 20)) (s.adc.lastWin + 2 ^ 20)
  let s := { s with tim := (s.advance w).tim, adc := { s.adc with lastWin := w } }
  (List.range 4).foldl (fun s n => judgeLane s n w ((stats.drop (8 * n)).take 8)) s

/-- The block reset of the converters (20 R445): trims return to factory values, counters are cleared. -/
def adcReset (s : State) : State :=
  { s with adc := { s.adc with
      rotCount := 0
      lanes := s.adc.lanes.mapIdx fun n l => { l with
        cals := 0, rejects := 0, suspects := 0
        slices := l.slices.mapIdx fun i x => x.withTrim (s.factoryTrim n i) } } }

/-! ### Meanings -/

/-- The initial calibration ends (04 R99). -/
def execInitialCalDone (meas : List CalMeas) (s : State) : Host.Outcome State Fault Refusal :=
  s.done (initialCalDone s meas)

/-- A rotation boundary (04 R92). -/
def execRotationBoundary (s : State) : Host.Outcome State Fault Refusal := s.done (rotation s)

/-- The commit point of the out slice (04 R95). -/
def execCalCommit (lane : Nat) (m : CalMeas) (s : State) : Host.Outcome State Fault Refusal := s.done (calCommit s lane m)

/-- A slice self-test ends (04 R97). -/
def execSliceSelfTestDone (lane slice : Nat) (devs : SelfTestCodes) (s : State) : Host.Outcome State Fault Refusal :=
  s.done (sliceTestEnd s lane slice devs)

/-- A monitor window ends (04 R100). -/
def execMonitorWindowEnd (stats : List PhaseStat) (s : State) : Host.Outcome State Fault Refusal :=
  s.done (monitorEnd s stats)

end Sys2Proof.Machine
end

