-- ==== Sys2Proof/Machine/Arith.lean ====
section
/-! DEFINITION. The tiller arithmetic contract (06 R133 to R152): every operation returns the value the chapter defines, bit for
bit. A complex value is a pair (re, im). Constants defined as roundings of real numbers are computed with 192 fractional
bits (log 7). -/

namespace Sys2Proof.Machine

/-- A complex value. -/
abbrev Cx := Int × Int

/-! ### Narrowing (06 R135, R136) -/

/-- Saturation to w bits. -/
def satW (w : Nat) (a : Int) : Int := clampInt (-(2 ^ (w - 1) : Nat)) ((2 ^ (w - 1) : Nat) - 1) a

/-- Right shift with round half to even (06 R135). -/
def shrEven (a : Int) (sh : Nat) : Int := roundEven a (2 ^ sh)

/-- `narrow` (06 R135): right shift by `sh`, rounding half to even, then saturation to `w` bits. -/
def narrow (a : Int) (sh w : Nat) : Int := satW w (shrEven a sh)

/-- `shl_sat` (06 R135). -/
def shlSat (a : Int) (n w : Nat) : Int := satW w (a * (2 ^ n : Nat))

/-- Saturation at the int48 limits (06 R136). -/
def sat48 (a : Int) : Int := satW 48 a

/-! ### Multiplier (06 R138, R139) -/

/-- Four products, or the four accumulators acc0 to acc3. -/
abbrev Quad := Int × Int × Int × Int

/-- What becomes of a product (06 R138): σ = −1, and whether it loads its accumulator. -/
structure AccOp where
  neg : Bool := false
  load : Bool := false
  deriving DecidableEq, Repr

/-- One accumulator takes its product (06 R136, R138). -/
def accTake (o : AccOp) (acc p : Int) : Int :=
  let p := if o.neg then -p else p
  if o.load then p else sat48 (acc + p)

/-- The products of complex mode (06 R138). -/
def quadComplex (u v : Cx) : Quad := (u.1 * v.1, u.2 * v.2, u.1 * v.2, u.2 * v.1)

/-- The products of the broadcast modes (06 R138): one coefficient with four data, or one datum with four coefficients. -/
def quadBroadcast (h : Int) (x : Quad) : Quad := (h * x.1, h * x.2.1, h * x.2.2.1, h * x.2.2.2)

/-- An operation of the quad multiplier on its accumulators (06 R138). -/
def quadTake (o : AccOp × AccOp × AccOp × AccOp) (acc p : Quad) : Quad :=
  (accTake o.1 acc.1 p.1, accTake o.2.1 acc.2.1 p.2.1, accTake o.2.2.1 acc.2.2.1 p.2.2.1, accTake o.2.2.2 acc.2.2.2 p.2.2.2)

/-- The four partial sums of a complex multiply-accumulate, in increasing k (06 R139). -/
def cmacSums (l : List (Cx × Cx)) : Quad :=
  l.foldl (fun acc e => quadTake ({}, {}, {}, {}) acc (quadComplex e.1 e.2)) (0, 0, 0, 0)

/-- `cmac` (06 R139). -/
def cmac (l : List (Cx × Cx)) (conj : Bool) : Cx :=
  let (a0, a1, a2, a3) := cmacSums l
  if conj then (sat48 (a0 + a1), sat48 (a3 - a2)) else (sat48 (a0 - a1), sat48 (a2 + a3))

/-! ### ALU (06 R140 to R142) -/

/-- `add` on int16 or int32 (06 R140). -/
def aluAdd (w : Nat) (a b : Int) : Int := satW w (a + b)

/-- `sub` (06 R140). -/
def aluSub (w : Nat) (a b : Int) : Int := satW w (a - b)

/-- `neg` (06 R140). -/
def aluNeg (w : Nat) (a : Int) : Int := satW w (-a)

/-- `abs` (06 R140): abs(−32,768) = 32,767. -/
def aluAbs (w : Nat) (a : Int) : Int := satW w (if a < 0 then -a else a)

/-- `and` on 32 bits (06 R140). -/
def aluAnd (a b : BitVec 32) : BitVec 32 := a &&& b
/-- `or` (06 R140). -/
def aluOr (a b : BitVec 32) : BitVec 32 := a ||| b
/-- `xor` (06 R140). -/
def aluXor (a b : BitVec 32) : BitVec 32 := a ^^^ b
/-- Bit test (06 R140). -/
def aluBit (a : BitVec 32) (n : Nat) : Bool := a.getLsbD n

/-- The wrapped value in int56 (06 R141). -/
def wrap56 (a : Int) : Int := (a + (2 ^ 55 : Nat)) % (2 ^ 56 : Nat) - (2 ^ 55 : Nat)

/-- `wadd56` (06 R141). -/
def wadd56 (a b : Int) : Int := wrap56 (a + b)

/-- `wsub56` (06 R141). -/
def wsub56 (a b : Int) : Int := wrap56 (a - b)

/-- `padd` (06 R142). -/
def padd (a b : Nat) : Nat := (a + b) % 65536

/-- `psub` (06 R142). -/
def psub (a b : Nat) : Nat := (a + 65536 - b % 65536) % 65536

/-- `pdiff` (06 R142): `psub` read as an int16. -/
def pdiff (a b : Nat) : Int := toInt 16 (psub a b)

/-- `mean2` (06 R140). -/
def mean2 (a b : Int) : Int := narrow (a + b) 1 16

/-! ### NORM, EXP and block exponents (06 R143 to R145) -/

/-- Bits that repeat the sign: the largest n ≤ fuel for which the value fits 48 − n bits (06 R143). -/
def normFrom (a : Int) : Nat → Nat
  | 0 => 0
  | n + 1 => if -(2 ^ (47 - (n + 1)) : Nat) ≤ a ∧ a ≤ ((2 ^ (47 - (n + 1)) : Nat) : Int) - 1 then n + 1 else normFrom a n

/-- NORM of an int48 (06 R143). -/
def norm48 (a : Int) : Nat := normFrom a 47

/-- NORM16 of an int16 (06 R143). -/
def norm16 (a : Int) : Nat := norm48 a - 32

/-- EXP over a set (06 R144). -/
def exp48 (l : List Int) : Nat := l.foldl (fun e a => min e (norm48 a)) 47

/-- EXP16 over complex values (06 R144). -/
def exp16 (l : List Cx) : Nat := l.foldl (fun e a => min e (min (norm16 a.1) (norm16 a.2))) 15

/-- `bfp_pack` (06 R144): the block exponent and the packed values. -/
def bfpPack (l : List Int) (w : Nat) : Nat × List Int :=
  let sh := 48 - w - exp48 l
  (sh, l.map fun a => narrow a sh w)

/-! ### Constants from real numbers (06 R146, R152; log 7) -/

/-- π in units of 2⁻¹⁹². -/
def piFix : Int := 19720096697726538562396133364228268891463450865190089732560

/-- One, in units of 2⁻¹⁹². -/
def oneFix : Int := (2 ^ 192 : Nat)

/-- Product of two fixed-point numbers. -/
def mulFix (a b : Int) : Int := a * b / oneFix

/-- The Taylor tail Σ of cos or sin from term `t` with index `k` on: t − t·x²/((k+1)(k+2)) + … -/
def taylor (x2 : Int) : Nat → Int → Nat → Int
  | 0, t, _ => t
  | n + 1, t, k => t + taylor x2 n (-(mulFix t x2) / ((k + 1) * (k + 2) : Nat)) (k + 2)

/-- cos(2π·a/b) in units of 2⁻¹⁹². -/
def cosFix (a b : Nat) : Int :=
  let x := 2 * piFix * (a % b : Nat) / b
  taylor (mulFix x x) 64 oneFix 0

/-- sin(2π·a/b) in units of 2⁻¹⁹². -/
def sinFix (a b : Nat) : Int :=
  let x := 2 * piFix * (a % b : Nat) / b
  taylor (mulFix x x) 64 x 1

/-- round_half_even of c·v for a fixed-point v. -/
def roundFix (c v : Int) : Int := roundEven (c * v) (2 ^ 192)

/-- `tw` of a transform of length n (06 R146). -/
def twiddle (k n : Nat) : Cx := (roundFix 32767 (cosFix k n), roundFix (-32767) (sinFix k n))

/-! ### Block-floating-point FFT (06 R147) -/

/-- Every second element of a list. -/
def evens {α : Type} : List α → List α
  | [] => []
  | [a] => [a]
  | a :: _ :: l => a :: evens l

/-- Element i moved to index bitrev_m(i) (06 R147), for a list of 2^m elements. -/
def bitrevPermute {α : Type} : Nat → List α → List α
  | 0, l => l
  | m + 1, l => bitrevPermute m (evens l) ++ bitrevPermute m (evens (l.drop 1))

/-- One butterfly (06 R147). -/
def butterfly (dir : Int) (s : Nat) (tw a b : Cx) : Cx × Cx :=
  let wi := dir * tw.2
  let tr := b.1 * tw.1 - b.2 * wi
  let ti := b.1 * wi + b.2 * tw.1
  ((narrow (a.1 * 32768 + tr) (15 + s) 16, narrow (a.2 * 32768 + ti) (15 + s) 16),
   (narrow (a.1 * 32768 - tr) (15 + s) 16, narrow (a.2 * 32768 - ti) (15 + s) 16))

/-- The butterflies of one group: first halves with second halves. -/
def fftGroup (dir : Int) (s : Nat) (tw : List Cx) (a b : List Cx) : List Cx :=
  let r := (tw.zip (a.zip b)).map fun (w, x, y) => butterfly dir s w x y
  r.map Prod.fst ++ r.map Prod.snd

/-- All groups of a pass, of size 2·half each. -/
def fftGroups (dir : Int) (s half : Nat) (tw : List Cx) : Nat → List Cx → List Cx
  | 0, _ => []
  | g + 1, x =>
    fftGroup dir s tw (x.take half) ((x.drop half).take half) ++ fftGroups dir s half tw g (x.drop (2 * half))

/-- The stage shift of a pass from the headroom (06 R147). -/
def stageShift (h : Nat) : Nat := if h = 0 then 2 else if h = 1 then 1 else 0

/-- Passes st … m − 1 (06 R147): the array and the block exponent. -/
def fftPasses (dir : Int) (m : Nat) : Nat → List Cx → Nat → List Cx × Nat
  | 0, x, e => (x, e)
  | left + 1, x, e =>
    let st := m - (left + 1)
    let half := 2 ^ st
    let s := stageShift (exp16 x)
    let tw := (List.range half).map fun i => twiddle (i * 2 ^ (m - 1 - st)) (2 ^ m)
    fftPasses dir m left (fftGroups dir s half tw (2 ^ (m - 1 - st)) x) (e + s)

/-- `bfp_fft` (06 R147) of 2^m points: result in natural order and the block exponent. -/
def bfpFft (m : Nat) (dir : Int) (x : List Cx) : List Cx × Nat := fftPasses dir m m (bitrevPermute m x) 0

/-! ### CORDIC (06 R149) -/

/-- The angle table (06 R149). -/
def atab : List Nat := [8192, 4836, 2555, 1297, 651, 326, 163, 81, 41, 20, 10, 5, 3, 1, 1, 0]

/-- Iteration i of `cordic_atan2` (06 R149). -/
def cordicStep (v : Int × Int × Nat) (i : Nat) : Int × Int × Nat :=
  let (x, y, z) := v
  let dx := narrow y i 48
  let dy := narrow x i 48
  if 0 ≤ y then (x + dx, y - dy, padd z (nth atab i 0)) else (x - dx, y + dy, psub z (nth atab i 0))

/-- `cordic_atan2` (06 R149): phase and magnitude times the CORDIC gain. -/
def cordicAtan2 (yi xi : Int) : Nat × Int :=
  if xi = 0 ∧ yi = 0 then (0, 0)
  else
    let v := if xi < 0 then (-xi, -yi, 32768) else (xi, yi, 0)
    let (x, _, z) := (List.range 16).foldl cordicStep v
    (z, x)

end Sys2Proof.Machine
end

