-- ==== Sys2Proof/Machine/Compress.lean ====
section
/-! DEFINITION. Slot plans (02 R30 to R36), the comb splitter and the wideband path, the reference spectrum and the pulse
compression of one shot sheaf (07 R153 to R166). Frequencies are in Hz. -/

namespace Sys2Proof.Machine

/-! ### Slot plans (02 R30, R31, R38) -/

/-- S of a plan (02 R30). -/
def planS (plan : Nat) : Nat := 128 / 2 ^ plan

/-- Slot width W (02 R30). -/
def planW (plan : Nat) : Nat := 25000000 * 2 ^ plan

/-- Chirp bandwidth B (02 R30). -/
def planB (plan : Nat) : Nat := if plan = 7 then 3000000000 else 20000000 * 2 ^ plan

/-- Pitch in ticks. -/
def ProbeRec.pitch (p : ProbeRec) : Nat := 2 ^ p.pitchLog2

/-- Slot count S in force; 0 while no image is active (02 R65). -/
def ProbeRec.slots (p : ProbeRec) : Nat := if p.ttr = 0 then 0 else planS p.plan

/-- Launch interval L (02 R38). -/
def ProbeRec.interval (p : ProbeRec) : Nat := if p.ttr = 0 then 0 else p.ttr / planS p.plan

/-- Slot frequency f_k (02 R31). -/
def slotFreq (p : ProbeRec) (k : Nat) : Int :=
  -1600000000 + (2 * k + 1 : Nat) * (planW p.plan / 2 : Nat) + 1000 * p.offset

/-- Direction d of slot k (02 R34). -/
def slotDir (p : ProbeRec) (k : Nat) : Int :=
  match p.dir with
  | 0 => 1
  | 1 => -1
  | _ => if k % 2 = 0 then 1 else -1

/-- N_t of a taper code (02 R35, R65). -/
def taperTicks (code : Nat) : Nat := if code = 0 then 0 else 8 * 2 ^ code

/-- `fw(f)` (07 R154): round_half_even(f·2⁴⁸/4.0 × 10⁹) mod 2⁴⁸. -/
def freqWord (f : Int) : Nat := (roundEven (f * (2 ^ 48 : Nat)) 4000000000 % (2 ^ 48 : Nat)).toNat

/-- Frequency step of the chirp generator (02 R36): round(d·B·2⁴⁸/(4.0 × 10⁹·N_c)), rounded half to even (log 12). -/
def chirpStep (p : ProbeRec) (k : Nat) : Int := roundEven (slotDir p k * planB p.plan * (2 ^ 48 : Nat)) (4000000000 * p.nc)

/-- Start frequency word of slot k (02 R36). -/
def chirpStart (p : ProbeRec) (k : Nat) : Nat := freqWord (slotFreq p k - slotDir p k * (planB p.plan / 2 : Nat))

/-- bitrev_b(j) (02 R40). -/
def bitrev (b j : Nat) : Nat :=
  match b with
  | 0 => 0
  | b + 1 => j % 2 * 2 ^ b + bitrev b (j / 2)

/-- The launch-order table in force (02 R40). -/
def ProbeRec.lotTable (p : ProbeRec) : List Nat :=
  if p.lotGiven = 1 then p.lot else (List.range (planS p.plan)).map fun j => bitrev (7 - p.plan) j

/-! ### Chirp samples (02 R35, R36) -/

/-- e^(j2π·a/b) in units of 2⁻¹⁹² for any integer a. -/
def cisFix (a : Int) (b : Nat) : Int × Int :=
  let n := (a % (b : Int)).toNat
  (cosFix n b, sinFix n b)

/-- Taper w(n) in units of 2⁻¹⁹² (02 R35). -/
def taperFix (nc nt n : Nat) : Int :=
  let m := if n < nt then n else if nc - nt ≤ n then nc - 1 - n else nc
  if m < nt then (oneFix - cosFix (2 * m + 1) (4 * nt)) / 2 else oneFix

/-- The chirp of slot k that the launch of raw-sample index r at tick t puts on the pads (02 R31, R33 to R36). -/
def chirpOf (p : ProbeRec) (r slot t : Nat) : LaunchOut :=
  { r := r, slot := slot, tick := t, dir := slotDir p slot, fw := chirpStart p slot, cw := chirpStep p slot,
    amp := nth p.amp slot 0, nc := p.nc, nt := taperTicks p.taper, qInv := p.qInv == 1 }

/-- The ideal code pair of the generator at sample n of a launch (02 R33, R36), 0 outside its N_c samples; the pads lie within ±1 LSB
of it (R37). -/
def LaunchOut.code (l : LaunchOut) (n : Nat) : Int × Int :=
  if l.nc ≤ n then (0, 0) else
  let ph := ((n : Int) * l.fw + l.cw * (n * (n - 1) / 2 : Nat)) % (2 ^ 48 : Nat)
  let th := (ph / (2 ^ 32 : Nat)).toNat
  let a := (l.amp : Int) * taperFix l.nc l.nt n
  let i := clampInt (-511) 511 (roundEven (a * cosFix th 65536) (2 ^ 384))
  let q := clampInt (-511) 511 (roundEven (a * sinFix th 65536) (2 ^ 384))
  (i, if l.qInv then -q else q)

/-- The chirp that lies on PRB_I and PRB_Q at the present tick (02 R36, R42, R64). -/
def State.chirpNow (s : State) : Option LaunchOut :=
  if s.pads.muted then none
  else s.pads.chirp.filter fun l => decide (l.tick ≤ s.tim.tick ∧ s.tim.tick < l.tick + l.nc)

/-- The codes on PRB_I and PRB_Q at the present tick: 0 outside the chirps (02 R36, R64). -/
def State.probeOut (s : State) : Int × Int :=
  match s.chirpNow with
  | some l => l.code (s.tim.tick - l.tick)
  | none => (0, 0)

/-- PRB_I and PRB_Q are muted (02 R64), as PRB_STATUS shows (R65). -/
def State.probeMuted (s : State) : Bool := s.chirpNow.isNone

/-- GATE is high at the present tick (02 R47, R50). -/
def State.gateHigh (s : State) : Bool :=
  match s.pads.gate, s.pads.chirp, s.pads.gateWin with
  | true, some l, some w => decide (w.1 ≤ (s.tim.tick : Int) - l.tick ∧ (s.tim.tick : Int) - l.tick < w.2)
  | _, _, _ => false

/-! ### Path constants (07 R158) -/

/-- Constants of a path (07 R158): taps L, f_a and f_b, Kaiser β, M, D_p, gs. -/
structure PathConst where
  taps : Nat
  fa : Nat
  fb : Nat
  beta : Nat
  m : Nat
  dp : Nat
  gs : Nat
  deriving DecidableEq, Repr

/-- The path of a plan (07 R158). -/
def pathOf (plan : Nat) : PathConst :=
  match plan with
  | 4 => { taps := 193, fa := 180000000, fb := 320000000, beta := 6, m := 8, dp := 96, gs := 39 }
  | 5 => { taps := 97, fa := 360000000, fb := 640000000, beta := 6, m := 4, dp := 48, gs := 39 }
  | 6 => { taps := 49, fa := 720000000, fb := 1280000000, beta := 6, m := 2, dp := 24, gs := 39 }
  | 7 => { taps := 1, fa := 0, fb := 0, beta := 0, m := 1, dp := 0, gs := 39 }
  | _ => { taps := 3841, fa := 10000000, fb := 15000000, beta := 8, m := 128, dp := 1920, gs := 36 }

/-- The tail of I0(z) = Σ (z²/4)^k/(k!)², in units of 2⁻¹⁹², from term `t` with index `k` on; `q` is z²/4. -/
def besselTail (q : Int) : Nat → Int → Nat → Int
  | 0, t, _ => t
  | n + 1, t, k => t + besselTail q n (mulFix t q / ((k + 1) * (k + 1) : Nat)) (k + 1)

/-- I0 of a number whose square over 4 is `q`. -/
def bessel0 (q : Int) : Int := besselTail q 64 oneFix 0

/-- sinc(a/b)·1, in units of 2⁻¹⁹². -/
def sincFix (a : Int) (b : Nat) : Int :=
  if a = 0 then oneFix else (cisFix a (2 * b)).2 * oneFix * b / (piFix * a)

/-- g(τ)/f_s of R158 at τ = x/f_s, in units of 2⁻¹⁹², with its limits at the removable singularities. -/
def protoShape (c : PathConst) (x : Int) : Int :=
  let fs : Int := 4000000000
  let sum : Int := (c.fa : Int) + c.fb
  let dif : Int := (c.fb : Int) - c.fa
  let s := sincFix (sum * x) 4000000000 * sum / fs
  let den := fs * fs - (2 * dif * x) * (2 * dif * x)
  let r := if den = 0 then piFix / 4 else (cisFix (dif * x) (2 * 4000000000)).1 * (fs * fs) / den
  mulFix s r

/-- Tap i of the prototype (07 R158; log 7). -/
def protoTap (c : PathConst) (i : Nat) : Int :=
  if c.taps = 1 then (2 ^ 24 : Nat) else
  let l := c.taps - 1
  let y : Int := 2 * (i : Int) - l
  -- β²(1 − y²/l²)/4
  let q := oneFix * (c.beta * c.beta : Nat) * ((l * l : Nat) - y * y) / (4 * l * l : Nat)
  let w := bessel0 q * oneFix / bessel0 (oneFix * (c.beta * c.beta : Nat) / 4)
  roundFix (2 ^ 24 : Nat) (mulFix (protoShape c ((i : Int) - (l / 2 : Nat))) w)

/-- The prototype h (07 R158). -/
def prototype (c : PathConst) : List Int := (List.range c.taps).map fun i => protoTap c i

/-! ### Channels (07 R153 to R157, R162) -/

/-- `rot(θ)` (07 R154). -/
def rot (th : Nat) : Cx := (roundFix 32767 (cosFix th 65536), roundFix 32767 (sinFix th 65536))

/-- The path input of one polarisation by tick (07 R153). -/
abbrev PathInput := Int → Cx

/-- `chan` (07 R157): the sample of the channel centred at `fc` with index m. -/
def chanSample (c : PathConst) (h : List Int) (u : PathInput) (fc m : Int) : Cx :=
  let w : Int := freqWord fc
  let t1 := (c.m : Int) * m
  let (ar, ai) := h.zipIdx.foldl (fun (ar, ai) (hi, i) =>
    let t := t1 - i
    let th := (w * t % (2 ^ 48 : Nat) / (2 ^ 32 : Nat)).toNat
    let e := rot (psub 0 th)
    let x := u t
    (ar + hi * (x.1 * e.1 - x.2 * e.2), ai + hi * (x.1 * e.2 + x.2 * e.1))) ((0 : Int), (0 : Int))
  (narrow ar c.gs 16, narrow ai c.gs 16)

/-- Centres of the channels a slot uses, in increasing channel number (07 R156, R162). -/
def slotChannels (p : ProbeRec) (k : Nat) : List Int :=
  if p.plan = 7 then [0]
  else if 4 ≤ p.plan then [-1600000000 + (2 * k + 1 : Nat) * (planW p.plan / 2 : Nat)]
  else
    let fk := slotFreq p k
    let lim : Int := (planB p.plan / 2 : Nat) + 18000000
    ((List.range 130).map fun (i : Nat) => (2 * ((i : Int) - 65) + 1) * 12500000).filter fun f =>
      decide (f - fk < lim ∧ fk - f < lim)

/-! ### Transform lengths (07 R163) -/

/-- The least 2^m ≥ n, with m from `m` on; `fuel` bounds the search. -/
def log2Up (n : Nat) : Nat → Nat → Nat
  | 0, m => m
  | fuel + 1, m => if n ≤ 2 ^ m then m else log2Up n fuel (m + 1)

/-- log2 N_i (07 R163). -/
def niLog2 (p : ProbeRec) : Nat :=
  log2Up (ceilDiv (1024 * p.pitch + p.nc + 9 * (pathOf p.plan).m) p.pitch) 40 0

/-- log2 N_f, with N_f = N_i·pitch/M (07 R163). -/
def nfLog2 (p : ProbeRec) : Nat := niLog2 p + p.pitchLog2 - Nat.log2 (pathOf p.plan).m

/-! ### Reference spectrum (07 R164) -/

/-- Wn(x) at x = a/b, in units of 2⁻¹⁹² (07 R164). -/
def windowFix (code : Nat) (a : Int) (b : Nat) : Int :=
  let c1 := (cisFix a b).1
  let c2 := (cisFix (2 * a) b).1
  match code with
  | 0 => oneFix
  | 1 => (oneFix + c1) / 2
  | 2 => (54 * oneFix + 46 * c1) / 100
  | _ => (42 * oneFix + 50 * c1 + 8 * c2) / 100

/-- C(f) at composite bin κ, in units of 2⁻¹⁹² (07 R164). -/
def chirpSpectrum (p : ProbeRec) (d κ : Int) : Int × Int :=
  let b : Int := planB p.plan
  let nc : Int := p.nc
  let n1 : Nat := 2 * p.nc * 4000000000
  let n2 : Nat := p.pitch * 2 ^ niLog2 p
  (List.range p.nc).foldl (fun (sr, si) n =>
    let w := taperFix p.nc (taperTicks p.taper) n
    -- d·B·(n(n−1)/(2N_c) − n/2)/f_s − κ·n/(pitch·N_i) turns
    let a : Int := d * b * ((n : Int) * (n - 1) - n * nc)
    let e := cisFix (a * n2 - κ * n * n1) (n1 * n2)
    (sr + mulFix w e.1, si + mulFix w e.2)) ((0 : Int), (0 : Int))

/-- ref[κ] for a direction (07 R164; log 7). -/
def refBin (p : ProbeRec) (window : Nat) (d κ : Int) : Cx :=
  let b := planB p.plan
  let n2 := p.pitch * 2 ^ niLog2 p
  -- |f_κ| ≤ B/2 with f_κ = κ·4·10⁹/(pitch·N_i)
  if b * n2 < 2 * 4000000000 * κ.natAbs then (0, 0) else
  let c := chirpSpectrum p d κ
  let w := windowFix window (κ * 4000000000) (n2 * b)
  let root : Int := isqrt (p.nc * 4000000000 * 2 ^ 384 / b)
  let r (v : Int) : Int := satW 16 (roundEven (23170 * w * v) (root.toNat * 2 ^ 192))
  (r c.1, r (-c.2))

/-! ### Compression (07 R165, R166) -/

/-- The κ of natural index i of an n-point transform. -/
def natIdx (n i : Nat) : Int := if i < n / 2 then i else (i : Int) - n

/-- What compression of one polarisation yields: q_s in natural order, the block exponent, the values saturated in packing. -/
structure PolOut where
  out : List Cx
  ep : Int
  sat : Nat
  deriving DecidableEq, Repr

/-- Values that `bfp_pack` saturates (06 R145; 07 R166). -/
def packSat (l : List Int) (sh w : Nat) : Nat := (l.filter fun a => decide (narrow a sh w ≠ shrEven a sh)).length

/-- Both parts of complex values as one list, for `bfp_pack` over both (06 R144). -/
def parts (l : List Cx) : List Int := l.flatMap fun c => [c.1, c.2]

/-- Values packed with one exponent, with the number saturated. -/
def packCx (l : List Cx) : Nat × List Cx × Nat :=
  let sh := 48 - 16 - exp48 (parts l)
  (sh, l.map fun c => (narrow c.1 sh 16, narrow c.2 sh 16), packSat (parts l) sh 16)

/-- Compression of one polarisation of shot sheaf (r, b) (07 R165): slot k launched at `tl`, capture window from `c0` on. -/
def compressPol (p : ProbeRec) (window k : Nat) (tl c0 b : Int) (u : PathInput) : PolOut :=
  let c := pathOf p.plan
  let h := prototype c
  let mm : Int := c.m
  let dp : Int := c.dp
  let pitch : Int := p.pitch
  let mi := niLog2 p
  let mf := nfLog2 p
  let ni : Nat := 2 ^ mi
  let nf : Nat := 2 ^ mf
  let s0 := c0 + 1024 * b * pitch
  let m0 := (s0 + dp) / mm - 8
  let ts := mm * m0 - dp
  let dl := s0 - ts
  let me := (c0 + 1024 * (b + 1) * pitch + p.nc - 1 + dp) / mm
  let fk := slotFreq p k
  let fwk : Int := freqWord fk
  let chans := slotChannels p k
  let spectra := chans.map fun fc =>
    let dc := fc - fk
    let nsh := roundEven (dc * (pitch * ni)) 4000000000
    let wres := roundEven ((dc * (pitch * ni) - nsh * 4000000000) * mm * (2 ^ 48 : Nat)) (4000000000 * (p.pitch * ni))
    let a := (List.range nf).map fun (n : Nat) =>
      let y := if m0 + n ≤ me then chanSample c h u fc (m0 + n) else (0, 0)
      let th := (((freqWord fc : Int) * ts - fwk * (ts - tl) + wres * n) % (2 ^ 48 : Nat) / (2 ^ 32 : Nat)).toNat
      let v := cmac [(y, rot th)] false
      (narrow v.1 15 16, narrow v.2 15 16)
    let (x, e) := bfpFft mf 1 a
    (nsh, x, e)
  let emin := spectra.foldl (fun m s => min m s.2.2) ((spectra.head?.map fun s => s.2.2).getD 0)
  let z := (List.range ni).map fun i =>
    let kap := natIdx ni i
    spectra.foldl (fun (acc : Cx) s =>
      let kk := kap - s.1
      if -((nf / 2 : Nat) : Int) ≤ kk ∧ kk < (nf / 2 : Nat) then
        let v := nth s.2.1 (kk % nf).toNat (0, 0)
        (sat48 (acc.1 + shlSat v.1 (s.2.2 - emin) 48), sat48 (acc.2 + shlSat v.2 (s.2.2 - emin) 48))
      else acc) (0, 0)
  let (sz, zs, n1) := packCx z
  let d := slotDir p k
  let q := zs.zipIdx.map fun (zv, i) =>
    let kap := natIdx ni i
    let thd := (roundEven (65536 * (kap * dl % (pitch * ni))) (p.pitch * ni) % 65536).toNat
    let v := cmac [(refBin p window d kap, rot thd)] false
    cmac [(zv, (narrow v.1 15 16, narrow v.2 15 16))] false
  let (sq, qs, n2) := packCx q
  let (x, ei) := bfpFft mi (-1) qs
  { out := x, ep := (emin : Int) + sz + sq + ei - 15, sat := n1 + n2 }

/-- A polarisation is all zero (07 R166). -/
def PolOut.isZero (o : PolOut) : Bool := o.out.all fun c => c == (0, 0)

/-- The compressed values of a block (07 R166): per position (X, Y), the common exponent E_rb, the values saturated. -/
structure Compressed where
  pos : List (Cx × Cx)
  e : Int
  sat : Nat
  deriving DecidableEq, Repr

/-- The common block exponent and the narrowing of the other polarisation (07 R166). -/
def combinePol (x y : PolOut) : Compressed :=
  let e := match x.isZero, y.isZero with
    | true, true => 0
    | true, false => y.ep
    | false, true => x.ep
    | false, false => max x.ep y.ep
  let f (o : PolOut) : List Cx := (o.out.take 1024).map fun c =>
    if o.ep < e then (narrow c.1 (e - o.ep).toNat 16, narrow c.2 (e - o.ep).toNat 16) else c
  { pos := (f x).zip (f y), e := e, sat := x.sat + y.sat }

/-- The path inputs of converter samples from tick `first` on: the normalised samples, 0 where erased or of a polarisation lost by
that tick (07 R153). A tick the samples do not hold is 0. -/
def pathInput (s : State) (first : Int) (l : List Sample) (y : Bool) : PathInput := fun t =>
  if t < first then (0, 0) else
  match l[(t - first).toNat]? with
  | none => (0, 0)
  | some v => if y then (s.normAt 2 t v.yi, s.normAt 3 t v.yq) else (s.normAt 0 t v.xi, s.normAt 1 t v.xq)

/-- The condition of R73 holds for the compression window from tick `w` on: an erased tick or a clipped code. -/
def windowMarked (segs : List RangeSeg) (inp : SheafIn) (w : Int) (nc : Nat) : Bool :=
  let lo := (w - inp.first).toNat
  let hi := (w + nc - inp.first).toNat
  erasedIn segs w (w + nc) ||
    ((inp.samples.drop lo).take (hi - lo)).any fun v => clipped v.xi || clipped v.xq || clipped v.yi || clipped v.yq

end Sys2Proof.Machine
end

