-- ==== Sys2Proof/Machine/Phase.lean ====
section
/-! DEFINITION. The phase steps of a shot sheaf, slot records and training, and the filling, unwrapping and scaling of the raw
stream (08 R169 to R189). -/

namespace Sys2Proof.Machine

/-! ### Flags by their quality-word bit (00 R12) -/

/-- SETTLING. -/
def qSettling : Nat := 0x0001
/-- TRAINING. -/
def qTraining : Nat := 0x0002
/-- HELD. -/
def qHeld : Nat := 0x0004
/-- FADED. -/
def qFaded : Nat := 0x0008
/-- RANGE. -/
def qRange : Nat := 0x0010
/-- MINPHASE. -/
def qMinphase : Nat := 0x0020
/-- UNSYNC. -/
def qUnsync : Nat := 0x0040
/-- SHADOW. -/
def qShadow : Nat := 0x0080
/-- BEYOND_END. -/
def qBeyond : Nat := 0x0100
/-- DEGRADED. -/
def qDegraded : Nat := 0x0200
/-- GAP. -/
def qGap : Nat := 0x0400
/-- SUPPLY_WARN. -/
def qSupplyWarn : Nat := 0x0800
/-- CORRUPT. -/
def qCorrupt : Nat := 0x1000

/-- Some flag of the mask is set. -/
def hasFlag (f mask : Nat) : Bool := f &&& mask != 0

/-! ### Derived settings (08 R178, R185, R191) -/

/-- U (08 R178); 0 while no image is active. -/
def trackU (ph : PhaseRec) (p : ProbeRec) : Nat :=
  if p.ttr = 0 then 0 else max 1 (roundEven (ph.trackTau * 4000000) (64 * p.ttr)).toNat

/-- The denominator of ε_LSB: 65,536·2·(2·n_g·G_m)·ξ without its powers of ten; n_g cancels against d_tick (08 R185; 00 R8). -/
def epsDen (ph : PhaseRec) (p : ProbeRec) : Nat := 131072 * ph.gauge * p.pitch * 299792458 * 975

/-- ε_LSB in 10⁻¹⁸ strain per phase unit, rounded half to even (08 R191 COH_PH_EPS; log 12). -/
def epsLsb (ph : PhaseRec) (p : ProbeRec) : Nat :=
  if ph.gauge = 0 then 0 else (roundEven (ph.lambda * 10 ^ 19) (epsDen ph p)).toNat

/-- f of R185 as a fraction: numerator and denominator. -/
def scaleF (ph : PhaseRec) (p : ProbeRec) : Nat × Nat :=
  (ph.lambda * p.slots * (4 * 10 ^ 22), epsDen ph p * p.ttr * ph.rawLsb)

/-- K for a given KS (08 R185). -/
def scaleKAt (ph : PhaseRec) (p : ProbeRec) (ks : Nat) : Nat :=
  let (a, b) := scaleF ph p
  if b = 0 then 0 else (roundEven (a * 2 ^ (15 - ks)) b).toNat

/-- KS: the smallest value from 0 to 15 for which K ≤ 32,767 (08 R185); 0 while no image is active. R185 uses it for QUANTITY = 0; in strain
mode KS and COH_PH_K show the same value (DESIGN CHOICE, log 81: R191 does not say what they read there). -/
def scaleKs (ph : PhaseRec) (p : ProbeRec) : Nat :=
  ((List.range 16).find? fun ks => decide (scaleKAt ph p ks ≤ 32767)).getD 15

/-- f lies in the range R185 admits: 1/32 ≤ f < 32,767.5. -/
def scaleOk (ph : PhaseRec) (p : ProbeRec) : Bool :=
  let (a, b) := scaleF ph p
  decide (b ≤ 32 * a ∧ 2 * a < 65535 * b)

/-! ### Slot records (08 R176 to R180, R189) -/

/-- A restart covers block `b`. -/
def Restart.covers (x : Restart) (b : Nat) : Bool :=
  match x.blocks with
  | none => true
  | some l => l.contains b

/-- FTHR rescaled for a FADE_SHIFT amendment (08 R189): recomputed from PSUM after a complete training, else shifted. -/
def SlotRec.rescale (x : SlotRec) (fs : Nat) : SlotRec :=
  if x.fs = fs ∨ x.tvalid = false then { x with fs := fs }
  else
    let t :=
      if x.ntrain ≤ x.tcount then narrow (narrow x.psum x.ntl 48) fs 48
      else if x.fs < fs then narrow x.fthr (fs - x.fs) 48
      else shlSat x.fthr (x.fs - fs) 48
    { x with fthr := t, fs := fs }

/-- FTHR rescaled at each boundary that has changed FADE_SHIFT up to raw-sample index r, in order, and at last to the FADE_SHIFT of the
shot of r (08 R189). -/
def SlotRec.rescaleTo (x : SlotRec) (segs : List PhSeg) (r : Nat) (ph : PhaseRec) : SlotRec :=
  let due := (segs.filter fun g => decide (x.fsR < g.r0 ∧ g.r0 ≤ r)).reverse
  { (due.foldl (fun x g => x.rescale g.phase.fadeShift) x).rescale ph.fadeShift with fsR := r }

/-- The slot record as the shot sheaf (r, b) finds it when it takes the token: the restarts that cover it applied (08 R179), FTHR on the
FADE_SHIFT of the shot (R189). -/
def SlotRec.enter (x : SlotRec) (segs : List PhSeg) (restarts : List Restart) (b r : Nat) (ph : PhaseRec) : SlotRec :=
  let x := x.rescaleTo segs r ph
  let due := restarts.filter fun q => decide (x.restart < q.id ∧ q.fromR ≤ r) && q.covers b
  if due = [] then x
  else
    let clear := due.any Restart.clear
    { x with
      tcount := 0, psum := 0, ntrain := ph.ntrain,
      restart := due.foldl (fun m q => max m q.id) x.restart,
      tvalid := x.tvalid && !clear, fthr := if clear then 0 else x.fthr }

/-- The slot has finished training (08 R177): no restart covers it that it has not taken, and its count is full. -/
def SlotRec.finished (x : SlotRec) (restarts : List Restart) (b : Nat) : Bool :=
  decide (0 < x.ntrain ∧ x.ntrain ≤ x.tcount) && restarts.all fun q => !q.covers b || decide (q.id ≤ x.restart)

/-! ### The shot-sheaf steps (08 R173) -/

/-- Combined power of a position (08 R173). -/
def combinedPower (e : Int) (v : Cx × Cx) : Int :=
  let a := v.1.1 * v.1.1 + v.1.2 * v.1.2 + (v.2.1 * v.2.1 + v.2.2 * v.2.2)
  if 0 ≤ e then sat48 (a * (2 ^ (2 * e.toNat) : Nat)) else narrow a (min (2 * (-e).toNat) 47) 48

/-- gtab[n] (08 R173). -/
def gtab (n : Nat) : Int := roundEven 32768 (n + 1)

/-- The gauge phase of a position and its partner (08 R173). -/
def gaugePhase (a l : Cx × Cx) : Nat :=
  let (re, im) := cmac [(a.1, l.1), (a.2, l.2)] true
  let t := min (norm48 re) (norm48 im)
  let f (x : Int) : Int := if 17 ≤ t then shlSat x (t - 17) 32 else narrow x (17 - t) 32
  (cordicAtan2 (f im) (f re)).1

/-- What one position of a shot sheaf reads: its values and its partner's, their powers, its baseline, and whether R172 gives it
RANGE. -/
structure PhaseIn where
  a : Cx × Cx
  lead : Cx × Cx
  pw : Int
  pwLead : Int
  beta : Nat
  range : Bool
  /-- An uncorrectable error in its baseline word, 05 R125. -/
  ue : Bool
  deriving DecidableEq, Repr

/-- The steps of one position (08 R173): the new baseline and the raw sample. -/
def phasePos (tr due : Bool) (sr : SlotRec) (x : PhaseIn) : Nat × Raw :=
  let dph := gaugePhase x.a x.lead
  let faint := sr.tvalid && decide (x.pw < sr.fthr ∨ x.pwLead < sr.fthr)
  let beta := if x.ue then 0 else x.beta
  let beta :=
    if tr && sr.tcount == 0 then dph
    else if tr && !faint then padd beta (ofInt 16 (narrow (pdiff dph beta * gtab sr.tcount) 15 16))
    else if !tr && due && !faint then padd beta (ofInt 16 (narrow (pdiff dph beta) 6 16))
    else beta
  let fl := (if tr then qTraining else 0) ||| (if faint then qFaded else 0) ||| (if x.range then qRange else 0) |||
    (if x.ue then qCorrupt else 0)
  (beta, { v := ofInt 16 (pdiff dph beta), fl := fl })

/-- The slot record after a training shot whose powers sum to `bs` (08 R173). -/
def SlotRec.train (sr : SlotRec) (bs : Int) (ph : PhaseRec) : SlotRec :=
  let psum := sat48 (sr.psum + narrow bs 10 48)
  let sr := { sr with psum := psum, tcount := sr.tcount + 1 }
  if sr.tcount = sr.ntrain then
    let ntl := Nat.log2 sr.ntrain
    { sr with ntl := ntl, fthr := narrow (narrow psum ntl 48) ph.fadeShift 48, tvalid := true, fs := ph.fadeShift }
  else sr

/-- What a shot sheaf computes (08 R173): slot record, baselines, raw samples and combined powers of its 1,024 positions, and
the values saturated in compression (07 R168). -/
structure ShotOut where
  sr : SlotRec
  base : List Nat
  raw : List Raw
  pw : List Int
  sat : Nat
  deriving DecidableEq, Repr

/-- The compressed block of a shot (07 R165, R166): block `b`, or the block before it for the lead values (08 R169). -/
def compressBlock (sh : Shot) (u : Bool → PathInput) (b : Int) : Compressed :=
  let f (y : Bool) : PolOut := compressPol sh.probe sh.window sh.slot sh.tick sh.c0 b (u y)
  combinePol (f false) (f true)

/-- Shot sheaf (r, b) (08 R173) with its slot record entered and its baselines. -/
def shotSheaf (sh : Shot) (b : Nat) (u : Bool → PathInput) (segs : List RangeSeg) (inp : SheafIn) (sr : SlotRec) (base : List Nat) : ShotOut :=
  let g := sh.phase.gauge
  let own := compressBlock sh u b
  let led := compressBlock sh u ((b : Int) - 1)
  let leadPos := led.pos.drop (1024 - g)
  let pwOwn := own.pos.map (combinedPower own.e)
  let pwLead := leadPos.map (combinedPower led.e)
  let marked := (List.range (1024 + g)).map fun (i : Nat) =>
    windowMarked segs inp (sh.c0 + (1024 * (b : Int) + i - g) * sh.probe.pitch) sh.probe.nc
  let ins := (own.pos.zip (leadPos ++ own.pos)).zip ((pwOwn.zip (pwLead ++ pwOwn)).zip (base.zip (marked.zip (marked.drop g))))
  let ins := ins.mapIdx fun j (e : ((Cx × Cx) × (Cx × Cx)) × ((Int × Int) × (Nat × (Bool × Bool)))) =>
    ({ a := e.1.1, lead := e.1.2, pw := e.2.1.1, pwLead := e.2.1.2, beta := e.2.2.1,
       range := e.2.2.2.1 || e.2.2.2.2,
       ue := inp.ue.any fun p => p / 4 == (1024 * b + j) / 4 } : PhaseIn)
  let tr : Bool := decide (sr.tcount < sr.ntrain)
  let u' := trackU sh.phase sh.probe
  let due : Bool := !tr && sh.m % u' == 0
  let out := ins.map (phasePos tr due sr)
  let bs := pwOwn.foldl (fun a p => sat48 (a + p)) 0
  { sr := if tr then sr.train bs sh.phase else sr
    base := out.map Prod.fst
    raw := out.map Prod.snd
    pw := pwOwn
    sat := own.sat + led.sat }

/-! ### Filling, unwrapping and scaling (08 R182 to R186) -/

/-- The settings one raw value is scaled with (08 R182, R185, R189). -/
structure RawScale where
  s : Nat
  quantity : Nat
  ss : Nat
  k : Nat
  ks : Nat
  deriving DecidableEq, Repr

/-- The segment of settings that governs raw-sample index `r` (08 R189). -/
def segAt (l : List PhSeg) (r : Nat) : Option PhSeg := l.find? fun x => decide (x.r0 ≤ r)

/-- The scale of the raw value of index `r`. -/
def rawScaleAt (l : List PhSeg) (r : Nat) : RawScale :=
  match segAt l r with
  | none => { s := 0, quantity := 0, ss := 0, k := 0, ks := 0 }
  | some x =>
    let ks := scaleKs x.phase x.probe
    { s := x.probe.slots, quantity := x.phase.quantity, ss := x.phase.ss, k := scaleKAt x.phase x.probe ks, ks := ks }

/-- A raw value as the block sheaf emits it (08 R182), with what it counts (R183, R186). -/
structure RawOut where
  x : Int
  fl : Nat
  fillHold : Bool
  sat : Bool
  deriving DecidableEq, Repr

/-- Arrival of a raw sample at a position (08 R182): the new state, and the raw value of the sample before it. `c` is the scale of
that value. -/
def unwrapStep (c : RawScale) (q : PosState) (vin fin : Nat) : PosState × Option RawOut :=
  if !q.havePend then ({ q with pend := vin, pfl := fin, havePend := true }, none)
  else
    let fill := qHeld ||| qDegraded ||| qFaded
    let void := qCorrupt ||| qGap
    let usable := !hasFlag fin (fill ||| void)
    let isVoid := hasFlag q.pfl void
    let isFill := !isVoid && hasFlag q.pfl fill
    let v :=
      if isVoid then q.last
      else if isFill then (if usable then padd q.last (ofInt 16 (narrow (pdiff vin q.last) 1 16)) else q.last)
      else q.pend
    let d := if isVoid then 0 else pdiff v q.last
    let tcnt := if hasFlag q.pfl qTraining then 0 else min (q.tcnt + 1) 65535
    let acc := if tcnt = c.s then 0 else sat48 (q.acc + d)
    let (a, sh) := if c.quantity = 0 then (d * c.k, 15 - c.ks) else (acc, c.ss)
    let xo := narrow a sh 16
    ({ q with tcnt := tcnt, acc := acc, last := v, pend := vin, pfl := fin },
      some { x := xo, fl := q.pfl, fillHold := isFill && !usable, sat := decide (xo ≠ shrEven a sh) })

end Sys2Proof.Machine
end

