-- ==== Sys2Proof/Machine/Schedule.lean ====
section
/-! DEFINITION. The launch schedule as a function of the raw-sample index (02 R39, R41): trace period, launch position, launch
instant, boundaries; and thinning and shedding by index (05 R129, R130). -/

namespace Sys2Proof.Machine

/-- T_TR in force; it never changes within an acquisition (02 R41). -/
def State.ttr (s : State) : Nat := s.conf.probe.ttr

/-- The segment of constant S that holds raw-sample index r (02 R41). -/
def planSeg (l : List PlanSeg) (r : Nat) : PlanSeg :=
  (l.find? fun g => decide (g.r0 ≤ r)).getD { r0 := 0, m0 := 0, s := 1 }

/-- m(r) (02 R41). -/
def mOf (l : List PlanSeg) (r : Nat) : Nat :=
  let g := planSeg l r
  g.m0 + (r - g.r0) / g.s

/-- j(r) (02 R41). -/
def jOf (l : List PlanSeg) (r : Nat) : Nat :=
  let g := planSeg l r
  (r - g.r0) % g.s

/-- E, or 0 before it is set. -/
def State.epochTick (s : State) : Nat := s.prb.epoch.getD 0

/-- t(r) (02 R41). -/
def State.launchTick (s : State) (r : Nat) : Nat :=
  let g := planSeg s.prb.segs r
  s.epochTick + (g.m0 + (r - g.r0) / g.s) * s.ttr + (r - g.r0) % g.s * (s.ttr / g.s)

/-- L in force at the launch of r. -/
def State.intervalAt (s : State) (r : Nat) : Nat := s.ttr / (planSeg s.prb.segs r).s

/-- The trace period whose boundary is the next to be processed (02 R39). -/
def State.nextM (s : State) : Nat := if s.prb.boundaryDone then s.prb.m + 1 else s.prb.m

/-- The tick of the boundary of trace period m. -/
def State.boundaryTick (s : State) (m : Nat) : Nat := s.epochTick + m * s.ttr

/-- The first boundary still to come at or after tick t: its trace period. -/
def State.boundaryFrom (s : State) (t : Nat) : Nat :=
  if s.ttr = 0 then 0 else max s.nextM (ceilDiv (t - s.epochTick) s.ttr)

/-- Segments of constant S, with a slot-plan amendment whose shadow tables are ready taken in at the next boundary (02 R59). -/
def State.planSegs (s : State) : List PlanSeg :=
  match s.prb.pend, s.prb.segs with
  | some a, g :: l =>
    if a.ready ∧ a.conf.probe.slots ≠ g.s ∧ a.conf.probe.slots ≠ 0 then
      { r0 := g.r0 + (s.nextM - g.m0) * g.s, m0 := s.nextM, s := a.conf.probe.slots } :: g :: l
    else g :: l
  | _, l => l

/-- Raw-sample index of the boundary of trace period m: its first launch position (02 R41). -/
def boundaryIdx (l : List PlanSeg) (m : Nat) : Nat :=
  let g := (l.find? fun g => decide (g.m0 ≤ m)).getD { r0 := 0, m0 := 0, s := 1 }
  g.r0 + (m - g.m0) * g.s

/-- The first raw-sample index launched at or after tick t. -/
def State.idxFrom (s : State) (t : Nat) : Nat :=
  if s.ttr = 0 then 0 else
  let l := s.planSegs
  let m := (t - s.epochTick) / s.ttr
  let g := (l.find? fun g => decide (g.m0 ≤ m)).getD { r0 := 0, m0 := 0, s := 1 }
  g.r0 + (m - g.m0) * g.s + ceilDiv (t - s.epochTick - m * s.ttr) (s.ttr / g.s)

/-- The raw-sample index at which what takes effect at the first boundary at or after tick t takes effect. -/
def State.boundaryIdxFrom (s : State) (t : Nat) : Nat := boundaryIdx s.planSegs (s.boundaryFrom t)

/-- The index a response reports for a boundary: 0 outside acquisition, where the boundary of the next acquisition's start applies. -/
def State.boundaryReport (s : State) (t : Nat) : Nat := if s.prb.epoch.isSome then s.boundaryIdxFrom t else 0

/-- k and the number of blocks processed at raw-sample index r (05 R129, R130). -/
def Til.kAt (x : Til) (r : Nat) : Nat × Nat × Nat := (x.kSegs.find? fun g => decide (g.1 ≤ r)).getD (0, 0, x.blocksRun)

/-- The shot of index r is thinned (05 R129): by the formula, which may thin the last index before a boundary under the k that ends there
(DESIGN CHOICE, log 81: the closing sentence of R129 says that no sample is thinned within two indices of a change of k). -/
def Til.thins (x : Til) (r : Nat) : Bool :=
  let (rk, k, _) := x.kAt r
  k != 0 && decide (rk < r) && decide ((r - rk) % k = k - 1)

/-- Blocks processed at raw-sample index r (05 R130). -/
def Til.blocksAt (x : Til) (r : Nat) : Nat := (x.kAt r).2.2

end Sys2Proof.Machine
end

