-- ==== Sys2Proof/Machine/Decim.lean ====
section
/-! DEFINITION. CIC, FIR, crossfades, settling, output flags, output rows and their timestamps (09 R192 to R214). What the block
sheaf does with the rows is in Machine/Tillers.lean. -/

namespace Sys2Proof.Machine

/-! ### Derived settings (09 R198, R206, R208) -/

/-- sc = ⌈4·log2 R⌉ (09 R198): the least sc with R⁴ ≤ 2^sc. -/
def cicShift (r : Nat) : Nat := log2Up (r ^ 4) 40 0

/-- N_set (09 R206). -/
def nSet (t r df : Nat) : Nat := ceilDiv (t + if 2 ≤ r then 4 else 0) df - 1

/-- N_fill (09 R208). -/
def nFill (pct r df : Nat) : Nat := max 1 (roundEven (pct * r * df) 100).toNat

/-- Bank n (09 R201): 0 A, 1 B, 2 M. -/
def Conf.bank (c : Conf) (n : Nat) : FirRec :=
  match n with
  | 0 => c.firA
  | 1 => c.firB
  | _ => c.firM

/-- Bank n set. -/
def Conf.setBank (c : Conf) (n : Nat) (f : FirRec) : Conf :=
  match n with
  | 0 => { c with firA := f }
  | 1 => { c with firB := f }
  | _ => { c with firM := f }

/-! ### Output grid (09 R192, R196) -/

/-- Raw samples per output on a grid. -/
def Grid.step (g : Grid) : Nat := g.cicR * g.firDf

/-- The grid that governs raw-sample index n. -/
def gridAt (l : List Grid) (n : Nat) : Option Grid := l.find? fun g => decide (g.ns ≤ n)

/-- q of the output whose newest raw sample is n, if n is one (09 R192). -/
def Grid.outAt (g : Grid) (n : Nat) : Option Nat :=
  if g.ns ≤ n ∧ g.step ≠ 0 ∧ (n - g.ns + 1) % g.step = 0 then some (g.q0 + (n - g.ns + 1) / g.step - 1) else none

/-- n_k of output q of a grid (09 R192). -/
def Grid.newest (g : Grid) (q : Nat) : Nat := g.ns + (q - g.q0 + 1) * g.step - 1

/-- q of the first output of a grid that begins at `ns` after grid `g` (09 R196). -/
def Grid.nextQ (g : Grid) (ns : Nat) : Nat := g.q0 + if g.step = 0 then 0 else (ns - g.ns) / g.step

/-- A restart of the grid at raw-sample index `ns` (09 R196); one at the same index replaces it. -/
def gridRestart (l : List Grid) (ns r df : Nat) : List Grid :=
  match l with
  | [] => [{ ns := ns, q0 := 0, cicR := r, firDf := df }]
  | g :: old =>
    if g.ns = ns then { g with cicR := r, firDf := df } :: old
    else { ns := ns, q0 := g.nextQ ns, cicR := r, firDf := df } :: g :: old

/-- The first output at or after raw-sample index `r1`, on the grid `g` and the grids pending after it in increasing index
(09 R202). -/
def firstOutput (g : Grid) (r1 : Nat) : List (Nat × Nat × Nat) → Nat
  | [] => max g.q0 (g.q0 + ceilDiv (r1 + 1 - g.ns) g.step - 1)
  | (ns, r, df) :: l =>
    let q := max g.q0 (g.q0 + ceilDiv (r1 + 1 - g.ns) g.step - 1)
    if g.step ≠ 0 ∧ g.newest q < ns then q else firstOutput { ns := ns, q0 := g.nextQ ns, cicR := r, firDf := df } r1 l

/-! ### Coefficient sets (09 R203) -/

/-- The crossfade that last began at or before output q. -/
def Dec.xfAt (d : Dec) (q : Nat) : Option Xfade :=
  match d.xf with
  | some x => if x.qx ≤ q then some x else d.sched.find? fun y => decide (y.qx ≤ q)
  | none => d.sched.find? fun y => decide (y.qx ≤ q)

/-- The bank or the two banks of output q with the crossfade position (09 R203): source, target, j and N_x. -/
inductive BankUse where
  | alone (b : Nat)
  | fade (f n j len : Nat)
  deriving DecidableEq, Repr

/-- What governs output q (09 R203). -/
def Dec.use (d : Dec) (q : Nat) : BankUse :=
  match d.xfAt q with
  | none => .alone d.bank0
  | some x => if q < x.qx + x.len then .fade x.src x.dst (q - x.qx) x.len else .alone x.dst

/-- w of R203. -/
def fadeW (j len : Nat) : Int := roundEven (32768 * (j + 1)) (len + 1)

/-- hx of output q (09 R203). -/
def BankUse.coefs (u : BankUse) (c : Conf) : List Int :=
  match u with
  | .alone b => (c.bank b).h
  | .fade f n j len =>
    let w := fadeW j len
    List.zipWith (fun a b => narrow (a * (32768 - w) + b * w) 15 16) (c.bank f).h (c.bank n).h

/-- gd of output q (09 R212). -/
def BankUse.delay (u : BankUse) (c : Conf) : Int :=
  match u with
  | .alone b => (c.bank b).gd
  | .fade f n j len => (c.bank f).gd + narrow (((c.bank n).gd - (c.bank f).gd : Int) * fadeW j len) 15 16

/-- MINPHASE of output q (09 R205). -/
def BankUse.minphase (u : BankUse) : Bool :=
  match u with
  | .alone b => b == 2
  | .fade f n _ _ => f == 2 || n == 2

/-- Output q lies inside a crossfade. -/
def BankUse.inFade (u : BankUse) : Bool :=
  match u with
  | .alone _ => false
  | .fade _ _ _ _ => true

/-! ### One position (09 R196, R197, R200, R208) -/

/-- Hard flags (09 R208). -/
def hardFlags : Nat := qTraining ||| qRange ||| qBeyond ||| qGap ||| qCorrupt

/-- Soft flags (09 R208). -/
def softFlags : Nat := qHeld ||| qFaded ||| qDegraded

/-- The decimator state of a position cleared at n_s (09 R196). -/
def PosState.restart (q : PosState) : PosState :=
  { q with
    ig := [0, 0, 0, 0], cd := [0, 0, 0, 0], dl := [], fph := 0, hf := 0, fresh := false, pc := 0, sf := 0, cnt := 0 }

/-- The integrators after a raw value (09 R197). -/
def integrate (x : Int) : List Int → List Int
  | [] => []
  | a :: l => wadd56 a x :: integrate (wadd56 a x) l

/-- The combs: the value that leaves and their new states (09 R197). -/
def comb (v : Int) : List Int → Int × List Int
  | [] => (v, [])
  | c :: l =>
    let (o, l') := comb (wsub56 v c) l
    (o, v :: l')

/-- A CIC output written into the delay line (09 R197). -/
def PosState.push (q : PosState) (t df : Nat) (c : Int) : PosState :=
  let dl := if q.dl = [] then List.replicate t 0 else q.dl
  { q with
    dl := dl.set q.wi c, wi := (q.wi + 1) % t,
    fph := if q.fph + 1 = df then 0 else q.fph + 1 }

/-- A raw value with index n enters the decimator (09 R197). -/
def PosState.decimate (q : PosState) (g : Grid) (t n : Nat) (x : Int) : PosState :=
  if g.cicR = 1 then q.push t g.firDf x
  else
    let ig := integrate x q.ig
    let q := { q with ig := ig }
    if (n - g.ns) % g.cicR ≠ g.cicR - 1 then q
    else
      let (v, cd) := comb (nth ig 3 0) q.cd
      { q with cd := cd }.push t g.firDf (narrow v (cicShift g.cicR) 16)

/-- y (09 R200): h[0] multiplies the newest CIC output. -/
def PosState.fir (q : PosState) (t : Nat) (h : List Int) : Int :=
  let newest := (q.dl.take q.wi).reverse ++ (q.dl.drop q.wi).reverse
  ((h.take t).zip newest).foldl (fun a e => accTake {} a (e.1 * e.2)) 0

/-- The flags of a raw sample taken in (09 R208). -/
def PosState.noteFlags (q : PosState) (f : Nat) : PosState :=
  let q := if hasFlag f hardFlags then { q with hf := q.hf ||| (f &&& hardFlags), fresh := true } else q
  if hasFlag f softFlags then { q with sf := q.sf ||| (f &&& softFlags), cnt := min (q.cnt + 1) 16383 } else q

/-- The output flags and the flag state after an output instant (09 R208). -/
def PosState.outFlags (q : PosState) (np nfill : Nat) : Nat × PosState :=
  let o := q.hf ||| (if nfill ≤ q.cnt then q.sf else 0)
  let pc := if q.fresh then np - 1 else q.pc - 1
  (o, { q with pc := pc, fresh := false, hf := if pc = 0 then 0 else q.hf, sf := 0, cnt := 0 })

/-! ### One row of raw samples through a block (08 R182; 09 R197 to R210) -/

/-- A position record after a read that met an uncorrectable error in its 64-bit word `w` (05 R125): every value stored in the word, in
whole or in part, is taken as 0. The record of T taps is laid out in the order of 01 R24 (DEDUCED, log 18): delay line, integrators,
combs, unwrap accumulator and last phase, the previous and the look-ahead raw sample, the flag and persistence bits, the write
index with the decimation phase and the crossfade position, the training shot count. -/
def PosState.zeroWord (q : PosState) (t w : Nat) : PosState :=
  let hit (o n : Nat) : Bool := decide (o < 8 * w + 8 ∧ 8 * w < o + n)
  let zero (l : List Int) (o n : Nat) : List Int := l.mapIdx fun i v => if hit (o + n * i) n then 0 else v
  let c := 2 * t
  let q := { q with dl := zero q.dl 0 2, ig := zero q.ig c 7, cd := zero q.cd (c + 28) 7 }
  let q := if hit (c + 56) 6 then { q with acc := 0 } else q
  let q := if hit (c + 62) 2 then { q with last := 0 } else q
  let q := if hit (c + 66) 2 then { q with pend := 0 } else q
  let q := if hit (c + 68) 4 then { q with pfl := 0, havePend := false, hf := 0, fresh := false, pc := 0, sf := 0, cnt := 0 } else q
  let q := if hit (c + 72) 2 then { q with wi := 0, fph := 0, xf := false } else q
  if hit (c + 74) 2 then { q with tcnt := 0 } else q

/-- What governs the raw value of index n of a block and the output it completes. -/
structure RowEnv where
  n : Nat
  grid : Grid
  scale : RawScale
  taps : Nat
  fill : Nat
  /-- The output, its bank use and coefficients, when n is the newest raw sample of one. -/
  out : Option (Nat × BankUse × List Int)
  deriving DecidableEq, Repr

/-- Output k of the grid is a settling output (09 R206). -/
def RowEnv.settling (e : RowEnv) (q : Nat) : Bool := decide (q - e.grid.q0 < nSet e.taps e.grid.cicR e.grid.firDf)

/-- What one position yields of a raw sample: the raw value emitted, and at an output its y and flag set. -/
structure PosOut where
  raw : Option RawOut
  y : Int
  fl : Nat
  deriving DecidableEq, Repr

/-- A raw sample through one position: R182, then R196 to R208 for the raw value it emits. `corrupt` sets CORRUPT on that raw
sample (05 R125). -/
def posStep (e : RowEnv) (corrupt : Bool) (q : PosState) (v : Raw) : PosState × PosOut :=
  let (q, o) := unwrapStep e.scale q v.v v.fl
  match o with
  | none => (q, { raw := none, y := 0, fl := 0 })
  | some o =>
    let o := if corrupt then { o with fl := o.fl ||| qCorrupt } else o
    let q := if e.n = e.grid.ns then q.restart else q
    let q := (q.noteFlags o.fl).decimate e.grid e.taps e.n o.x
    match e.out with
    | none => (q, { raw := some o, y := 0, fl := 0 })
    | some (k, use, h) =>
      let y := if e.settling k then 0 else q.fir e.taps h
      let ns := nSet e.taps e.grid.cicR e.grid.firDf
      let (fl, q) := q.outFlags (ns + 1) (nFill e.fill e.grid.cicR e.grid.firDf)
      let fl := fl ||| (if e.settling k then qSettling else 0) ||| (if use.minphase then qMinphase else 0)
      ({ q with xf := use.inFade }, { raw := some o, y := y, fl := fl })

/-- The 1,024 raw samples of a row (05 R120): a placeholder's all carry value 0 and its flags. -/
def Row.samples (r : Row) : List Raw := if r.data = [] then List.replicate 1024 { v := 0, fl := r.fl } else r.data

/-- The values of an output row packed (09 R210): words, XE, saturations. A settling output is zeros with exponent 0 (R207). -/
def packRow (settling : Bool) (y : List Int) : List Int × Int × Nat :=
  if settling then (y.map fun _ => 0, 0, 0)
  else
    let (sh, wd) := bfpPack y 16
    (wd, (sh : Int) - 15, packSat y sh 16)

/-- The OR of flag sets. -/
def orAll (l : List Nat) : Nat := l.foldl (fun a b => a ||| b) 0

/-! ### Timestamps (09 R212; 02 R46) -/

/-- The timestamp of an instant at tick x in 1/1,024 tick, with Δ added at its resolution (02 R46; 16 R345). -/
def State.tsDelta (s : State) (x : Int) : Nat := tsOf48 ((s.t1024 x : Int) + ps48 s.prb.lmonDrift 1).toNat

/-- t(a/256) in 1/1,024 tick for a raw-sample index in 1/256, interpolated (09 R212). -/
def State.launch1024 (s : State) (a : Int) : Int :=
  let r := (a / 256).toNat
  let f := if a < 0 then a else a % 256
  4 * (256 * (s.launchTick r : Int) + f * s.intervalAt r)

/-- The timestamp of output q (09 R212). -/
def State.outTs (s : State) (g : Grid) (q : Nat) : Nat :=
  let gd := 512 * ((g.cicR : Int) - 1) + g.cicR * (s.dec.use q).delay s.conf
  s.tsDelta (s.launch1024 (256 * (g.newest q : Int) - gd))

/-! ### Module-wide schedule (09 R195 to R207) -/

/-- The latest q completed in every processed block, plus one (09 R215 OUTSEQ). -/
def Dec.doneQ (d : Dec) (blocks : Nat) : Nat :=
  match (List.range blocks).map fun b => smGet 0 d.blockQ b with
  | [] => 0
  | a :: l => l.foldl min a

/-- A crossfade starts at its q_x: scheduled, counted, DEC_INT_STATUS.XF_START (09 R202). -/
def startXfade (s : State) (x : Xfade) : State :=
  let x := { x with started := true }
  let s := { s with dec := { s.dec with
    xf := some x, sched := x :: s.dec.sched, xfStart := x.qx, xfLen := x.len, swaps := satAdd 16 s.dec.swaps 1,
    int := s.dec.int.raise 2 } }
  s.setReq x.req .applied x.qx

/-- The crossfade end (09 R203, R204): bank N alone is in force; a pending request starts its own crossfade there. -/
def endXfade (s : State) (x : Xfade) : State :=
  let s := { s with dec := { s.dec with xf := none, bank := x.dst, int := s.dec.int.raise 3 } }
  match s.dec.swap with
  | none => s
  | some p =>
    let s := { s with dec := { s.dec with swap := none } }
    startXfade s { req := p.req, src := x.dst, dst := p.bank, qx := x.qx + x.len, len := p.len, started := true }

/-- Output q is produced for the first time: the crossfade schedule moves (09 R202 to R205). -/
def advanceXfade (s : State) (q : Nat) : State :=
  let s := match s.dec.xf with
    | none => s
    | some x =>
      if x.started ∧ x.qx + x.len ≤ q then endXfade s x
      else if !x.started ∧ x.qx ≤ q then startXfade s x else s
  { s with dec := { s.dec with minphase := (s.dec.use q).minphase } }

/-- Output q of block b is complete (09 R207, R215): OUTSEQ, and SETTLING ends with output N_set in every processed block. -/
def noteOutput (s : State) (b q : Nat) : State :=
  let d := { s.dec with blockQ := smSet 0 s.dec.blockQ b (q + 1) }
  let n := d.doneQ s.til.blocksRun
  let settled := match d.grids with
    | [] => false
    | g :: _ => d.settling && decide (g.q0 + nSet s.conf.dec.taps g.cicR g.firDf < n)
  { s with dec := { d with
      outSeq := if n = 0 then d.outSeq else n - 1,
      settling := d.settling && !settled, int := d.int.raiseIf settled 1 } }

/-- The grid restarts at raw-sample index `ns` (09 R196, R207). -/
def restartGrid (s : State) (ns : Nat) : State :=
  { s with dec := { s.dec with
      grids := gridRestart s.dec.grids ns s.conf.dec.cicR s.conf.dec.firDf
      settling := true } }

/-- An internal restart at the launch index `ns` (09 R196). -/
def internalRestart (s : State) (ns : Nat) : State :=
  let s := restartGrid s ns
  { s with dec := { s.dec with restarts := satAdd 16 s.dec.restarts 1 } }

/-- The pending external SYNC reaches its index at a boundary with first launch `ns` (09 R194). -/
def syncBoundary (s : State) (ns : Nat) : State :=
  match s.dec.syncPend with
  | none => s
  | some n =>
    if ns < n then s
    else
      let s := restartGrid s n
      { s with dec := { s.dec with syncPend := none, syncs := satAdd 16 s.dec.syncs 1, int := s.dec.int.raise 0 } }

/-- A SYNC with index n_s becomes pending (09 R195). -/
def takeSync (s : State) (ns : Nat) : State :=
  { s with dec := { s.dec with
      syncPend := some ns
      replaced := match s.dec.syncPend with
        | some n => if n = ns then s.dec.replaced else satAdd 16 s.dec.replaced 1
        | none => s.dec.replaced } }

/-- A SYNC that is ignored (09 R193). -/
def ignoreSync (s : State) : State := { s with dec := { s.dec with ignored := satAdd 16 s.dec.ignored 1 } }

/-- n_s of a SYNC seen now: the index of the first boundary at least 1 ms later (09 R194). -/
def State.syncIndex (s : State) : Nat := s.boundaryIdxFrom (s.tim.tick + msTicks)

/-- The boundary at which a probe-comb amendment is to take effect (02 R58, R59): the next one once its tables are ready, else the first
one by which they must be. -/
def State.probeDue (s : State) (a : PendAmend) : Nat :=
  if a.ready then boundaryIdx s.planSegs s.nextM else s.boundaryIdxFrom (a.tick + 2 * msTicks)

/-- The boundary at which a PHASE amendment is to take effect (08 R189): with the amendment it joined, or its own. -/
def State.phaseDue (s : State) (a : PendAmend) : Nat :=
  if a.ready then s.boundaryIdxFrom (a.tick + 2 * msTicks)
  else match s.prb.pend, s.coh.winPend with
    | some p, _ => s.probeDue p
    | none, some w => s.boundaryIdxFrom (w.tick + 2 * msTicks)
    | none, none => boundaryIdx s.planSegs s.nextM

/-- The restarts of the decimators pending now (09 R196, R202): their index and, where they change them, R and D_F: plan, pitch or N_G
amended, QUANTITY, RAW_LSB, SS or LAMBDA amended, CIC_R or FIR_DF amended, and the external SYNC. -/
def pendingRestarts (s : State) : List (Nat × Option (Nat × Nat)) :=
  let c := s.conf
  (match s.prb.pend with
   | some a =>
     let q := a.conf.probe
     if q.plan ≠ c.probe.plan ∨ q.pitchLog2 ≠ c.probe.pitchLog2 ∨ q.ng ≠ c.probe.ng then [(s.probeDue a, none)] else []
   | none => []) ++
  (match s.coh.phPend with
   | some a =>
     let q := a.conf.phase
     if q.quantity ≠ c.phase.quantity ∨ q.rawLsb ≠ c.phase.rawLsb ∨ q.ss ≠ c.phase.ss ∨ q.lambda ≠ c.phase.lambda
     then [(s.phaseDue a, none)] else []
   | none => []) ++
  s.dec.pend.map (fun a => (s.boundaryIdxFrom (a.tick + 2 * msTicks), some (a.conf.dec.cicR, a.conf.dec.firDf))) ++
  (match s.dec.syncPend with
   | some n => [(n, none)]
   | none => [])

/-- The grids pending now: index, R, D_F, in increasing index (09 R202). An amendment that leaves R and D_F as they are restarts
nothing. -/
def pendingGrids (s : State) : List (Nat × Nat × Nat) :=
  let c := s.conf.dec
  (orderBy (fun a b => decide (a.1 ≤ b.1)) (pendingRestarts s)).foldl (fun l e =>
    let was := (l.getLast?.map fun e => e.2).getD (c.cicR, c.firDf)
    match e.2 with
    | some x => if x = was then l else (l.filter fun y => y.1 != e.1) ++ [(e.1, x)]
    | none => if l.any fun y => y.1 == e.1 then l else l ++ [(e.1, was)]) []

/-- q_x of a swap accepted now (09 R202). -/
def State.swapStart (s : State) : Nat :=
  match s.dec.grids with
  | [] => 0
  | g :: _ => firstOutput g (s.idxFrom (s.tim.tick + msTicks)) (pendingGrids s)

/-- The bank in force (09 R201, R521): before the first acquisition start after a reset, BANK_INIT. -/
def State.bankNow (s : State) : Nat := if s.dec.bankSet then s.dec.bank else s.conf.dec.bankInit

/-- Banks that outputs still to be computed may use: in force, source or target of a crossfade begun whose outputs are not all
complete in every block, target of a pending or held swap (09 R201). -/
def Dec.bankBusy (d : Dec) (b blocks : Nat) : Bool :=
  d.bank == b ||
  (match d.xf with | some x => x.src == b || x.dst == b | none => false) ||
  (match d.swap with | some x => x.bank == b | none => false) ||
  (match d.heldSwap with | some x => x.bank == b | none => false) ||
  (d.sched.any fun x => x.src == b && decide (d.doneQ blocks < x.qx + x.len))

/-- Acquisition start (09 R201, R207, R521): counters of the grid, the bank in force, the restart at index 0. -/
def decAcqStart (s : State) : State :=
  let bank := match s.dec.heldSwap with
    | some h => h.bank
    | none => s.bankNow
  let s' := match s.dec.heldSwap with
    | some h => s.setReq h.req .applied 0
    | none => s
  let s := { s' with dec := { s'.dec with
    running := true, grids := [], syncPend := none, bank := bank, bank0 := bank, bankSet := true, heldSwap := none, sched := [],
    fills := [(0, s.conf.dec.fillPct)], outSeq := 0, blockQ := [], loads := [0, 0, 0], minphase := bank == 2 } }
  internalRestart s 0

/-- A request becomes SUPERSEDED with DEC_INT_STATUS.SUPERSEDED (09 R204). -/
def supersedeSwap (s : State) (req : Nat) : State :=
  let s := { s with dec := { s.dec with superseded := satAdd 16 s.dec.superseded 1, int := s.dec.int.raise 4 } }
  s.setReq req .superseded 0

/-- When acquisition ends (09 R521): a crossfade begun ends with its target in force; of the requests that wait (one for its q_x, one
pending, one held since acquisition mode was left) the latest is held and the others are superseded. -/
def decAcqEnd (s : State) : State :=
  let d := s.dec
  let begun := d.xf.filter Xfade.started
  let waiting := (d.xf.filter fun x => !x.started).toList.map fun x => ({ req := x.req, bank := x.dst, len := x.len } : SwapReq)
  let all := waiting ++ d.swap.toList ++ d.heldSwap.toList
  let s := { s with dec := { d with
    running := false, syncPend := none, settling := false, xf := none, swap := none, sched := []
    heldSwap := all.getLast?, bank := (begun.map Xfade.dst).getD d.bank, int := d.int.raiseIf begun.isSome 3 } }
  all.dropLast.foldl (fun s p => supersedeSwap s p.req) s

/-- BANK_SWAP (09 R202, R204, R521; 18 R400): the answer reports q_x. During a crossfade every request is deferred; one for the
crossfade's own target leaves nothing pending, and is reported as applied with that crossfade (DESIGN CHOICE, log 78). -/
def bankSwapCmd (s : State) (target nx : Nat) : State × Response :=
  let len := if nx = 0 then s.conf.dec.xfadeLen else nx
  if 2 < target ∨ (nx ≠ 0 ∧ (nx < 16 ∨ 4096 < nx)) ∨ (s.conf.bank target).loaded = false then (s, plain .invalid)
  else if s.acquiring then
    match s.dec.xf with
    | none =>
      if target = s.dec.bank then (s, plain .ok)
      else
        let qx := s.swapStart
        let (id, s) := s.newReq
        ({ s with dec := { s.dec with
            xf := some { req := id, src := s.dec.bank, dst := target, qx := qx, len := len, started := false }
            xfStart := qx, xfLen := len } }, withData .deferred (reqData id qx))
    | some x =>
      let s := match s.dec.swap with
        | some p => supersedeSwap { s with dec := { s.dec with swap := none } } p.req
        | none => s
      let (id, s) := s.newReq
      if target = x.dst then (s.setReq id .applied x.qx, withData .deferred (reqData id x.qx))
      else
        ({ s with dec := { s.dec with swap := some { req := id, bank := target, len := len } } },
          withData .deferred (reqData id (x.qx + x.len)))
  else
    match s.dec.heldSwap with
    | none =>
      if target = s.bankNow then (s, plain .ok)
      else
        let (id, s) := s.newReq
        ({ s with dec := { s.dec with heldSwap := some { req := id, bank := target, len := len } } },
          withData .deferred (reqData id 0))
    | some p =>
      let s := supersedeSwap s p.req
      let (id, s) := s.newReq
      ({ s with dec := { s.dec with heldSwap := some { req := id, bank := target, len := len } } },
        withData .deferred (reqData id 0))

end Sys2Proof.Machine
end

