-- ==== Sys2Proof/Machine/Memory.lean ====
section
/-! DEFINITION. The DRAM controller: address map, scheduling, refresh, self-refresh, errors and sparing (14 R294 to R315). -/

namespace Sys2Proof.Machine

/-! ### Capacity and address map (14 R295 to R298) -/

/-- Raw DRAM in GiB (00 R2). -/
def State.dramGib (s : State) : Nat := if s.fuses.order = 0 then 32 else 16

/-- Usable capacity in bytes: 7/8 of the raw capacity (14 R295). -/
def State.dramUsable (s : State) : Nat := s.dramGib * 7 / 8 * 2 ^ 30

/-- Parity of a number's low `n` bits. -/
def parityFrom (x : Nat) : Nat → Bool
  | 0 => false
  | n + 1 => xor (x.testBit n) (parityFrom x n)

/-- Parity of the selected bits of a row slot. -/
def parity (x : Nat) : Nat := b2n (parityFrom x 24)

/-- Where a usable byte lies (14 R296). -/
structure DramLoc where
  channel : Nat
  bank : Nat
  row : Nat
  col : Nat
  deriving DecidableEq, Repr

/-- Row slot of a usable byte address (14 R296). -/
def dramSlot (a : Nat) : Nat := a / 64 / 28

/-- Channel of a row slot under the masks (14 R296). -/
def slotChannel (d : DramRec) (s : Nat) : Nat :=
  parity (s &&& nth d.chmask 0 0) + 2 * parity (s &&& nth d.chmask 1 0) + 4 * parity (s &&& nth d.chmask 2 0)

/-- Bank of a row slot under the masks (14 R296). -/
def slotBank (d : DramRec) (s : Nat) : Nat :=
  parity (s &&& nth d.bkmask 0 0) + 2 * parity (s &&& nth d.bkmask 1 0) +
    4 * parity (s &&& nth d.bkmask 2 0) + 8 * parity (s &&& nth d.bkmask 3 0)

/-- The column of a row slot (14 R296). -/
def slotLoc (d : DramRec) (s col : Nat) : DramLoc := { channel := slotChannel d s, bank := slotBank d s, row := s / 128, col := col }

/-- The address map (14 R296). -/
def dramMap (d : DramRec) (a : Nat) : DramLoc := slotLoc d (dramSlot a) (a / 64 % 28)

/-- Where the eight check bytes of a data column lie in its row: column and byte offset (14 R295). -/
def checkPlace (col : Nat) : Nat × Nat := (28 + col / 8, 8 * (col % 8))

/-- Row slot of spare i (14 R313): the pool is the last 512 whole row slots of the system reserve (DESIGN CHOICE, log 77: the spec puts
it inside the reserve). -/
def spareSlot (i : Nat) : Nat := 512 * 2 ^ 20 / 1792 - 512 + i

/-- The row slot that serves slot `x` under the blacklist (14 R312): a redirected slot is served by its spare, which may itself have
been redirected. -/
def redirect (b : SMap (Option Nat)) : Nat → Nat → Nat
  | 0, x => x
  | fuel + 1, x =>
    match b.find? fun e => e.2 == some x with
    | some e => redirect b fuel (spareSlot e.1)
    | none => x

/-- The row slot that serves a usable address. -/
def State.slotOf (s : State) (a : Nat) : Nat := redirect s.aos.dram 512 (dramSlot a)

/-- Where a usable address is served. -/
def State.dramAt (s : State) (a : Nat) : DramLoc := slotLoc s.conf.dram (s.slotOf a) (a / 64 % 28)

/-! ### Regions and their layouts (10 R233; 13 R271; 14 R299) -/

/-- Largest slot count of an ordering code (00 R2). -/
def slotsMax (order : Nat) : Nat := if order = 0 then 128 else 64

/-- Bytes of the quasi-static region (10 R233). -/
def qsBytes (order : Nat) (c : Conf) : Nat := if c.qs.present then c.probe.p * (10 * slotsMax order + 8) + 16 * c.probe.nblocks else 0

/-- Bytes of the system reserve, which comes first (14 R299). -/
def reserveBytes : Nat := 512 * 2 ^ 20

/-- The regions of the usable map after the system reserve, as (base, size) (14 R299). -/
def regionsOf (order : Nat) (c : Conf) : List (Nat × Nat) :=
  let h := c.acq.histGib * 2 ^ 30
  let r := c.acq.recStoreGib * 2 ^ 30
  let w := c.acq.rawcapGib * 2 ^ 30
  let base := reserveBytes
  [(base, h), (base + h, r), (base + h + r, w), (base + h + r + w, qsBytes order c)]

/-- The 4,128 bytes of a stored row (13 R271). -/
def OutRow.stored (r : OutRow) : List Byte :=
  leBytes 8 r.q ++ leBytes 12 (tsLayout r.ts) ++ leBytes 2 r.block ++ leBytes 1 (ofInt 8 r.xe) ++
    leBytes 1 (b2n r.lost + 2 * b2n r.shed) ++ leBytes 2 r.rowq ++ zeros 6 ++
    ((List.range 1024).flatMap fun j => leBytes 2 (ofInt 16 (nth r.words j 0))) ++
    ((List.range 1024).flatMap fun j => leBytes 2 (nth r.flags j 0))

/-- Key of the stored row of output q and block b in a ring of D_h slots: output q occupies slot q mod D_h (13 R271). -/
def ringKey (depth q b : Nat) : Nat := q % depth * 128 + b

/-- Usable address of a stored row (13 R271): a slot holds one row for each configured block. -/
def State.rowAddr (s : State) (q b : Nat) : Nat :=
  reserveBytes + (q % s.acq.depth * s.conf.probe.nblocks + b) * 4128

/-- The byte of the history ring at offset `o` of its region; 0 where no row has been stored (log 11). -/
def State.ringByte (s : State) (o : Nat) : Byte :=
  let i := o / 4128
  let n := s.conf.probe.nblocks
  match smGet none s.acq.ring (i / n * 128 + i % n) with
  | some r => nth r.stored (o % 4128) 0
  | none => 0

/-- Key of an accumulator (10 R233). -/
def accKey (buf p k : Nat) : Nat := (buf * 131072 + p) * 128 + k

/-- Bytes of the quasi-static region per block with S_max slots (10 R233). -/
def qsBlockBytes (m : Nat) : Nat := 16 + 2 * 1024 * 4 * m + 1024 * 2 * m + 1024 * 8

/-- Usable address of block b in the quasi-static region. -/
def State.qsBase (s : State) (b : Nat) : Nat :=
  (nth (regionsOf s.fuses.order s.conf) 3 (0, 0)).1 + b * qsBlockBytes (slotsMax s.fuses.order)

/-- Usable address of the accumulators of position p in a buffer (10 R233). -/
def State.accAddr (s : State) (buf p : Nat) : Nat :=
  s.qsBase (p / 1024) + 16 + (buf * 1024 + p % 1024) * (4 * slotsMax s.fuses.order)

/-- Usable address of the reference of position p (10 R233). -/
def State.refAddr (s : State) (p : Nat) : Nat :=
  s.qsBase (p / 1024) + 16 + (4 * 2048 + 2 * (p % 1024)) * slotsMax s.fuses.order

/-- Usable address of the reference state of position p (10 R233). -/
def State.refStateAddr (s : State) (p : Nat) : Nat :=
  s.qsBase (p / 1024) + 16 + 10 * 1024 * slotsMax s.fuses.order + 8 * (p % 1024)

/-- The eight bytes of a reference state: B, o_r, NOREF (10 R233). -/
def refStateBytes (x : Option QsRef) : List Byte :=
  match x with
  | some r => leBytes 4 (ofInt 32 r.base) ++ leBytes 2 (ofInt 16 r.offset) ++ zeros 2
  | none => zeros 6 ++ leBytes 2 1

/-- The byte of the quasi-static region at offset `o`: accumulators, references and reference states of its blocks (10 R233). The
encoding of the 16-byte block header is not stated: its bytes are free values (log 77). -/
def State.qsByte (s : State) (o : Nat) : Byte :=
  let m := slotsMax s.fuses.order
  let b := o / qsBlockBytes m
  let x := o % qsBlockBytes m
  if x < 16 then Config.freeByte (s.free + o)
  else
    let x := x - 16
    if x < 2048 * 4 * m then
      let p := 1024 * b + x / (4 * m) % 1024
      nth (leBytes 4 (smGet 0 s.qss.acc (accKey (x / (4096 * m)) p (x % (4 * m) / 4)))) (x % 4) 0
    else
      let x := x - 2048 * 4 * m
      if x < 1024 * 2 * m then
        let r := smGet none s.qss.refs (1024 * b + x / (2 * m))
        nth (leBytes 2 (ofInt 16 (match r with | some r => nth r.ref (x % (2 * m) / 2) 0 | none => 0))) (x % 2) 0
      else
        let x := x - 1024 * 2 * m
        nth (refStateBytes (smGet none s.qss.refs (1024 * b + x / 8))) (x % 8) 0

/-- The byte at a usable address (14 R299; log 77): the history ring and the quasi-static region hold what their owners have stored,
in the layouts of R271 and R233; the patterns of R301 stay, with values the spec does not state, until they are written over; every
other byte is the one last written. -/
def State.dramByte (s : State) (a : Nat) : Byte :=
  let g := regionsOf s.fuses.order s.conf
  let h := nth g 0 (0, 0)
  let q := nth g 3 (0, 0)
  if h.1 ≤ a ∧ a < h.1 + s.acq.depth * s.conf.probe.nblocks * 4128 then s.ringByte (a - h.1)
  else if q.1 ≤ a ∧ a < q.1 + q.2 then s.qsByte (a - q.1)
  else match s.mem.pattern with
    | some n => if a < 2 ^ 20 ∧ s.mem.patternGone.contains (a / 64) = false then Config.freeByte (n + a) else smGet 0 s.mem.data a
    | none => smGet 0 s.mem.data a

/-- The 64 bytes of the unit of a usable address. -/
def State.unitBytes (s : State) (a : Nat) : List Byte := (List.range 64).map fun i => s.dramByte (a / 64 * 64 + i)

/-- A read of `n` bytes from a usable address meets a poisoned unit (14 R312). -/
def Mem.poisoned (m : Mem) (a n : Nat) : Bool := m.poison.any fun u => decide (a / 64 ≤ u ∧ u ≤ (a + n - 1) / 64)

/-- The units that `n` bytes from a usable address on write in full are poisoned no longer (14 R312). -/
def Mem.rewritten (m : Mem) (a n : Nat) : Mem :=
  { m with poison := m.poison.filter fun u => !decide (a ≤ 64 * u ∧ 64 * u + 64 ≤ a + n) }

/-! ### Panic (14 R305) -/

/-- Some real-time port is in panic. -/
def Mem.inPanic (m : Mem) : Bool := m.panic.any id

/-- Bytes of the FIFO of a real-time port (14 R305). -/
def fifoBytes (p : Nat) : Nat := if p = 2 then 2 ^ 20 else 256 * 2 ^ 10

/-- One tRFCpb, 140 ns, in ticks (14 R306). -/
def refreshTicks : Nat := 560

/-- Debt repaid by tick `t` outside panic: one refresh at the bank's first free slot, then one every tRFCpb (14 R307). -/
def Bank.settle (b : Bank) (t : Nat) : Bank :=
  if b.debt = 0 ∨ t < b.repayAt then b
  else
    let n := min b.debt ((t - b.repayAt) / refreshTicks + 1)
    { b with debt := b.debt - n, repayAt := b.repayAt + n * refreshTicks, openRow := none }

/-- Debt of every channel outside self-refresh repaid by tick `t` (14 R307): none is repaid in panic. -/
def Mem.settle (m : Mem) (t : Nat) : Mem :=
  if m.inPanic then m
  else { m with chans := m.chans.map fun c => if c.selfRef then c else { c with banks := c.banks.map fun b => b.settle t } }

/-- Panic ends at tick `t`: repayment may begin (14 R307). -/
def Mem.panicOver (m : Mem) (t : Nat) : Mem :=
  { m with chans := m.chans.map fun c => { c with banks := c.banks.map fun b => { b with repayAt := max b.repayAt t } } }

/-- `fill` bytes wait for the FIFO of a real-time port (14 R305): what does not fit overflows it, and the data the port writes next are
lost; panic begins at PANIC_THR percent and ends at PANIC_CLR percent. -/
def setFill (s : State) (p fill : Nat) : State :=
  if 2 < p then s else
  let was := nth s.mem.panic p false
  let size := fifoBytes p
  let held := min fill size
  let now := if was then decide (s.conf.dram.panicClr * size < 100 * held) else decide (s.conf.dram.panicThr * size ≤ 100 * held)
  let enters := now && !was
  let m := { s.mem with
    fill := modAt s.mem.fill p fun _ => held
    overflow := modAt s.mem.overflow p fun o => o || decide (size < fill)
    fillHigh := modAt s.mem.fillHigh p fun f => max f (100 * held / size)
    panic := modAt s.mem.panic p fun _ => now
    panics := modAt s.mem.panics p fun c => if enters then satAdd 16 c 1 else c
    int := s.mem.int.raiseIf enters 4 }
  { s with mem := if s.mem.inPanic && !m.inPanic then m.panicOver s.tim.tick else m }

/-- The overflow of a real-time port's FIFO taken by the data it loses (14 R305). -/
def Mem.lose (m : Mem) (p : Nat) : Bool × Mem := (nth m.overflow p false, { m with overflow := modAt m.overflow p fun _ => false })

/-! ### Scheduling (14 R302 to R304) -/

/-- Class of a request (14 R304). -/
def reqClass (m : Mem) (q : MemReq) : Nat :=
  if q.req.code ≤ 2 then (if nth m.panic q.req.code false then 1 else 2)
  else if q.promoted then 2
  else q.req.code

/-- A request may be granted now: its row is not under test (14 R312), and it is no scrub while a port is in panic (R305). -/
def State.reqReady (s : State) (q : MemReq) : Bool :=
  let l := s.dramAt q.req.addr
  !(s.mem.tests.any fun t => t.ch == l.channel && t.bank == l.bank && t.row == l.row) && !(q.req.code == 6 && s.mem.inPanic)

/-- The request to be granted next: the lowest class, in arrival order within a class (14 R304). -/
def State.pickReq (s : State) (l : List MemReq) : Option MemReq :=
  l.foldl (fun b q => if !s.reqReady q then b else
    match b with
    | none => some q
    | some c => if reqClass s.mem q < reqClass s.mem c then some q else b) none

/-- A request enters its channel where an entry is free: 64, of which 8 are kept for the real-time ports; else it waits
(14 R303). -/
def Channel.arrive (c : Channel) (q : MemReq) : Channel :=
  let cap := if q.req.code ≤ 2 then 64 else 56
  let used := if q.req.code ≤ 2 then c.queue.length else (c.queue.filter fun x => decide (2 < x.req.code)).length
  if used < cap ∧ c.queue.length < 64 then { c with queue := c.queue ++ [q] } else { c with waiting := c.waiting ++ [q] }

/-- Channel n changed. -/
def Mem.modCh (m : Mem) (n : Nat) (f : Channel → Channel) : Mem := { m with chans := modAt m.chans n f }

/-- The page policy at an access to a row (14 R302): the predictor moves; 2 or 3 closes the row, 0 or 1 leaves it open. -/
def Bank.access (b : Bank) (row : Nat) : Bank :=
  let p := if b.lastRow = some row then b.pred - 1 else min 3 (b.pred + 1)
  { b with pred := p, lastRow := some row, openRow := if p ≤ 1 then some row else none }

/-- The 64 bytes of a unit last written. -/
def readUnit (m : SMap Byte) (a : Nat) : List Byte := (List.range 64).map fun i => smGet 0 m (a / 64 * 64 + i)

/-- A unit written in full. -/
def writeUnit (m : SMap Byte) (a : Nat) (l : List Byte) : SMap Byte :=
  smSetAll 0 m ((List.range 64).map fun i => (a / 64 * 64 + i, nth l i 0))

/-- A row test begins for an error, or the error joins the test of its row (14 R312; 22 R485). -/
def startRowTest (m : Mem) (l : DramLoc) (q : DramReq) (syn : Nat) : Mem :=
  if m.tests.any fun t => t.ch == l.channel && t.bank == l.bank && t.row == l.row then m
  else { m with tests := m.tests ++
    [{ ch := l.channel, bank := l.bank, row := l.row, addr := q.addr, code := q.code, syndrome := syn }] }

/-- The unit of an address holds `d`: written in full, it is poisoned no longer (14 R295, R312). -/
def Mem.store (m : Mem) (a : Nat) (d : List Byte) : Mem :=
  { m with data := writeUnit m.data a d, poison := m.poison.filter fun x => x != a / 64,
           patternGone := if m.pattern.isSome then addOnce m.patternGone (a / 64) else m.patternGone }

/-- The positions whose reference or reference state has a word in the unit of an address: an uncorrectable error there clears them
(10 R230). The error response covers the unit, so each of them is taken as affected (DESIGN CHOICE, log 77). -/
def State.refsIn (s : State) (u : Nat) : List Nat :=
  (s.qss.refs.map Prod.fst).filter fun p =>
    decide (s.refAddr p < 64 * u + 64 ∧ 64 * u < s.refAddr p + 2 * slotsMax s.fuses.order) ||
      decide (s.refStateAddr p < 64 * u + 64 ∧ 64 * u < s.refStateAddr p + 8)

/-- What a granted read, or the read of a read-modify-write, meets in its unit (14 R311, R312): nothing, a corrected error, or an
uncorrectable one, each error counted and starting the test of its row. -/
def readUnitOf (s : State) (q : MemReq) (l : DramLoc) : State × Option (List Byte) :=
  let u := q.req.addr / 64
  let ecc := if s.mem.poison.contains u then EccResult.uncorrectable 0 else q.ecc
  let d := s.unitBytes q.req.addr
  match ecc with
  | .clean => (s, some d)
  | .corrected syn =>
    let m := startRowTest s.mem l q.req syn
    ({ s with mem := { m with ce := satAdd 32 m.ce 1, int := m.int.raise 0 } }, some d)
  | .uncorrectable syn =>
    let m := startRowTest s.mem l q.req syn
    let gone := s.refsIn u
    ({ s with
        mem := { m with
          poison := addOnce m.poison u
          ue := satAdd 32 m.ue 1, int := m.int.raise 1
          err := { addr := q.req.addr, ch := l.channel, bank := l.bank, req := q.req.code, lasting := false, row := l.row } }
        qss := { s.qss with refs := smDrop s.qss.refs fun p => gone.contains p, int := s.qss.int.raiseIf (gone != []) 3 } }, none)

/-- A granted access (14 R295, R302, R311, R312): a write of the full unit stores it without a read; a write of part of it is a
read-modify-write of the whole unit, which an uncorrectable error leaves unwritten (log 77); a read returns the data, corrected, or the
error response. -/
def memAccess (s : State) (q : MemReq) : State :=
  let l := s.dramAt q.req.addr
  let s := { s with mem := s.mem.modCh l.channel fun c => { c with banks := modAt c.banks l.bank fun b => b.access l.row } }
  match q.req.write with
  | some (o, d) =>
    if 64 ≤ d.length then { s with mem := s.mem.store q.req.addr d }
    else match readUnitOf s q l with
      | (s, some old) => { s with mem := s.mem.store q.req.addr (old.take o ++ d ++ old.drop (o + d.length)) }
      | (s, none) => s
  | none =>
    let (s, d) := readUnitOf s q l
    { s with mem := { s.mem with lastRead := some (q.req.addr, d) } }

/-- Waiting requesters enter while entries are free (14 R303). -/
def Channel.letIn (c : Channel) : Channel :=
  c.waiting.foldl (fun c q => c.arrive q) { c with waiting := [] }

/-- Grants on channel n until none is ready, at most `fuel` (14 R304); none before the check of R301 has passed. -/
def grantLoop (s : State) (n : Nat) : Nat → State
  | 0 => s
  | fuel + 1 =>
    let c := nth s.mem.chans n {}
    if c.selfRef ∨ s.mem.ready = false then s else
    match s.pickReq c.queue with
    | none => s
    | some q =>
      let s := { s with mem := s.mem.modCh n fun c => ({ c with queue := c.queue.erase q } : Channel).letIn }
      grantLoop (memAccess s q) n fuel

/-- The channel grants what it can. -/
def grantAll (s : State) (n : Nat) : State :=
  let c := nth s.mem.chans n {}
  grantLoop s n (c.queue.length + c.waiting.length)

/-- A channel leaves self-refresh (14 R302, R309, R310): predictors are 1, and mode register 4 is to be read. -/
def exitSelfRef (s : State) (n : Nat) : State :=
  { s with mem := s.mem.modCh n fun c => { c with
      selfRef := false, mr4Due := true, banks := c.banks.map fun b => { b with pred := 1, openRow := none } } }

/-- A request arrives and the controller grants what is ready on its channel (14 R303 to R305). A real-time port that reaches
panic forces self-refresh exit at once (R309). -/
def dramArrive (s : State) (q : DramReq) (ecc : EccResult) (fill : Nat) : State :=
  let s := { s with mem := s.mem.settle s.tim.tick }
  let s := setFill s q.code fill
  let n := (s.dramAt q.addr).channel
  let s := { s with mem := s.mem.modCh n fun c =>
    { c.arrive { req := q, ecc := ecc, promoted := false } with lastReq := s.tim.tick } }
  let s := if q.code ≤ 2 ∧ nth s.mem.panic q.code false ∧ (nth s.mem.chans n {}).selfRef then exitSelfRef s n else s
  grantAll s n

/-- A request of class 3 to 5 that has waited MEM_AGE is promoted to class 2 (14 R304). -/
def promote (s : State) (n i : Nat) : State :=
  let s := { s with mem := s.mem.modCh n fun c => { c with
      queue := modAt c.queue i fun q => if 3 ≤ q.req.code ∧ q.req.code ≤ 5 then { q with promoted := true } else q } }
  grantAll s n

/-! ### Refresh (14 R306 to R308) -/

/-- A debt in units of the new interval: doubled for each step to a hotter band, halved and rounded up for each step to a
colder one (14 R308). -/
def convertDebt (d old new : Nat) : Nat :=
  if old ≤ new then d * 2 ^ (new - old) else ceilDiv d (2 ^ (old - new))

/-- DATA of a refresh-burst entry: bank, old and new band, burst length (22 R489; log 13). -/
def burstData (bank old new n : Nat) : List Byte := leBytes 4 bank ++ leBytes 4 old ++ leBytes 4 new ++ leBytes 4 n

/-- Bank i's debt converted; the excess over 8 is issued as a burst (14 R308). -/
def convertBank (s : State) (n old new i : Nat) : State :=
  let d := convertDebt (nth (nth s.mem.chans n {}).banks i {}).debt old new
  let excess := d - 8
  let m := s.mem.modCh n fun c => { c with banks := modAt c.banks i fun b =>
    { b with debt := min d 8, openRow := if excess = 0 then b.openRow else none } }
  if excess = 0 then { s with mem := m }
  else ({ s with mem := { m with refburst := satAdd 32 m.refburst excess, int := m.int.raise 3 } } : State).log
    0x0602 0 n (burstData i old new excess)

/-- A band reported takes effect at the first refresh due after it (14 R306). -/
def applyBand (s : State) (n : Nat) : State :=
  let c := nth s.mem.chans n {}
  match c.newBand with
  | none => s
  | some b =>
    let s := { s with mem := s.mem.modCh n fun c => { c with band := b, newBand := none } }
    (List.range 16).foldl (fun s i => convertBank s n c.band b i) s

/-- A refresh of bank i falls due on channel n (14 R306, R307): issued outside panic; in panic it is postponed and the debt rises, and
at a debt of 8 it is issued at once. None falls due in self-refresh, nor after it before mode register 4 has been read (R310). -/
def refreshDue (s : State) (n i : Nat) : State :=
  if (nth s.mem.chans n {}).selfRef ∨ (nth s.mem.chans n {}).mr4Due then s else
  let s := applyBand { s with mem := s.mem.settle s.tim.tick } n
  let d := (nth (nth s.mem.chans n {}).banks i {}).debt
  if s.mem.inPanic ∧ d < 8 then
    let m := s.mem.modCh n fun c => { c with banks := modAt c.banks i fun b => { b with debt := d + 1 } }
    { s with mem := { m with postponed := satAdd 32 m.postponed 1 } }
  else { s with mem := s.mem.modCh n fun c => { c with banks := modAt c.banks i fun b =>
    { b with repayAt := max b.repayAt (s.tim.tick + refreshTicks), openRow := none } } }

/-- Mode register 4 of channel n reports a band (14 R306): it takes effect at the next refresh due; band 2 sets HOT and writes a
fault-log entry when it is entered. The register is not read in self-refresh (R310). -/
def mr4Read (s : State) (n band : Nat) : State :=
  let c := nth s.mem.chans n {}
  if c.selfRef then s else
  let band := min band 2
  let cur := c.newBand.getD c.band
  let s := { s with mem := s.mem.modCh n fun c => { c with newBand := if band = c.band then none else some band, mr4Due := false } }
  if band = 2 ∧ cur ≠ 2 then
    ({ s with mem := { s.mem with int := s.mem.int.raise 5 } } : State).log 0x0603 0 n []
  else s

/-! ### Self-refresh (14 R309, R310) -/

/-- The time in µs without a request after which a channel enters self-refresh (14 R309, R310): 200 µs in sleep; else MEM_SR_IDLE,
and none when it is 0. -/
def State.srIdle (s : State) : Option Nat :=
  if s.mode = 1 then some 200 else if s.conf.dram.srIdle = 0 then none else some s.conf.dram.srIdle

/-- A channel without a request for its idle time enters self-refresh and first issues every debt (14 R309, R310): a request that
arrives in the cycle in which the time expires comes before it (01 R26). -/
def enterSelfRef (s : State) (n : Nat) : State :=
  let c := nth s.mem.chans n {}
  match s.srIdle with
  | none => s
  | some us =>
  if c.selfRef ∨ c.queue ≠ [] ∨ c.waiting ≠ [] ∨ s.mem.ready = false then s else
  let s := s.expire (c.lastReq + 4000 * us)
  let m := s.mem.modCh n fun c => { c with
    selfRef := true, banks := c.banks.map fun b => { b with debt := 0, openRow := none } }
  { s with mem := { m with srEntries := satAdd 32 m.srEntries 1 } }

/-- A request or panic brings a channel out of self-refresh (14 R309), and its requests are granted. -/
def leaveSelfRef (s : State) (n : Nat) : State :=
  let c := nth s.mem.chans n {}
  if c.selfRef ∧ (c.queue ≠ [] ∨ c.waiting ≠ [] ∨ s.mem.inPanic) then grantAll (exitSelfRef s n) n else s

/-- Entry to sleep places all channels in self-refresh (14 R310). -/
def memSleep (s : State) : State :=
  { s with mem := { s.mem with
      srEntries := satAdd 32 s.mem.srEntries (s.mem.chans.filter fun c => !c.selfRef).length
      chans := s.mem.chans.map fun c => { c with
        selfRef := true, banks := c.banks.map fun b => { b with debt := 0, openRow := none } } } }

/-! ### Row tests and sparing (14 R312, R313) -/

/-- DATA of a DRAM error entry: usable address, channel, bank, row, column, requester, syndrome, scrub (14 R311; log 13). -/
def rowData (d : DramRec) (t : RowTest) : List Byte :=
  leBytes 8 t.addr ++ leBytes 1 t.ch ++ leBytes 1 t.bank ++ leBytes 4 t.row ++ leBytes 1 (dramMap d t.addr).col ++
    leBytes 1 t.code ++ leBytes 4 t.syndrome ++ leBytes 1 (b2n (t.code == 6))

/-- The first spare slot no blacklist entry uses (14 R313). -/
def freeSpare (b : SMap (Option Nat)) : Option Nat := (List.range 512).find? fun i => smGet none b i == none

/-- The test of a row ends (14 R312, R313): every unit of it that held an uncorrectable word is poisoned; the fault is transient, or
the slot is redirected to a free spare slot, poison included, or the pool is exhausted and FAULT_N is held. The requests that waited
are granted. -/
def rowTestEnd (s : State) (ch bank row : Nat) (bad : Bool) (cols : List Nat) : State :=
  match s.mem.tests.find? fun t => t.ch == ch && t.bank == bank && t.row == row with
  | none => s
  | some t =>
    let units := (cols.filter fun c => decide (c < 28)).map fun c => dramSlot t.addr * 28 + c
    let s := { s with mem := { s.mem with tests := s.mem.tests.erase t, poison := units.foldl addOnce s.mem.poison } }
    let s :=
      if !bad then
        let s := { s with mem := { s.mem with transient := satAdd 16 s.mem.transient 1 } }
        s.transient 0x0601 ch (rowData s.conf.dram t)
      else
        let e := s.mem.err
        let s := { s with mem := { s.mem with err := { e with
            lasting := e.lasting || (e.ch == ch && e.bank == bank && e.row == row) } } }
        match freeSpare s.aos.dram with
        | some i =>
          let s := { s with
            aos := { s.aos with dram := smSet none s.aos.dram i (some (s.slotOf t.addr)) }
            mem := { s.mem with int := s.mem.int.raise 2 } }
          s.lasting 0x0601 ch (rowData s.conf.dram t)
        | none =>
          let s := s.lasting 0x0601 ch (rowData s.conf.dram t)
          let s := { s with mem := { s.mem with spareOut := true, spareHold := true, int := s.mem.int.raise 6 } }
          s.log 0x0604 2 ch (leBytes 4 (s.slotOf t.addr))
    grantAll s ch

/-! ### Meanings -/

/-- A DRAM request (14 R303, R304, R311). An address beyond the usable capacity does not exist. -/
def execDramRequest (req : DramReq) (ecc : EccResult) (fill : Nat) (s : State) : Host.Outcome State Fault Refusal :=
  if s.dramUsable ≤ req.addr then .fault .noSuchAddress else s.done (dramArrive s req ecc fill)

/-- Promotion (14 R304). -/
def execRequestPromotion (ch idx : Nat) (s : State) : Host.Outcome State Fault Refusal := s.done (promote s ch idx)

/-- A refresh falls due (14 R307). -/
def execRefreshDue (ch bank : Nat) (s : State) : Host.Outcome State Fault Refusal := s.done (refreshDue s ch bank)

/-- The temperature band is read (14 R306). -/
def execMr4Read (ch band : Nat) (s : State) : Host.Outcome State Fault Refusal := s.done (mr4Read s ch band)

/-- A channel enters self-refresh (14 R309). -/
def execSelfRefreshEntry (ch : Nat) (s : State) : Host.Outcome State Fault Refusal := s.done (enterSelfRef s ch)

/-- A channel leaves self-refresh (14 R309). -/
def execSelfRefreshExit (ch : Nat) (s : State) : Host.Outcome State Fault Refusal := s.done (leaveSelfRef s ch)

/-- A row test ends (14 R312). -/
def execRowTestDone (ch bank row : Nat) (lasting : Bool) (badCols : List Nat) (s : State) : Host.Outcome State Fault Refusal :=
  s.done (rowTestEnd s ch bank row lasting badCols)

end Sys2Proof.Machine
end

