-- ==== Sys2Proof/Machine/QuasiStatic.lean ====
section
/-! DEFINITION. The quasi-static channel: selection, accumulation, windows, evaluation, references and rows (10 R217 to R236). -/

namespace Sys2Proof.Machine

/-! ### Derived settings (10 R217 to R221) -/

/-- The plan lets the channel run (10 R217; 00 R3). -/
def State.qsPlanOk (s : State) (p : ProbeRec) : Bool := decide (p.plan ≤ 3) && (s.fuses.order == 0 || decide (1 ≤ p.plan))

/-- The channel is to run in acquisition (10 R217). -/
def State.qsWanted (s : State) : Bool := s.conf.qs.present && s.conf.qs.en == 1 && s.qsPlanOk s.conf.probe

/-- N_sd_eff (10 R218): ⌈X/10⁹⌉ with X = P·S/T_TR. -/
def nSdEff (qs : QsRec) (p : ProbeRec) : Nat := if p.ttr = 0 then 0 else max qs.nSd (ceilDiv (4 * p.p * p.slots) p.ttr)

/-- N_w (10 R221). -/
def nWin (qs : QsRec) (p : ProbeRec) : Nat :=
  if p.ttr = 0 then 0 else max 1 (qs.window * 4000000 / (nSdEff qs p * p.ttr))

/-- b_q (10 R219). -/
def bqOf (nw : Nat) : Nat := if nw = 0 then 0 else min 16 (32 - log2Up nw 64 0)

/-- J (10 R224); 0 while the channel cannot run. -/
def lagRange (s : Nat) : Nat := 3 * s / 8

/-- The first selected trace period at or after `m` (10 R218). -/
def selectedFrom (nsd m : Nat) : Nat := alignUp m nsd

/-! ### Rows handed to streams (15 R326, R333) -/

/-- A completed row handed to every enabled stream of its type whose first unit does not come after it (15 R339), in the order of UNIT
(15 R327); a gap record to every RECORD stream, enabled or not, as it is made (15 R333). -/
def State.handUnit (s : State) (stype : Nat) (u : StreamUnit) : State :=
  let l := s.net.streams.mapIdx fun n x =>
    let c := nth s.conf.streams n {}
    if c.stype ≠ stype then x
    else if stype = 5 then { x with units := x.units ++ [u] }
    else if c.en = 1 ∧ x.enabledAt ≤ u.begins then { x with units := insertBy (fun a b => decide (a.unit ≤ b.unit)) u x.units }
    else x
  { s with net := { s.net with streams := l } }

/-! ### Windows (10 R222, R223) -/

/-- Block b's window state. -/
def State.qsWin (s : State) (b : Nat) : QsWin := smGet {} s.qss.wins b

/-- Block b's window state set. -/
def State.setQsWin (s : State) (b : Nat) (w : QsWin) : State :=
  { s with qss := { s.qss with wins := smSet {} s.qss.wins b w } }

/-- A window is discarded (10 R223); the next one starts in period `next`, or once the block has trained. -/
def qsDiscard (s : State) (b : Nat) (next : Option Nat) : State :=
  let w := s.qsWin b
  match w.run with
  | none => s.setQsWin b { w with next := next, early := [] }
  | some _ =>
    let s := s.setQsWin b { w with run := none, next := next, early := [] }
    { s with qss := { s.qss with discarded := satAdd 16 s.qss.discarded 1, int := s.qss.int.raise 6 } }

/-- Contributions of slot k to the window that are launched and not yet committed: processed shots of selected periods below
raw-sample index `idx` whose slot token has not passed them (10 R223; 05 R116). -/
def State.qsInFlight (s : State) (b k : Nat) (run : QsRun) (idx : Nat) : Nat :=
  (s.til.shots.filter fun x =>
    x.slot == k && decide (x.r < idx ∧ run.mw ≤ x.m ∧ b < x.blocks) && x.m % run.nsd == 0 && !x.muted && !x.thinned &&
      !s.til.gone.contains (x.r, b) && decide (smGet 0 s.til.tokens (b * 128 + k) ≤ x.r)).length

/-- The last contributing shot of block b's window was launched before raw-sample index `idx` (10 R223). -/
def State.qsComplete (s : State) (b : Nat) (run : QsRun) (idx : Nat) : Bool :=
  (List.range run.slots).all fun k => decide (run.nw ≤ smGet 0 run.counts k + s.qsInFlight b k run idx)

/-- A training restart of block b from raw-sample index `idx` on (10 R223): its window is discarded unless all its shots are
launched; the next one waits for training. -/
def qsRestartBlock (s : State) (idx b : Nat) : State :=
  let w := s.qsWin b
  match w.run with
  | none => s.setQsWin b { w with next := none }
  | some run => if s.qsComplete b run idx then s.setQsWin b { w with next := none, early := [] } else qsDiscard s b none

/-- The channel stops or its windows restart at the boundary of trace period m with first launch `idx` (10 R217, R223): windows are
discarded, unless all their shots were launched before it; in blocks that have finished training new ones start when `again`. -/
def qsResetWindows (s : State) (idx m : Nat) (again : Bool) : State :=
  (List.range s.conf.probe.nblocks).foldl (fun s b =>
    let next := if again && s.coh.trained.contains b then some (selectedFrom (nSdEff s.conf.qs s.conf.probe) m) else none
    match (s.qsWin b).run with
    | some run => if s.qsComplete b run idx then s.setQsWin b { s.qsWin b with next := next, early := [] } else qsDiscard s b next
    | none => qsDiscard s b next) s

/-- References are cleared (10 R230); all of them. -/
def qsClearRefs (s : State) : State :=
  if s.qss.refs = [] then s else { s with qss := { s.qss with refs := [], int := s.qss.int.raise 3 } }

/-! ### Accumulation (10 R219, R220) -/

/-- psh_b (10 R219) from the slot records of the block. -/
def pshOf (slots : SMap SlotRec) (b s bq : Nat) : Nat :=
  let mb := (List.range s).foldl (fun m k =>
    let x := smGet {} slots (b * 128 + k)
    max m (narrow x.psum x.ntl 48)) 0
  (47 - norm48 mb) + 3 - bq

/-- The pq of a shot added to the accumulators of its slot (10 R219). -/
def qsAdd (acc : SMap Nat) (buf b k psh bq : Nat) (pw : List Int) : SMap Nat :=
  pw.zipIdx.foldl (fun acc e =>
    let key := accKey buf (1024 * b + e.2) k
    smSet 0 acc key ((smGet 0 acc key + (narrow e.1 psh (bq + 1)).toNat) % 2 ^ 32)) acc

/-- The smaller of two optional positions. -/
def minPos (a b : Option Nat) : Option Nat :=
  match a, b with
  | some x, some y => some (min x y)
  | some x, none => some x
  | none, y => y

/-- The window has all its S·N_w contributions (10 R222). -/
def QsRun.full (run : QsRun) (s : Nat) : Bool := (List.range s).all fun k => decide (run.nw ≤ smGet 0 run.counts k)

/-- The next window of block b begins, at the launch of its start period (10 R219, R222, R233): psh_b is computed and its buffer is
clear. -/
def qsBegin (s : State) (b mw : Nat) : State :=
  let w := s.qsWin b
  let p := s.conf.probe
  let nw := nWin s.conf.qs p
  let run : QsRun := {
    w := w.w, mw := mw, psh := pshOf s.coh.slots b p.slots (bqOf nw), plan := p.plan, slots := p.slots, oc := p.offset, nw := nw
    nsd := nSdEff s.conf.qs p, counts := [], lastR := 0, thin := false, beyond := none, endTick := 0, cfg := s.conf.qs }
  let buf := w.w % 2
  let s := s.setQsWin b { w with run := some run, next := none, w := w.w + 1 }
  { s with
    qss := { s.qss with acc := smDrop s.qss.acc fun key => key / 128 / 1024 == buf * 128 + b }
    mem := s.mem.rewritten (s.accAddr buf (1024 * b)) (4096 * slotsMax s.fuses.order) }

/-- The next window of block b begins if its start period has been launched (10 R222). -/
def qsStart (s : State) (b : Nat) : State :=
  let w := s.qsWin b
  match w.run, w.next with
  | none, some mw => if s.qss.running ∧ mw < s.nextM then qsBegin s b mw else s
  | _, _ => s

/-- The contribution `e` added to the window in progress of block b; the window ends with the last of its S·N_w contributions (10 R219 to
R222). -/
def qsTake (s : State) (b : Nat) (run : QsRun) (e : QsEarly) : State :=
  let w := s.qsWin b
  let run := { run with
    counts := smSet 0 run.counts e.slot (smGet 0 run.counts e.slot + 1)
    lastR := max run.lastR e.r, thin := run.thin || e.thin, beyond := minPos run.beyond e.beyond }
  let s := { s with qss := { s.qss with acc := qsAdd s.qss.acc (run.w % 2) b e.slot run.psh (bqOf run.nw) e.pw } }
  if run.full run.slots then
    let next := match w.next with
      | some m => some m
      | none => if s.coh.trained.contains b then some (selectedFrom run.nsd (mOf s.prb.segs run.lastR + 1)) else none
    let s := s.setQsWin b { w with
      run := none, ended := some { run with endTick := s.tim.tick, cfg := s.conf.qs }, next := next }
    let round := addOnce s.qss.round b
    let all : Bool := (List.range s.til.blocksRun).all fun b => round.contains b
    qsStart { s with qss := { s.qss with
      windows := wrapAdd 32 s.qss.windows 1, round := if all then [] else round, int := s.qss.int.raiseIf all 0 } } b
  else s.setQsWin b { w with run := some run }

/-- A committed shot of a selected period (10 R222): a slot's first N_w shots from the start period on go to the window in progress; what
it does not take is kept for a later window. -/
def qsOffer (s : State) (b : Nat) (e : QsEarly) : State :=
  let w := s.qsWin b
  match w.run with
  | some run =>
    if e.m < run.mw then s
    else if smGet 0 run.counts e.slot < run.nw then qsTake s b run e
    else s.setQsWin b { w with early := w.early ++ [e] }
  | none => s.setQsWin b { w with early := w.early ++ [e] }

/-- The shots kept are offered again, oldest first, once a window is in progress. -/
def qsReplay (s : State) (b : Nat) : State :=
  let w := s.qsWin b
  if w.run.isNone then s
  else w.early.foldl (fun s e => qsOffer s b e) (s.setQsWin b { w with early := [] })

/-- The windows whose start period is launched with the boundary just passed begin (10 R222). -/
def qsStartAll (s : State) : State := (List.range s.til.blocksRun).foldl (fun s b => qsReplay (qsStart s b) b) s

/-- The contribution of a committing shot sheaf (10 R219 to R222) with its combined powers. -/
def qsContribute (s : State) (sh : Shot) (b : Nat) (pw : List Int) : State :=
  let nsd := (((s.qsWin b).run).map QsRun.nsd).getD (nSdEff s.conf.qs s.conf.probe)
  if (!s.qss.running && (s.qsWin b).run.isNone) || sh.m % nsd != 0 then s
  else qsReplay (qsOffer s b {
    m := sh.m, r := sh.r, slot := sh.slot, pw := pw, thin := (s.til.kAt sh.r).2.1 != 0, beyond := sh.beyond }) b

/-- Block b has finished training with the shot of index r (10 R222): windows may start. -/
def qsTrained (s : State) (b r : Nat) : State :=
  if ¬ s.qss.running then s else
  qsReplay (qsStart (s.setQsWin b { s.qsWin b with
    next := some (selectedFrom (nSdEff s.conf.qs s.conf.probe) (mOf s.prb.segs r + 1)) }) b) b

/-! ### Evaluation of one position (10 R224 to R229) -/

/-- Σ a·b in increasing index. -/
def dot (a b : List Int) : Int := (List.zipWith (fun x y => x * y) a b).sum

/-- c[j] of R224. -/
def corrAt (m ref : List Int) (j : Int) : Int :=
  if 0 ≤ j then dot (m.drop j.toNat) ref else dot m (ref.drop (-j).toNat)

/-- The lags in the order in which ties are broken: 0, −1, 1, −2, 2, … (10 R224). -/
def lagOrder (jj : Nat) : List Int := 0 :: (List.range jj).flatMap fun (i : Nat) => [-((i : Int) + 1), (i : Int) + 1]

/-- The largest q in 0 … 255 with q²·em·er ≤ 65025·c² (10 R224). -/
def qualOf (em er c : Int) : Nat :=
  (List.range 256).foldl (fun best (q : Nat) => if (q * q : Int) * em * er ≤ 65025 * c * c then q else best) 0

/-- The spectrum m of a position from its accumulators (10 R224). -/
def spectrumOf (acc : List Nat) (s : Nat) : List Int :=
  let a := acc.map fun (x : Nat) => (x : Int)
  let mean := narrow a.sum (Nat.log2 s) 48
  (bfpPack (a.map fun x => x - mean) 12).2

/-- What the evaluation of one position yields (10 R224): js, qual, lq, nu. -/
structure QsEval where
  js : Int
  qual : Nat
  lq : Int
  nu : Int
  deriving DecidableEq, Repr

/-- The evaluation of one position (10 R224): spectrum, reference, slots, W in kHz, oc. -/
def qsEval (m : List Int) (x : QsRef) (s wKhz : Nat) (oc : Int) : QsEval :=
  let jj := lagRange s
  let em := dot m m
  let er := dot x.ref x.ref
  let c := corrAt m x.ref
  let js := (lagOrder jj).foldl (fun b j => if c b < c j then j else b) 0
  let (qual, lq) :=
    if em = 0 ∨ er = 0 ∨ c js ≤ 0 then (0, 0)
    else
      let frac :=
        if js.natAbs = jj then 0
        else
          let den := c (js - 1) - 2 * c js + c (js + 1)
          -- den ≤ 0: the quotient is taken over −den
          if den = 0 then 0 else roundEven (-(32768 * (c (js - 1) - c (js + 1)))) den.natAbs
      (qualOf em er (c js), 65536 * js + frac)
  { js := js, qual := qual, lq := lq, nu := satW 32 (x.base + roundEven (lq * wKhz) 65536 + (oc - x.offset)) }

/-- −2³¹. -/
def noShift : Int := -2147483648

/-- The result of one position: SHIFT, QUAL, QSTAT, QWORD, its reference from now on. -/
structure QsPos where
  shift : Int
  qual : Nat
  stat : Nat
  qword : Nat
  ref : Option QsRef
  deriving DecidableEq, Repr

/-- What the window end does to one position (10 R224 to R232): `cmd` is the mode of a reference command that acts. -/
def qsPosition (c : QsRec) (s wKhz : Nat) (oc : Int) (cmd : Option Nat) (thin beyond corrupt : Bool) (acc : List Nat)
    (x : Option QsRef) : QsPos :=
  let m := spectrumOf acc s
  let qw := (if thin then qDegraded else 0) ||| (if beyond then qBeyond else 0) ||| (if corrupt then qCorrupt else 0)
  match x with
  | none =>
    if beyond ∧ cmd = none then
      { shift := noShift, qual := 0, stat := 1 + 16 * b2n (decide (0 < c.minq)), qword := qw, ref := none }
    else
      { shift := if corrupt then noShift else 0, qual := 255, stat := 2, qword := qw,
        ref := some { ref := m, offset := oc, base := 0 } }
  | some r =>
    let e := qsEval m r s wKhz oc
    let edge : Bool := e.js.natAbs == lagRange s
    let low : Bool := decide (e.qual < c.minq)
    let nu := if corrupt then noShift else e.nu
    let chain : Bool := c.chainEn == 1 && decide (65536 * s / 4 < e.lq.natAbs) && !low && !edge && !beyond && !corrupt && cmd.isNone
    let ref := match cmd with
      | some mode => { ref := m, offset := oc, base := if mode = 1 then 0 else nu }
      | none => if chain then { ref := m, offset := oc, base := nu } else r
    { shift := nu, qual := e.qual, stat := 4 * b2n chain + 8 * b2n edge + 16 * b2n low, qword := qw, ref := some ref }

/-! ### The window end of a block (10 R224, R229, R234) -/

/-- The mode of the pending reference command when it acts at a window of block b that ended at `tick` (10 R229). -/
def QsCmd.acts (c : QsCmd) (b tick : Nat) : Bool :=
  (match c.blocks with | none => true | some l => l.contains b) && !c.done.contains b && decide (c.tick + 2 * msTicks ≤ tick)

/-- The bytes of an entry (10 R234). -/
def QsPos.bytes (x : QsPos) : List Byte :=
  leBytes 4 (ofInt 32 x.shift) ++ leBytes 1 x.qual ++ leBytes 1 x.stat ++ leBytes 2 x.qword

/-- The command has acted on block b; it is applied when it has acted on every block named (10 R229). -/
def qsCmdDone (s : State) (b : Nat) (c : QsCmd) : State :=
  let c := { c with done := c.done ++ [b] }
  let left := match c.blocks with
    | none => (List.range s.til.blocksRun).filter fun x => !c.done.contains x
    | some l => l.filter fun x => !c.done.contains x
  let s := { s with qss := { s.qss with int := s.qss.int.raise 2 } }
  if left = [] then ({ s with qss := { s.qss with cmd := none } } : State).setReq c.req .applied s.prb.rawIdx
  else { s with qss := { s.qss with cmd := some c } }

/-- The positions among a list that lie in block b. -/
def inBlock (l : List Nat) (b : Nat) : List Nat := l.filter fun p => p / 1024 == b

/-- The evaluation of block b at its ended window (10 R224 to R234) with the accumulator and reference words that returned
uncorrectable errors. -/
def qsEvaluate (s : State) (b : Nat) (run : QsRun) (ue refUe : List Nat) : State :=
  let n := run.slots
  let oc := run.oc
  let cmd := match s.qss.cmd with
    | some c => if c.acts b run.endTick then some c else none
    | none => none
  let refs := smDrop s.qss.refs fun k => refUe.contains k
  let s := { s with qss := { s.qss with refs := refs, int := s.qss.int.raiseIf (inBlock refUe b != []) 3 } }
  let res := (List.range 1024).map fun j =>
    let pos := 1024 * b + j
    let corrupt := ue.contains pos || s.mem.poisoned (s.accAddr (run.w % 2) pos) (4 * n)
    let acc := (List.range n).map fun k =>
      -- an accumulator word read with an uncorrectable error has no stated value (10 R231; log 6)
      if corrupt then Config.freeNat (s.free + n * j + k) % 2 ^ 32 else smGet 0 s.qss.acc (accKey (run.w % 2) pos k)
    let beyond := match run.beyond with
      | some e => decide (e ≤ pos)
      | none => false
    qsPosition run.cfg n (25000 * 2 ^ run.plan) oc (cmd.map QsCmd.mode) run.thin beyond corrupt acc (smGet none refs pos)
  let count (f : QsPos → Bool) : Nat := (res.filter f).length
  let captured := count fun x => bit x.stat 1
  let chained := count fun x => bit x.stat 2
  let edges := count fun x => bit x.stat 3
  let s := { s with
    free := s.free + 1024 * n
    qss := { s.qss with
      refs := smSetAll none refs (res.mapIdx fun j x => (1024 * b + j, x.ref))
      captures := satAdd 32 s.qss.captures captured
      chains := satAdd 32 s.qss.chains chained
      edge := satAdd 32 s.qss.edge edges
      lowq := satAdd 32 s.qss.lowq (count fun x => bit x.stat 4)
      corrupt := satAdd 16 s.qss.corrupt (count fun x => hasFlag x.qword qCorrupt)
      int := ((s.qss.int.raiseIf (captured != 0) 2).raiseIf (chained != 0) 1).raiseIf (edges != 0) 4 } }
  let rowq := orAll (res.map QsPos.qword)
  let tsEnd := s.tsDelta (1024 * (s.launchTick run.lastR : Int))
  let header := leBytes 2 b ++ leBytes 1 run.plan ++
    leBytes 1 (b2n cmd.isSome + 2 * b2n (decide (0 < chained)) + 4 * b2n (decide (0 < captured))) ++
    leBytes 4 run.w ++ leBytes 4 run.nw ++ leBytes 12 (tsLayout (s.tsDelta (1024 * (s.boundaryTick run.mw : Int)))) ++
    leBytes 12 (tsLayout tsEnd) ++ leBytes 2 (ofInt 16 oc) ++ leBytes 2 rowq ++
    leBytes 4 (ofInt 32 run.cfg.ct) ++ leBytes 4 (ofInt 32 run.cfg.ce)
  let s := match cmd with
    | some c => qsCmdDone s b c
    | none => s
  if s.til.blocksRun ≤ b then s
  else s.handUnit 2 {
    newest := some run.lastR, begins := s.boundaryTick run.mw, unit := run.w, ts := tsEnd, qword := rowq
    bytes := header ++ res.flatMap QsPos.bytes }

/-- The least window index of which a processed block has still to hand its row (15 R327). -/
def State.qsLowest (s : State) : Nat :=
  (List.range s.til.blocksRun).foldl (fun m b =>
    let w := s.qsWin b
    min m (match w.ended, w.run with
      | some e, _ => e.w
      | none, some run => run.w
      | none, none => w.w)) (2 ^ 32)

/-- A block sheaf of b is taken: a window that has ended is evaluated in it (10 R224). -/
def qsSheafTaken (s : State) (b : Nat) : State :=
  let w := s.qsWin b
  if w.ended.isSome then s.setQsWin b { w with evalNow := true } else s

/-- A block sheaf of b commits: the evaluation it made takes effect. -/
def qsSheafCommit (s : State) (b : Nat) (inp : SheafIn) : State :=
  let w := s.qsWin b
  match w.evalNow, w.ended with
  | true, some run => qsEvaluate (s.setQsWin b { w with ended := none, evalNow := false }) b run inp.qsUe inp.qsRefUe
  | _, _ => s

/-! ### Acquisition, boundaries and the reference command -/

/-- Acquisition start (10 R217, R222): no windows yet; their indices start at 0. -/
def qsAcqStart (s : State) : State :=
  { s with qss := { s.qss with running := s.qsWanted, wins := [], acc := [], round := [] } }

/-- Acquisition ends: the channel stops and windows in progress are discarded (10 R217, R223); references stay (R230). -/
def qsAcqEnd (s : State) : State :=
  let s := qsResetWindows s 0 0 false
  { s with qss := { s.qss with running := false } }

/-- QS_REF (10 R229; 18 R400): the pending command is replaced. -/
def qsRefCmd (s : State) (mode : Nat) (blocks : List Nat) : State × Response :=
  if 1 < mode ∨ (blocks.any fun b => decide (s.conf.probe.nblocks ≤ b)) then (s, plain .invalid)
  else
    let s := match s.qss.cmd with
      | some c => ({ s with qss := { s.qss with int := s.qss.int.raise 5 } } : State).setReq c.req .superseded 0
      | none => s
    let (id, s) := s.newReq
    ({ s with qss := { s.qss with cmd := some {
        req := id, mode := mode, blocks := if blocks = [] then none else some blocks, done := [], tick := s.tim.tick } } },
      withData .deferred (leBytes 4 id))

end Sys2Proof.Machine
end

