-- ==== Sys2Proof/Machine/Raman.lean ====
section
/-! DEFINITION. The Raman temperature channel: traces, averages, evaluation, dual-ended operation and rows (11 R238 to R253).
Logarithms are in units of 2⁻⁴⁸. The channel lies outside the bit-exact contract: a TEMP is the value of R245 with an error of at
most one unit that is a free value (log 6). -/

namespace Sys2Proof.Machine

/-! ### Logarithms (log 7) -/

/-- Σ t^(2i+1)/(2i+1) from term `p` = t^(2i+1) on, in units of 2⁻⁹⁶. -/
def atanhTail (t2 : Int) : Nat → Int → Nat → Int
  | 0, _, _ => 0
  | n + 1, p, k => p / k + atanhTail t2 n (p * t2 / (2 ^ 96 : Nat)) (k + 2)

/-- ln of a number m in [1, 2) given in units of 2⁻⁹⁶, in the same units. -/
def lnMantissa (m : Int) : Int :=
  let one : Int := (2 ^ 96 : Nat)
  let t := (m - one) * one / (m + one)
  2 * atanhTail (t * t / one) 48 t 1

/-- ln 2 in units of 2⁻⁹⁶: ln 2 = 2·atanh(1/3). -/
def ln2Fix : Int :=
  let t : Int := (2 ^ 96 : Nat) / 3
  2 * atanhTail (t * t / (2 ^ 96 : Nat)) 48 t 1

/-- ln of a positive natural number, in units of 2⁻⁹⁶. -/
def lnNat (n : Nat) : Int :=
  let k := Nat.log2 n
  k * ln2Fix + lnMantissa ((n * 2 ^ 96 / 2 ^ k : Nat) : Int)

/-- ln(a/b) in units of 2⁻⁴⁸, rounded to nearest. -/
def lnRatio (a b : Nat) : Int := roundDiv (lnNat a - lnNat b) (2 ^ 48)

/-- ln 10 in units of 2⁻⁴⁸. -/
def ln10Fix : Int := lnRatio 10 1

/-! ### Positions (11 R240, R245; 00 R8) -/

/-- φ (11 R240) for g0 at `x` ticks after E. -/
def dtsPhase (x : Nat) : Nat := (16 - x % 16) % 16

/-- a·z(d) in units of 2⁻⁴⁸ for a loss in 0.0001 dB/km: z(d) is (16·d + φ)·d_tick, d_tick being 3,747,405,725/(10¹⁰·N_G) km. -/
def lossTerm (loss : Int) (phi ng d : Nat) : Int :=
  if ng = 0 then 0 else roundDiv (loss * ln10Fix * ((16 * d + phi : Nat) * 3747405725 : Nat)) (10 ^ 15 * ng)

/-! ### Accumulation (11 R239, R242) -/

/-- N_avg (11 R242). -/
def nAvg (c : DtsRec) : Nat := 2 ^ c.nAvgLog2

/-- A sample is clipped (11 R239). -/
def dtsClipped (code : Nat) : Bool := code == 0 || 4095 ≤ code

/-- Codes added to an accumulator table; the first trace loads (11 R242). -/
def dtsAdd (acc : SMap Nat) (first : Bool) (codes : List Nat) : SMap Nat :=
  codes.zipIdx.foldl (fun a e => smSet 0 a e.2 ((if first then 0 else smGet 0 a e.2) + e.1)) acc

/-- The declared end in force, for traces from its boundary on (11 R251). -/
def State.dtsEnd (s : State) : Option Nat := s.rxf.beyond.map Prod.snd

/-- The traces of the average in progress, with the settings `c` at its end. -/
def Dts.current (d : Dts) (c : Conf) : DtsRun :=
  { avg := d.avg, cfg := c.dts, ng := c.probe.ng, phi := d.phi, accAs := d.accAs, accSt := d.accSt, nUsed := d.nUsed, firstG0 := d.firstG0, lastG0 := d.lastG0, lastR := d.lastR,
    clip := d.clip, endDecl := d.endDecl }

/-- Nothing of the average in progress is left, and average `j` is in progress (11 R242). -/
def Dts.nextAvg (d : Dts) (j : Nat) : Dts :=
  { d with avg := j, nUsed := 0, clip := false, accAs := [], accSt := [], endDecl := none }

/-- The average in progress is complete and waits for its evaluation (11 R243). -/
def Dts.close (d : Dts) (c : Conf) : Dts := { d.nextAvg (d.avg + 1) with complete := d.complete ++ [d.current c] }

/-- The averages of N_avg `n` that end before trace period m are complete (11 R242, R243): a trace of a later average never joins an
earlier one. -/
def Dts.closeTo (d : Dts) (c : Conf) (n m : Nat) : Dts := (List.range (m / n - d.avg)).foldl (fun d _ => d.close c) d

/-- The average that ends at the boundary of trace period m is complete, under the settings in force before it (11 R243, R253). -/
def dtsBoundaryClose (s : State) (m : Nat) : State :=
  if s.dts.running then { s with dts := s.dts.closeTo s.conf (nAvg s.conf.dts) m } else s

/-- A trace of period m with raw-sample index r and GATE_DTS rising at tick `g0` (11 R240, R242); samples of the two channels by
position. Nothing is added before the first aligned average in progress. -/
def dtsTrace (s : State) (m r g0 : Nat) (raman : List (Nat × Nat)) : State :=
  let d := s.dts.closeTo s.conf (nAvg s.conf.dts) m
  if !d.running || decide (m < d.avg * nAvg s.conf.dts) then s else
  let codes := (raman.take s.conf.dts.pDts).map fun e => (min e.1 4095, min e.2 4095)
  let clips := (codes.filter fun e => dtsClipped e.1).length + (codes.filter fun e => dtsClipped e.2).length
  let first : Bool := d.nUsed == 0
  { s with dts := { d with
      accAs := dtsAdd d.accAs first (codes.map Prod.fst)
      accSt := dtsAdd d.accSt first (codes.map Prod.snd)
      nUsed := d.nUsed + 1
      firstG0 := if first then g0 else d.firstG0
      lastG0 := g0
      lastR := r
      clip := d.clip || clips != 0
      clips := satAdd 32 d.clips clips
      endDecl := minPos d.endDecl s.dtsEnd
      int := d.int.raiseIf (clips != 0) 3 } }

/-! ### Evaluation (11 R243 to R247, R249) -/

/-- The net mean of a position times N_used·DARK_LEN (11 R245): exact. -/
def netSum (acc : SMap Nat) (c : DtsRec) (dark d : Nat) : Int :=
  ((smGet 0 acc d : Nat) : Int) * c.darkLen - dark

/-- The dark sum of a channel (11 R245). -/
def darkSum (acc : SMap Nat) (c : DtsRec) : Nat :=
  (List.range c.darkLen).foldl (fun a i => a + smGet 0 acc (c.darkStart + i)) 0

/-- The coil positions. -/
def coilPositions (c : DtsRec) : List Nat := (List.range c.coilLen).map fun i => c.coilStart + i

/-- γ/T_ref in units of 2⁻⁴⁸ (11 R246) for readings with their sum and number. -/
def gammaOverTref (c : DtsRec) (t : Int × Nat) : Int :=
  let k := t.1 + 27315 * (t.2 : Int)
  if k ≤ 0 then 0 else roundDiv ((c.gamma : Int) * t.2 * (2 ^ 48 : Nat)) k.toNat

/-- The mean of a list, rounded to nearest. -/
def meanInt (l : List Int) : Int := if l.length = 0 then 0 else roundDiv l.sum l.length

/-- TEMP for the denominator of T(d) in units of 2⁻⁴⁸ with the evaluator's error (11 R245): 100·(γ/den − 273.15) rounded half to
even, saturated; 0x8000 where the denominator is not positive. -/
def tempOf (gamma : Nat) (den err : Int) : Int :=
  if den ≤ 0 then -32768
  else clampInt (-32767) 32767 (roundEven ((gamma : Int) * (2 ^ 48 : Nat) - 27315 * den) den.toNat + err)

/-- The evaluator's error of the n-th temperature: −1, 0 or +1 (11 R245; log 6). -/
def tempErr (n : Nat) : Int := Config.freeInt n % 3 - 1

/-- The loss used in single-ended evaluation (11 R247). -/
def Dts.loss (d : Dts) (c : DtsRec) : Int :=
  match c.dalphaSrc, d.dalphaEst with
  | 1, some e => e
  | _, _ => c.dalpha

/-- The average with traces `d` evaluated on its own (11 R243 to R246), with the positions whose accumulator words returned uncorrectable errors;
none when N_used = 0. The new LN_C is held in it. -/
def dtsEvaluate (s : State) (d : DtsRun) (corrupt : List Nat) : DtsAvg :=
  let phi := d.phi
  let c := d.cfg
  let ng := d.ng
  let das := darkSum d.accAs c
  let dst := darkSum d.accSt c
  let pos := List.range c.pDts
  let beyond (i : Nat) : Bool := match d.endDecl with
    | some e => decide (e ≤ 16 * i + phi)
    | none => false
  let lnR := pos.map fun i =>
    let a := netSum d.accAs c das i
    let b := netSum d.accSt c dst i
    if a ≤ 0 ∨ b ≤ 0 ∨ corrupt.contains i then none else some (lnRatio a.toNat b.toNat)
  let eighth (acc : SMap Nat) (dark i : Nat) : Int :=
    clampInt (-32768) 32767 (roundEven (8 * netSum acc c dark i) (d.nUsed * c.darkLen))
  let readings := s.dts.readings.filter fun r => decide (d.firstG0 ≤ r.1 ∧ r.1 ≤ d.lastG0)
  let tref := ((readings.map Prod.snd).sum, readings.length)
  let loss := s.dts.loss c
  let coil := (coilPositions c).filterMap fun i => ((lnR[i]?).getD none).map fun l => l + lossTerm loss phi ng i
  let ok : Bool := tref.2 != 0 && coil != []
  let lnc := if ok then some (meanInt coil + gammaOverTref c tref) else s.dts.lnc
  { avg := d.avg, cfg := c, ng := ng, phi := phi, lnR := lnR, nUsed := d.nUsed, tsStart := s.tsAt d.firstG0,
    tsEnd := s.tsAt d.lastG0, tref := tref
    asM := pos.map (eighth d.accAs das)
    stM := pos.map (eighth d.accSt dst)
    qwords := pos.map fun i => (if d.nUsed < nAvg c then qHeld else 0) ||| (if beyond i then qBeyond else 0) |||
      (if corrupt.contains i then qCorrupt else 0)
    clip := d.clip, coilHeld := !ok, lnc := lnc, tick := s.tim.tick, firstG0 := d.firstG0, lastR := d.lastR }

/-- The ln R trace sent to the partner (11 R248, R249): a position that carries BEYOND_END is no both-valid one. -/
def DtsAvg.sent (a : DtsAvg) : List (Option Int) :=
  a.lnR.mapIdx fun i x => if hasFlag (nth a.qwords i 0) qBeyond then none else x

/-- How an average is evaluated (11 R252 MODE), with the partner's ln R in dual-ended operation. -/
inductive DtsMode where
  | single
  | dual (part : List (Option Int))
  | fallback
  deriving DecidableEq, Repr

/-- MODE code (11 R252). -/
def DtsMode.code : DtsMode → Nat
  | .single => 0
  | .dual _ => 1
  | .fallback => 2

/-- ln R_own + ln R_part of a both-valid position (11 R249): 2·½(…). -/
def DtsAvg.both (a : DtsAvg) (part : List (Option Int)) (i : Nat) : Option (Int × Int) :=
  if hasFlag (nth a.qwords i 0) qBeyond ∨ a.cfg.loopSpan < i then none else
  match nth a.lnR i none, nth part (a.cfg.loopSpan - i) none with
  | some x, some y => some (x, y)
  | _, _ => none

/-- DALPHA_EST from the both-valid positions (11 R249), in 0.0001 dB/km; none where no slope exists. -/
def alphaEst (ng : Nat) (pts : List (Int × Int)) : Option Int :=
  let n : Int := pts.length
  let sx := (pts.map Prod.fst).sum
  let sy := (pts.map Prod.snd).sum
  let sxx := (pts.map fun p => p.1 * p.1).sum
  let sxy := (pts.map fun p => p.1 * p.2).sum
  let den := n * sxx - sx * sx
  if den ≤ 0 then none
  else some (clampInt (-32768) 32767
    (roundDiv ((n * sxy - sx * sy) * (10 ^ 15 * ng : Nat)) (den * 2 * 3747405725 * ln10Fix).toNat))

/-- The rows of an average (11 R252) and what its evaluation leaves (R246, R249, R254). -/
def dtsRows (s : State) (a : DtsAvg) (mode : DtsMode) : State :=
  let c := a.cfg
  let d := s.dts
  let dual : List (Option (Int × Int)) := match mode with
    | .dual part => (List.range c.pDts).map fun i => a.both part i
    | _ => List.replicate c.pDts none
  let pts := dual.zipIdx.filterMap fun e => e.1.map fun p => (((16 * e.2 + a.phi : Nat) : Int), p.2 - p.1)
  let est := match alphaEst a.ng pts with
    | some e => some e
    | none => d.dalphaEst
  let coil := (coilPositions c).filterMap fun i => (nth dual i none).map fun p => p.1 + p.2
  let k := if coil ≠ [] ∧ a.tref.2 ≠ 0 then some (roundDiv (meanInt coil) 2 + gammaOverTref c a.tref) else d.kDual
  let loss := d.loss c
  let temp (i : Nat) : Int :=
    if hasFlag (nth a.qwords i 0) (qBeyond ||| qCorrupt) then -32768 else
    match nth dual i none with
    | some (x, y) => match k with
      | some k => tempOf c.gamma (k - roundDiv (x + y) 2) (tempErr (s.free + i))
      | none => -32768
    | none => match nth a.lnR i none, a.lnc with
      | some l, some lnc => tempOf c.gamma (lnc - l - lossTerm loss a.phi a.ng i) (tempErr (s.free + i))
      | _, _ => -32768
  let entry (i : Nat) : List Byte := leBytes 2 (ofInt 16 (temp i)) ++ leBytes 2 (ofInt 16 (nth a.asM i 0)) ++
    leBytes 2 (ofInt 16 (nth a.stM i 0)) ++ leBytes 2 (nth a.qwords i 0)
  let tref := if a.tref.2 = 0 then -32768 else roundEven a.tref.1 a.tref.2
  let isDual : Bool := mode.code == 1
  let lnShown := ((if isDual then k else a.lnc).map fun l => roundDiv l (2 ^ 24)).getD 0
  let row (g : Nat) : StreamUnit :=
    let first := 1024 * g
    let count := min 1024 (c.pDts - first)
    let rowq := orAll ((a.qwords.drop first).take count)
    let de := ((List.range count).filter fun i => (nth dual (first + i) none).isSome)
    { newest := some a.lastR, begins := a.firstG0, unit := a.avg % 2 ^ 32, ts := a.tsEnd, qword := rowq
      bytes := leBytes 2 g ++ leBytes 2 count ++ leBytes 4 a.avg ++ leBytes 4 a.nUsed ++ leBytes 12 (tsLayout a.tsStart) ++
        leBytes 12 (tsLayout a.tsEnd) ++ leBytes 1 (mode.code + 4 * a.phi) ++
        leBytes 1 (b2n a.coilHeld + 2 * b2n a.lnc.isNone + 4 * b2n a.clip) ++ leBytes 2 rowq ++ leBytes 2 (ofInt 16 tref) ++
        leBytes 2 (ofInt 16 loss) ++ leBytes 4 (ofInt 32 lnShown) ++ leBytes 2 ((de.head?).getD 0) ++ leBytes 2 de.length ++
        zeros 4 ++ (List.range count).flatMap fun i => entry (first + i) }
  let s := { s with
    free := s.free + c.pDts
    dts := { d with
      dual := isDual, kDual := k, dalphaEst := est
      fallback := if mode.code = 2 then satAdd 16 d.fallback 1 else d.fallback
      int := d.int.raiseIf (mode.code == 2) 2 } }
  (List.range (ceilDiv c.pDts 1024)).foldl (fun s g => s.handUnit 3 (row g)) s

/-- The module evaluates dual-ended: DE_EN and the loop role (11 R248). -/
def State.dualEnded (s : State) : Bool := s.conf.dts.deEn == 1 && s.conf.cascade.role == 2

/-- A complete average is evaluated (11 R243, R246): empty ones are counted; else its rows go out, or wait for the partner's
trace (R248, R250). -/
def dtsFinish (s : State) (d : DtsRun) (corrupt : List Nat) : State :=
  let x := s.dts
  if d.nUsed = 0 then { s with dts := { x with empty := satAdd 16 x.empty 1 } }
  else
    let a := dtsEvaluate s d corrupt
    let c := d.cfg
    let eighth (acc : SMap Nat) : Nat := (roundEven (8 * darkSum acc c) (d.nUsed * c.darkLen)).toNat % 65536
    let s := { s with dts := { x with
      lnc := a.lnc, coilHeld := a.coilHeld, lastAvg := d.avg % 2 ^ 32
      tref := if a.tref.2 = 0 then -32768 else roundEven a.tref.1 a.tref.2
      bgAs := eighth d.accAs, bgSt := eighth d.accSt, readings := x.readings.filter fun r => decide (d.lastG0 < r.1)
      corrupt := satAdd 16 x.corrupt (corrupt.filter fun i => decide (i < c.pDts)).length
      int := (x.int.raise 0).raiseIf a.coilHeld 1 } }
    if s.dualEnded then
      let s := s.sendRing (.dtsTrace a.avg a.sent)
      match s.dts.partner.find? fun p => p.1 == a.avg with
      | some p =>
        dtsRows { s with dts := { s.dts with partner := s.dts.partner.filter fun q => decide (a.avg < q.1) } } a (.dual p.2)
      | none => { s with dts := { s.dts with waits := s.dts.waits ++ [a] } }
    else dtsRows s a .single

/-- The last trace of the average in progress lies in the past (11 R243). -/
def State.dtsOver (s : State) : Bool :=
  let last := (s.dts.avg + 1) * nAvg s.conf.dts - 1
  decide (last < s.prb.m) || (s.prb.m == last && decide (s.conf.probe.dtsPos < s.prb.j))

/-- The last trace of an average has been added (11 R243): the oldest complete average is evaluated. -/
def dtsAverageEnd (s : State) (corrupt : List Nat) : State :=
  if !s.dts.running then s else
  let d := if s.dts.complete = [] ∧ s.dtsOver then s.dts.close s.conf else s.dts
  match d.complete with
  | [] => s
  | x :: l => dtsFinish { s with dts := { d with complete := l } } x corrupt

/-- The average in progress with N_avg `n`, if there is one at the boundary of the present trace period, is discarded and counted
(11 R244); one that ends at that boundary is complete. Accumulation resumes with average `j`. -/
def dtsDiscard (s : State) (n j : Nat) : State :=
  if !s.dts.running then s else
  let d := s.dts.closeTo s.conf n s.prb.m
  if s.prb.m ≤ d.avg * n then { s with dts := d.nextAvg j }
  else { s with dts := { d.nextAvg j with discarded := satAdd 16 d.discarded 1, int := d.int.raise 4 } }

/-- The averages follow a move of the launch schedule to trace period M (11 R242; 21 R460): the traces of another average are
complete as they are. -/
def dtsRealign (s : State) (m : Nat) : State :=
  let j := m / nAvg s.conf.dts
  if !s.dts.running ∨ j = s.dts.avg then s
  else if s.dts.nUsed = 0 then { s with dts := s.dts.nextAvg j }
  else { s with dts := { s.dts.close s.conf with avg := j } }

/-- A partner trace arrives (11 R248 to R250): it completes the average that waits for it, or is kept for its own evaluation. -/
def dtsPartner (s : State) (avg : Nat) (lnR : List (Option Int)) : State :=
  if !s.dualEnded then s else
  match s.dts.waits.find? fun a => a.avg == avg with
  | some a => dtsRows { s with dts := { s.dts with waits := s.dts.waits.filter fun b => b.avg != avg } } a (.dual lnR)
  | none =>
    if avg < (s.dts.complete.head?.map DtsRun.avg).getD s.dts.avg then s
    else { s with dts := { s.dts with partner := s.dts.partner ++ [(avg, lnR)] } }

/-- 1 s passes without the partner's trace for the oldest average that waits (11 R250); a trace of the cycle in which it has passed
comes before it (01 R26). -/
def dtsTimeout (s : State) : State :=
  match s.dts.waits with
  | [] => s
  | a :: l => dtsRows { s.expire (a.tick + secTicks) with dts := { s.dts with waits := l } } a .fallback

/-- Acquisition start (11 R239, R242, R246): no LN_C, no estimate; φ from the epoch, average 0 in progress. -/
def dtsAcqStart (s : State) : State :=
  let p := s.conf.probe
  let g0 := p.dtsPos * p.interval + p.dtsDelay
  { s with dts := { (s.dts.nextAvg 0) with
      running := s.conf.dts.present && s.conf.dts.en == 1, lnc := none, dalphaEst := none, kDual := none,
      phi := dtsPhase (g0 + s.conf.dts.offset), readings := [], waits := [], partner := [], complete := [] } }

/-- Acquisition ends (11 R244): complete averages are evaluated, the one in progress is discarded. -/
def dtsAcqEnd (s : State) : State :=
  let s := dtsDiscard s (nAvg s.conf.dts) s.dts.avg
  let s := s.dts.complete.foldl (fun s d => dtsFinish s d []) { s with dts := { s.dts with complete := [] } }
  { s with dts := { s.dts with running := false, waits := [], partner := [] } }

/-! ### Meanings -/

/-- The last trace of an average is accumulated (11 R243). -/
def execDtsAverageEnd (corrupt : List Nat) (s : State) : Host.Outcome State Fault Refusal := s.done (dtsAverageEnd s corrupt)

/-- No partner trace within 1 s (11 R250). -/
def execDtsPartnerTimeout (s : State) : Host.Outcome State Fault Refusal := s.done (dtsTimeout s)

/-- A partner trace is received (11 R248). -/
def execDtsTrace (rh : RingHdr) (avg : Nat) (lnR : List (Option Int)) (s : State) : Host.Outcome State Fault Refusal :=
  s.done (s.ringIn rh (.dtsTrace avg lnR) fun s => dtsPartner s avg lnR)

end Sys2Proof.Machine
end

