-- ==== Sys2Proof/Machine/Zones.lean ====
section
/-! DEFINITION. The zone engine: band filters and energies, detection intervals, levels, comparators, event records and the event
queue (12 R255 to R269). The interval decision's triggers reach the acquisition engine in Machine/Acquire.lean. -/

namespace Sys2Proof.Machine

/-! ### Zone bands and derived values (12 R255 to R261) -/

/-- Band i of a zone entry. -/
def ZoneEntry.band (z : ZoneEntry) (i : Nat) : ZoneBand :=
  match i with
  | 0 => z.b0
  | 1 => z.b1
  | 2 => z.b2
  | _ => z.b3

/-- A zone band in force (12 R257): key zone·4 + band, its zone, its band. -/
structure ZBand where
  key : Nat
  zone : ZoneEntry
  band : ZoneBand
  deriving DecidableEq, Repr

/-- The zone bands of a table in increasing zone, then band (12 R257, R266). -/
def zoneBands (zones : SMap ZoneEntry) : List ZBand :=
  (zones.filter fun e => e.2.en).flatMap fun e =>
    (List.range 4).filterMap fun i =>
      if (e.2.band i).en then some { key := 4 * e.1 + i, zone := e.2, band := e.2.band i } else none

/-- Σ LEN·B_z (12 R257; ZON_ENTRIES). -/
def zoneEntries (zones : SMap ZoneEntry) : Nat := ((zoneBands zones).map fun b => b.zone.len).sum

/-- f_out as a fraction: S·4·10⁹ over T_TR·R·D_F (12 R257). -/
def fOut (p : ProbeRec) (d : DecRec) : Nat × Nat := (p.slots * 4000000000, p.ttr * d.cicR * d.firDf)

/-- N_zi for an output rate (12 R260); 0 while there is none. -/
def nZiAt (zi : Nat) (rate : Nat × Nat) : Nat := if rate.2 = 0 then 0 else (roundEven (zi * rate.1) (1000 * rate.2)).toNat

/-- N_zi (12 R260); 0 while no image is active. -/
def nZi (zi : Nat) (p : ProbeRec) (d : DecRec) : Nat := nZiAt zi (fOut p d)

/-- bl (12 R259). -/
def bl (v : Nat) : Nat :=
  if v = 0 then 0
  else
    let n := Nat.log2 v
    256 * n + if 8 ≤ n then v / 2 ^ (n - 8) % 256 else v * 2 ^ (8 - n) % 256

/-- A level from an energy (12 R261): `div` is bl(N_zi), plus bl(n_j) for a mean. -/
def levelOf (e div : Nat) : Nat := min 65535 (bl e + 4096 - div)

/-- Position p lies in a zone. -/
def ZoneEntry.holds (z : ZoneEntry) (p : Nat) : Bool := decide (z.start ≤ p ∧ p < z.start + z.len)

/-! ### Settings and intervals by output (12 R260, R262, R269) -/

/-- The settings that govern output q. -/
def zcfgAt (l : List ZCfg) (q : Nat) : Option ZCfg := l.find? fun c => decide (c.q0 ≤ q)

/-- The interval of output q: first and last output, none where there is no grid; an interval that a later restart cuts is not
judged and has none (12 R262). -/
def zIntOf (l : List ZGrid) (q : Nat) : Option (Nat × Nat) :=
  match l.find? fun g => decide (g.q0 ≤ q) with
  | none => none
  | some g =>
    if g.nzi = 0 then none
    else
      let first := g.q0 + (q - g.q0) / g.nzi * g.nzi
      let last := first + g.nzi - 1
      if l.any fun h => decide (q < h.q0 ∧ h.q0 ≤ last) then none else some (first, last)

/-- The interval grid taken up from the decimators' newest restart, with the N_zi and the output rate in force there (12 R260, R262). -/
def zonGridSync (s : State) : State :=
  match s.dec.grids with
  | [] => s
  | g :: _ =>
    if (s.zon.grid.find? ZGrid.restart).any fun h => h.ns == g.ns && h.q0 == g.q0 then s
    else
      let f := fOut s.conf.probe s.conf.dec
      { s with zon := { s.zon with
          grid := { q0 := g.q0, nzi := nZiAt s.conf.zparams.ziMs f, restart := true, ns := g.ns, rate := f } :: s.zon.grid } }

/-- Output q begins an interval; without zone intervals every output does (12 R260, R269). -/
def zStarts (l : List ZGrid) (q : Nat) : Bool :=
  match l.find? fun g => decide (g.q0 ≤ q) with
  | none => true
  | some g => g.nzi == 0 || (q - g.q0) % g.nzi == 0

/-- An amendment of ZI_MS at output q (12 R260): k_b is q; a restart launched before it was processed takes the new N_zi too. -/
def zGridAmend (l : List ZGrid) (q zi : Nat) : List ZGrid :=
  let rate := ((l.find? fun g => decide (g.q0 ≤ q)).map ZGrid.rate).getD (0, 0)
  ((l.filter fun g => decide (q < g.q0)).map fun g => { g with nzi := nZiAt zi g.rate }) ++
    { q0 := q, nzi := nZiAt zi rate, restart := false, ns := 0, rate := rate } :: l.filter fun g => decide (g.q0 ≤ q)

/-! ### One output row through the zone engine (12 R258, R260) -/

/-- The input x of a position (12 R258). -/
def zoneInput (word xe : Int) : Int :=
  let sh := xe + 8
  if 0 ≤ sh then shlSat word sh.toNat 32 else narrow word (-sh).toNat 32

/-- The filter and the energy of a zone band at one position (12 R258). -/
def ZFilt.run (f : ZFilt) (c : List Int) (x x1 x2 : Int) : ZFilt :=
  let a := nth c 0 0 * x + nth c 1 0 * x1 + nth c 2 0 * x2 - nth c 3 0 * f.y1 - nth c 4 0 * f.y2
  let y := narrow a 28 32
  { f with y1 := y, y2 := f.y1, e := f.e + (narrow (y * y) 16 48).toNat, guard := f.guard - 1, bad := f.bad || f.guard != 0 }

/-- Key of zone band `key` at position p. -/
def zKey (key p : Nat) : Nat := key * 131072 + p

/-- The flagged outputs exclude (12 R260): SETTLING always, bits 13–15 never. -/
def exclMask (m : Nat) : Nat := (m ||| 1) % 8192

/-- A position's history after an output (12 R258, R260). -/
def ZPos.step (z : ZPos) (g mask : Nat) (x : Int) (fl : Nat) : ZPos :=
  let hit := hasFlag fl (exclMask mask)
  { x1 := x, x2 := z.x1, guard := if hit then g else z.guard - 1, bad := z.bad || hit || z.guard != 0, qword := z.qword ||| fl }

/-- The zone bands of a block's positions, with the positions of each in the block. -/
def bandsIn (c : ZCfg) (b : Nat) : List (ZBand × List Nat) :=
  ((zoneBands c.zones).map fun z => (z, ((List.range 1024).map fun j => 1024 * b + j).filter z.zone.holds)).filter fun e => e.2 != []

/-- Energies and judging of block b's interval in progress cleared (12 R261, R262); `hard` clears the filters and histories too. -/
def zoneClear (z : Zon) (b : Nat) (hard : Bool) : Zon :=
  let inB (p : Nat) : Bool := p / 1024 == b
  if hard then
    { z with
      filt := z.filt.filterMap fun e => if inB (e.1 % 131072) then
        (let f : ZFilt := { guard := e.2.guard }
         if f = {} then none else some (e.1, f)) else some e
      pos := z.pos.filterMap fun e => if inB e.1 then
        (let f : ZPos := { guard := e.2.guard }
         if f = {} then none else some (e.1, f)) else some e }
  else
    { z with
      filt := z.filt.filterMap fun e => if inB (e.1 % 131072) then
        (let f : ZFilt := { e.2 with e := 0, bad := false }
         if f = {} then none else some (e.1, f)) else some e
      pos := z.pos.filterMap fun e => if inB e.1 then
        (let f : ZPos := { e.2 with bad := false, qword := 0 }
         if f = {} then none else some (e.1, f)) else some e }

/-- The zone bands an amendment changed start anew in block b (12 R264): filter state and energy zero, positions excluded for
ZON_GUARD outputs. -/
def zoneChanged (z : Zon) (c : ZCfg) (b : Nat) : Zon :=
  (bandsIn c b).foldl (fun z e =>
    if c.changed.contains e.1.key then
      { z with filt := smSetAll {} z.filt (e.2.map fun p => (zKey e.1.key p, ({ guard := c.params.guard } : ZFilt))) }
    else z) z

/-- An output row of block b runs through every zone band and position of the block; the history of every position moves on, in a
zone band or not (12 R258, R260). -/
def zoneRun (z : Zon) (c : ZCfg) (row : OutRow) : Zon :=
  let b := row.block
  let bands := bandsIn c b
  let x (p : Nat) : Int := zoneInput (nth row.words (p - 1024 * b) 0) row.xe
  let filt := bands.foldl (fun m e =>
    let coef := smGet [] c.filters e.1.band.filt
    e.2.foldl (fun m p =>
      let h := smGet {} z.pos p
      smSet {} m (zKey e.1.key p) ((smGet {} m (zKey e.1.key p)).run coef (x p) h.x1 h.x2)) m) z.filt
  let pos := ((row.words.zip row.flags).take 1024).mapIdx fun j e =>
    (1024 * b + j, (smGet {} z.pos (1024 * b + j)).step c.params.guard c.params.excl (zoneInput e.1 row.xe) e.2)
  { z with filt := filt, pos := smSetAll {} z.pos pos }

/-- The interval (first, last) of a block is finished: its judged energies join the interval (12 R260, R266). `n` rows of it were
received. An interval already decided stays so. -/
def zoneClose (z : Zon) (c : ZCfg) (b first last n tsFirst tsLast : Nat) : Zon :=
  let full : Bool := n == last + 1 - first
  let judged := (bandsIn c b).flatMap fun e => (e.2.filter fun p =>
    full && !(smGet {} z.pos p).bad && !(smGet {} z.filt (zKey e.1.key p)).bad).map fun p => (e.1.key, p)
  let e := judged.map fun k => (zKey k.1 k.2, (smGet {} z.filt (zKey k.1 k.2)).e)
  let qw := judged.map fun k => (zKey k.1 k.2, (smGet {} z.pos k.2).qword)
  let add (i : ZInt) : ZInt := { i with got := addOnce i.got b, e := i.e ++ e, qw := i.qw ++ qw }
  let ints :=
    if first < z.decidedQ then z.ints
    else if z.ints.any fun i => i.first == first then z.ints.map fun i => if i.first = first then add i else i
    else
      let new := add { first := first, last := last, tsFirst := tsFirst, tsLast := tsLast, got := [], e := [], qw := [] }
      (z.ints.filter fun i => decide (i.first < first)) ++ [new] ++ (z.ints.filter fun i => decide (first < i.first))
  zoneClear { z with ints := ints } b false

/-- A row enters the zone engine (12 R258 to R262). -/
def zoneRow (s : State) (row : OutRow) : State :=
  if !s.zon.running then s else
  match zcfgAt s.zon.cfgs row.q with
  | none => s
  | some c =>
    let b := row.block
    let z := s.zon
    let z := if z.grid.any fun g => g.restart && g.q0 == row.q then zoneClear z b true else z
    let z := if c.q0 = row.q then zoneChanged z c b else z
    let z := match zIntOf z.grid row.q with
      | none => zoneRun { z with cur := smSet (0, 0) z.cur b (0, 0) } c row
      | some (first, last) =>
        let old := smGet (0, 0) z.cur b
        let fresh : Bool := old.1 != first + 1
        let z := if fresh then { zoneClear z b false with curTs := smSet 0 z.curTs b row.ts } else z
        let n := if fresh then 1 else old.2 + 1
        let z := zoneRun { z with cur := smSet (0, 0) z.cur b (first + 1, n) } c row
        if row.q = last then zoneClose z c b first last n (smGet 0 z.curTs b) row.ts else z
    { s with zon := z }

/-! ### Events (12 R265 to R268) -/

/-- SEQ of the next event. -/
def Zon.nextSeq (z : Zon) : Nat := wrapAdd 32 z.seq 1

/-- An event enters the queue (12 R268): with 4,096 held it is lost and counted; a loss not yet reported is reported first. -/
def Zon.push (z : Zon) (e : Event) : Zon :=
  let z := { z with seq := e.seq, last := some e }
  if 4096 ≤ z.queue.length ∨ z.lostRun.isSome then
    { z with
      evLost := satAdd 32 z.evLost 1
      lostRun := some (match z.lostRun with
        | none => (1, e.seq)
        | some (n, f) => (n + 1, f))
      int := z.int.raise 2 }
  else { z with queue := z.queue ++ [e] }

/-- An EVENT_LOSS record (12 R267). -/
def lossEvent (seq n first : Nat) : Event :=
  { type := 0x20, detail := 0, zone := 0xFFFF, seq := seq, tsA := 0, tsB := 0, index := first, level := 0, peak := 0, pos := 0,
    count := n, tag := 0, qword := 0 }

/-- The oldest event leaves the queue; the slot that frees takes an EVENT_LOSS record (12 R268). -/
def Zon.pop (z : Zon) : Option Event × Zon :=
  match z.queue with
  | [] => (none, z)
  | e :: l =>
    match z.lostRun with
    | none => (some e, { z with queue := l })
    | some (n, first) =>
      let loss := lossEvent z.nextSeq n first
      (some e, { z with queue := l ++ [loss], seq := loss.seq, last := some loss, lostRun := none })

/-- The 64 bytes of an event record (12 R267). -/
def Event.bytes (e : Event) : List Byte :=
  leBytes 1 e.type ++ leBytes 1 e.detail ++ leBytes 2 e.zone ++ leBytes 4 e.seq ++ leBytes 12 (tsLayout e.tsA) ++
    leBytes 12 (tsLayout e.tsB) ++ leBytes 8 e.index ++ leBytes 2 e.level ++ leBytes 2 e.peak ++ leBytes 4 e.pos ++
    leBytes 4 e.count ++ leBytes 2 e.tag ++ leBytes 2 e.qword ++ zeros 8

/-! ### Interval decision (12 R261 to R266) -/

/-- The level of a zone band over an interval: level, argmax position, n_j, OR of the judged positions' quality words; none where
no position is judged (12 R261). -/
def bandLevel (i : ZInt) (b : ZBand) : Option (Nat × Nat × Nat × Nat) :=
  let es := i.e.filter fun e => e.1 / 131072 == b.key
  let qw := orAll ((i.qw.filter fun e => e.1 / 131072 == b.key).map Prod.snd)
  let n := es.length
  let nzi := i.last + 1 - i.first
  match es with
  | [] => none
  | e :: _ =>
    if b.zone.reduce then some (levelOf (es.map Prod.snd).sum (bl nzi + bl n), 0xFFFFFFFF, n, qw)
    else
      let best := es.foldl (fun m x => if m.2 < x.2 ∨ (m.2 = x.2 ∧ x.1 < m.1) then x else m) e
      some (levelOf best.2 (bl nzi), best.1 % 131072, n, qw)

/-- What a decision of a zone band leads to. -/
inductive ZOutcome where
  | nothing
  /-- Departure with its side (1 = high). -/
  | leave (high : Bool)
  /-- Re-arm with the side the band returned from. -/
  | rearm (high : Bool)
  deriving DecidableEq, Repr

/-- The comparator at a judged interval (12 R263). -/
def ZComp.judge (c : ZComp) (b : ZBand) (i : ZInt) (level n qw : Nat) : ZComp × ZOutcome :=
  let h := 16 * b.zone.hyst
  let c := { c with judged := true, level := level, nJudged := n }
  match c.st with
  | 0 =>
    if level < b.band.low ∨ b.band.high < level then
      let c := if c.count = 0 then { c with peak := level, onsetQ := i.first, onsetTs := i.tsFirst, qword := qw }
        else { c with peak := max c.peak level, qword := c.qword ||| qw }
      if b.zone.persist ≤ c.count + 1 then
        let high : Bool := decide (b.band.high < level)
        ({ c with st := if high then 2 else 1, count := 0 }, .leave high)
      else ({ c with count := c.count + 1 }, .nothing)
    else ({ c with count := 0 }, .nothing)
  | 2 => if level + h ≤ b.band.high then ({ c with st := 0, count := 0 }, .rearm true) else (c, .nothing)
  | _ => if b.band.low + h ≤ level then ({ c with st := 0, count := 0 }, .rearm false) else (c, .nothing)

/-- TRIG_OUT is not driven in the standby role (12 R266). -/
def State.standbyRole (s : State) : Bool := s.cas.pairRole == 2

/-- A TRIGOUT decision (12 R266): a pulse starts, or one under way is extended. -/
def trigOut (s : State) : State :=
  let s := { s with zon := { s.zon with
    trigouts := satAdd 32 s.zon.trigouts 1
    trigMerged := if s.pads.trigOut then satAdd 16 s.zon.trigMerged 1 else s.zon.trigMerged } }
  if s.standbyRole then s else { s with pads := { s.pads with trigOut := true } }

/-- Flags a zone event carries (12 R267). -/
def zoneEventFlags : Nat := qDegraded ||| qRange ||| qFaded ||| qMinphase

/-- The settings of the first amendment after interval i that changed a zone band (12 R264). -/
def Zon.laterChange (z : Zon) (i : ZInt) (key : Nat) : Option ZCfg :=
  (z.cfgs.filter fun c => decide (i.first < c.q0) && c.changed.contains key).getLast?

/-- The comparator that decides interval i of a zone band (12 R263, R264): the one in force, or the one the band had before an amendment
after i changed it. -/
def Zon.compAt (z : Zon) (i : ZInt) (key : Nat) : ZComp :=
  match z.laterChange i key with
  | none => smGet {} z.comps key
  | some c => smGet {} c.saved key

/-- The comparator of `compAt` after the decision. -/
def Zon.setCompAt (z : Zon) (i : ZInt) (key : Nat) (x : ZComp) : Zon :=
  match z.laterChange i key with
  | none => { z with comps := smSet {} z.comps key x }
  | some c => { z with cfgs := z.cfgs.map fun d => if d.q0 = c.q0 then { d with saved := smSet {} d.saved key x } else d }

/-- The decision of one zone band (12 R261 to R265), and the trigger it sends: onset timestamp, SEQ, zone. -/
def decideBand (s : State) (i : ZInt) (b : ZBand) : State × List (Nat × Nat × ZBand) :=
  let z := s.zon
  let c := z.compAt i b.key
  match bandLevel i b with
  | none => ({ s with zon := { z.setCompAt i b.key { c with judged := false, nJudged := 0 } with unjudged := satAdd 32 z.unjudged 1 } }, [])
  | some (level, pos, n, qw) =>
    let (c, o) := c.judge b i level n qw
    let s := { s with zon := z.setCompAt i b.key c }
    match o with
    | .nothing => (s, [])
    | .leave high =>
      let pulsed : Bool := b.band.trigout && !s.standbyRole
      let e : Event := {
        type := 1, detail := b.key % 4 + 4 * b2n high + 8 * b2n pulsed + 16 * b2n b.band.record, zone := b.key / 4,
        seq := s.zon.nextSeq, tsA := c.onsetTs, tsB := i.tsLast, index := c.onsetQ, level := level, peak := c.peak, pos := pos,
        count := n, tag := b.zone.tag, qword := c.qword &&& zoneEventFlags }
      let z := { s.zon with leaves := satAdd 32 s.zon.leaves 1, int := s.zon.int.raise 0 }
      let s := { s with zon := if b.band.event then z.push e else z }
      let s := if b.band.trigout then trigOut s else s
      (s, if b.band.record then [(c.onsetTs, if b.band.event then e.seq else 0xFFFFFFFF, b)] else [])
    | .rearm high =>
      let e : Event := {
        type := 2, detail := b.key % 4 + 4 * b2n high, zone := b.key / 4, seq := s.zon.nextSeq, tsA := i.tsFirst, tsB := i.tsLast,
        index := i.first, level := level, peak := level, pos := pos, count := n, tag := b.zone.tag,
        qword := qw &&& zoneEventFlags }
      let z := { s.zon with rearms := satAdd 32 s.zon.rearms 1, int := s.zon.int.raise 1 }
      ({ s with zon := if b.zone.reportRearm then z.push e else z }, [])

/-- The comparators of the zone bands set to ARMED with count 0 (12 R264). -/
def armBands (z : Zon) (keys : List Nat) : Zon := { z with comps := smDrop z.comps fun k => keys.contains k }

/-- Uncorrectable errors in the state of zone bands (12 R264): ARMED, filters and energies zero, positions excluded; counted. -/
def zoneErrors (s : State) (keys : List Nat) : State :=
  if keys = [] then s else
  let z := armBands s.zon keys
  let z := match z.cfgs with
    | c :: _ => (List.range 128).foldl (fun z b => zoneChanged z { c with changed := keys } b) z
    | [] => z
  { s with zon := { z with
      ints := z.ints.map fun i => { i with e := i.e.filter fun e => !keys.contains (e.1 / 131072) }
      memErr := satAdd 16 z.memErr keys.length, int := z.int.raise 5 } }

/-- The grid that produced output q. -/
def State.gridOfQ (s : State) (q : Nat) : Option Grid := s.dec.grids.find? fun g => decide (g.q0 ≤ q)

/-- Block b is shed for output q (05 R130): at its newest raw sample. -/
def State.shedAt (s : State) (q b : Nat) : Bool :=
  match s.gridOfQ q with
  | some g => decide (s.til.blocksAt (g.newest q) ≤ b)
  | none => false

/-- Interval i may be decided under the settings c (12 R266): every block some zone band spans has finished it; a block shed at its last
output is not waited for. -/
def State.zoneReady (s : State) (c : ZCfg) (i : ZInt) : Bool :=
  let spans (b : Nat) : Bool := (zoneBands c.zones).any fun z => decide (z.zone.start < 1024 * (b + 1) ∧ 1024 * b < z.zone.start + z.zone.len)
  (List.range s.conf.probe.nblocks).all fun b => i.got.contains b || s.shedAt i.last b || !spans b

/-- The interval that may be decided now, with its settings: the oldest that some block has finished (12 R266). -/
def State.zoneDue (s : State) : Option (ZInt × ZCfg) :=
  match s.zon.ints with
  | [] => none
  | i :: _ =>
    match zcfgAt s.zon.cfgs i.first with
    | none => none
    | some c => if s.zoneReady c i then some (i, c) else none

/-- Interval i, the oldest, is decided under c, in increasing zone and band (12 R266); the triggers it sends. -/
def zoneDecide (s : State) (i : ZInt) (c : ZCfg) : State × List (Nat × Nat × ZBand) :=
  let s := { s with zon := { s.zon with ints := s.zon.ints.tail, decidedQ := i.last + 1 } }
  (zoneBands c.zones).foldl (fun (s, l) b =>
    let (s, t) := decideBand s i b
    (s, l ++ t)) (s, [])

/-! ### Amendments and acquisition (12 R264, R269) -/

/-- What of a zone is a zone band's own: the fields its bands share and the band (12 R255). -/
def ZBand.own (b : ZBand) : ZoneEntry := { b.zone with b0 := b.band, b1 := b.band, b2 := b.band, b3 := b.band }

/-- The zone bands that differ between two settings (12 R264): created, changed, or with another filter. A change of a field that the
bands of a zone share (START, LEN, CTRL, HYST, PERSIST, TAG) changes each of them; a change of one band leaves the others
(DEDUCED, log 79). -/
def changedBands (old new : Conf) : List Nat :=
  let ob := (zoneBands old.zones).map fun b => (b.key, b.own)
  ((zoneBands new.zones).filter fun b =>
    !(ob.contains (b.key, b.own)) || smGet [] old.filters b.band.filt != smGet [] new.filters b.band.filt).map ZBand.key

/-- The first interval boundary of the grid g with its intervals h whose output's newest raw sample is `r1` or later (12 R269). -/
def intervalOn (r1 : Nat) (g : Grid) (h : ZGrid) : Nat :=
  let q := firstOutput g r1 []
  if h.nzi = 0 ∨ q ≤ h.q0 then q else h.q0 + alignUp (q - h.q0) h.nzi

/-- The first interval boundary whose output's newest raw sample is `r1` or later, on the grid g with its intervals h and the grids
pending after it (index, R, D_F) (12 R269); `zi` is ZI_MS, `rate` the output rate of a pending grid. -/
def firstInterval (zi : Nat) (rate : Nat × Nat × Nat → Nat × Nat) (r1 : Nat) (g : Grid) (h : ZGrid) : List (Nat × Nat × Nat) → Nat
  | [] => intervalOn r1 g h
  | e :: l =>
    let q := intervalOn r1 g h
    if g.step ≠ 0 ∧ g.newest q < e.1 then q
    else
      let q0 := g.nextQ e.1
      firstInterval zi rate r1 { ns := e.1, q0 := q0, cicR := e.2.1, firDf := e.2.2 }
        { q0 := q0, nzi := nZiAt zi (rate e), restart := true, ns := e.1, rate := rate e } l

/-- The output at which the pending zone amendment takes effect, as far as it is known now (12 R269): the first output of an interval
whose newest raw sample is launched at least 2 ms after acceptance. Without zone intervals every output begins one. -/
def State.zoneAmendQ (s : State) (a : PendAmend) : Option Nat :=
  match s.dec.grids, s.zon.grid with
  | g :: _, h :: _ =>
    let rate (e : Nat × Nat × Nat) : Nat × Nat :=
      let p := match s.prb.pend with
        | some b => if s.probeDue b ≤ e.1 then b.conf.probe else s.conf.probe
        | none => s.conf.probe
      fOut p { s.conf.dec with cicR := e.2.1, firDf := e.2.2 }
    some (firstInterval s.conf.zparams.ziMs rate (s.idxFrom (a.tick + 2 * msTicks)) g h (pendingGrids s))
  | _, _ => none

/-- The pending zone amendment takes effect at output q: q begins an interval and its newest raw sample is launched at least 2 ms after
acceptance (12 R269). -/
def State.zoneAmendAt (s : State) (a : PendAmend) (q : Nat) : Bool :=
  zStarts s.zon.grid q && (s.gridOfQ q).any fun g => decide (s.idxFrom (a.tick + 2 * msTicks) ≤ g.newest q)

/-- Output q, which no block has produced before, is the one at which the pending zone amendment takes effect (12 R264, R269): the
comparators of the changed zone bands are ARMED; those they had decide the intervals before q. -/
def zoneAmend (s : State) (q : Nat) : State :=
  match s.zon.pend with
  | none => s
  | some a =>
    if !s.zoneAmendAt a q then s else
    let c := a.conf
    let keys := changedBands s.conf c
    let cfg : ZCfg := { q0 := q, zones := c.zones, filters := c.filters, params := c.zparams, changed := keys,
                        saved := s.zon.comps.filter fun e => keys.contains e.1 }
    let z := armBands s.zon keys
    let s := { s with
      conf := { s.conf with zones := c.zones, filters := c.filters, zparams := c.zparams }
      zon := { z with
        pend := none, cfgs := cfg :: z.cfgs
        grid := if c.zparams.ziMs = s.conf.zparams.ziMs then z.grid else zGridAmend z.grid q c.zparams.ziMs
        int := z.int.raise 3 }
      cfg := { s.cfg with amends := satAdd 16 s.cfg.amends 1 } }
    s.setReq a.req .applied q

/-- Acquisition start (12 R264): comparators ARMED, filters clear, the settings in force from output 0. -/
def zonAcqStart (s : State) : State :=
  let cfg : ZCfg := { q0 := 0, zones := s.conf.zones, filters := s.conf.filters, params := s.conf.zparams, changed := [], saved := [] }
  { s with zon := { s.zon with
      running := true, comps := [], filt := [], pos := [], grid := [], cfgs := [cfg], cur := [], curTs := [], ints := [], decidedQ := 0 } }

/-- Acquisition ends. -/
def zonAcqEnd (s : State) : State := { s with zon := { s.zon with running := false } }

/-- The block reset of the zone engine (20 R445): filter states, energies and the event queue are cleared. -/
def zonReset (s : State) : State :=
  { s with zon := { s.zon with filt := [], pos := [], comps := [], queue := [], lostRun := none, cur := [], curTs := [], ints := [] } }

/-- TRIG_OUT falls (12 R266). -/
def trigOutEnd (s : State) : State := { s with pads := { s.pads with trigOut := false } }

/-- The TRIG_OUT pulse ends (12 R266). -/
def execTrigOutPulseEnd (s : State) : Host.Outcome State Fault Refusal := s.done (trigOutEnd s)

end Sys2Proof.Machine
end

