-- ==== Sys2Proof/Machine/FibreEnd.lean ====
section
/-! DEFINITION. The receiver floor (03 R81), and the fibre-end detector: profiles, ends, END_REF, break and restoration (03 R82 to
R87). -/

namespace Sys2Proof.Machine

/-! ### Receiver floor (03 R81) -/

/-- The tick at which segment k of the floor measurement begins, where the range changes: segments of 250 µs in the last 1 ms of
AMP_SETTLE, each change at a multiple of 4,096 (03 R81; DEDUCED, log 76). -/
def State.floorTick (s : State) (k : Nat) : Nat :=
  alignUp (s.prb.settleFrom + (s.conf.laser.ampSettle - 1) * msTicks + k * 1000000) 4096

/-- The measurement begins in the last 1 ms of AMP_SETTLE, with range 0 (03 R81). -/
def floorStart (s : State) : State :=
  if s.prb.arm ≠ .settle then s else
  let t := s.floorTick 0
  { s with
    tim := (s.advance t).tim
    rxf := { s.rxf.setRange t 0 false with floorSeg := some 0, floorValid := false, pendSwitch := none } }

/-- The combined powers of every slot and position that the dark samples of a segment from tick `a` on hold the compression window
of; the 16 ticks after the range change are left out (03 R81; 08 R174; log 76). -/
def floorPowers (s : State) (a : Nat) (dark : List Sample) : List Nat :=
  let p := s.conf.probe
  let c0 := a + 16
  let need := p.nc + (pathOf p.plan).dp
  let n := if dark.length < 16 + need ∨ p.pitch = 0 then 0 else min p.p ((dark.length - 16 - need) / p.pitch + 1)
  (List.range p.slots).flatMap fun k => (List.range (ceilDiv n 1024)).flatMap fun (b : Nat) =>
    let f (y : Bool) : PolOut := compressPol p s.conf.window k c0 c0 (b : Int) (pathInput s c0 (dark.drop 16) y)
    let c := combinePol (f false) (f true)
    (c.pos.take (n - 1024 * b)).map fun v => (combinedPower c.e v).toNat

/-- The mean of the combined amplitudes squared, rounded to nearest (03 R81; log 12). -/
def meanPower (l : List Nat) : Nat := if l.length = 0 then 0 else min (2 ^ 32 - 1) (roundDiv l.sum l.length).toNat

/-- A 250 µs segment ends with its dark samples (03 R81): its floor is taken and the next range is set; the last one ends with range 3
in force. -/
def floorSegment (s : State) (dark : List Sample) : State :=
  match s.rxf.floorSeg with
  | none => s
  | some k =>
    let f := modAt s.rxf.floors k fun _ => meanPower (floorPowers s (s.floorTick k) dark)
    if k < 3 then
      let t := s.floorTick (k + 1)
      { s with
        tim := (s.advance t).tim
        rxf := { s.rxf.setRange t (k + 1) false with floors := f, floorSeg := some (k + 1) } }
    else { s with rxf := { s.rxf with floors := f, floorSeg := none, floorValid := true } }

/-! ### Profiles and ends (03 R82, R83) -/

/-- The bins of 1,024 ticks a block's positions fall in, with their powers and the range in force at their first position (03 R82). In
a bin without RANGE no range switch falls, so that range is in force at all its positions. -/
def binParts (segs : List RangeSeg) (sh : Shot) (b : Nat) (pw : List Int) (raw : List Raw) : List BinPart :=
  let p := sh.probe
  let n := 1024 / p.pitch
  (List.range p.pitch).map fun i =>
    let w := slice pw (i * n) n
    let bin := b * p.pitch + i
    { bin := bin, sum := w.sum.toNat, count := w.length
      range := (slice raw (i * n) n).any fun v => hasFlag v.fl qRange
      inForce := rangeAt segs (sh.c0 + 1024 * (bin : Int)) }

/-- A bin is above threshold (03 R82): power ≥ F_r·10^(END_THR/10) for the range r in force, compared exactly in the tenth power; one
with RANGE counts as above. -/
def binAbove (floors : List Nat) (thr : Nat) (x : BinPart) : Bool :=
  x.range || decide ((nth floors x.inForce 0 * x.count) ^ 10 * 10 ^ thr ≤ x.sum ^ 10)

/-- The end of a shot (03 R83): 1,024·(b + 1) ticks for the last bin b with bins b and b − 1 above threshold. -/
def shotEnd (floors : List Nat) (thr : Nat) (bins : List BinPart) : Nat :=
  let up := (bins.filter (binAbove floors thr)).map BinPart.bin
  ((up.filter fun b => b ≠ 0 ∧ up.contains (b - 1)).map fun b => 1024 * (b + 1)).foldl max 0

/-- The lower of the middle values of a list (03 R83). -/
def medianLow (l : List Nat) : Nat := nth (orderBy (fun a b => decide (a ≤ b)) l) ((l.length - 1) / 2) 0

/-- The detector is suspended (03 R87; RXF_STATUS END_SUSPENDED). -/
def State.endSuspended (s : State) : Bool :=
  s.conf.receiver.endEn == 0 || !s.rxf.floorValid || !s.rxf.endValid || s.rxf.loLost || !s.prb.launching || s.til.shedding

/-- A fibre event (12 R267). -/
def fibreEvent (s : State) (type first last pos count : Nat) : Event :=
  let ts (r : Nat) : Nat := s.tsDelta (1024 * (s.launchTick r : Int))
  { type := type, detail := 0, zone := 0xFFFF, seq := s.zon.nextSeq, tsA := ts first, tsB := ts last, index := first, level := 0,
    peak := 0, pos := pos, count := count, tag := 0, qword := 0 }

/-- A break is declared from its run of judged shots, newest first (03 R84, R85). -/
def declareBreak (s : State) (run : List Judged) : State :=
  let e := (run.map Judged.e).foldl max 0
  let first := (run.getLast?.map Judged.r).getD 0
  let last := (run.head?.map Judged.r).getD 0
  let p := if s.conf.probe.pitch = 0 then 0 else ceilDiv e s.conf.probe.pitch
  { s with
    rxf := { s.rxf with
      broken := true, endDecl := e, breakRun := [], restoreRun := 0, beyondPend := some (some (p, e)), int := s.rxf.int.raise 5 }
    zon := s.zon.push (fibreEvent s 0x10 first last p e) }

/-- The blocks from the one that holds position p on. -/
def blocksFrom (p n : Nat) : List Nat := (List.range n).filter fun b => decide (p < 1024 * (b + 1))

/-- The fibre is declared restored with judged shot `last`; `first` is the first of the confirming shots (03 R86). The blocks that
held BEYOND_END positions restart; a break not yet at its boundary has flagged none. -/
def declareRestored (s : State) (first last : Nat) : State :=
  let p := s.rxf.beyond.map Prod.fst
  let s := { s with
    rxf := { s.rxf with
      broken := false, endDecl := 0, breakRun := [], restoreRun := 0, beyondPend := some none, int := s.rxf.int.raise 6 }
    zon := s.zon.push (fibreEvent s 0x11 first last 0 s.rxf.endRef) }
  match p with
  | some p => s.askRestart (some (blocksFrom p s.conf.probe.nblocks)) false s.tim.tick
  | none => s

/-- A judged shot enters the counts of R84 and R86. -/
def judgeShot (s : State) (j : Judged) : State :=
  let s := { s with rxf := { s.rxf with
    endNow := j.e, judged := (j :: s.rxf.judged).take 128 } }
  if s.endSuspended then { s with rxf := s.rxf.suspend }
  else
    let n := s.conf.probe.slots
    let base := if s.rxf.broken then s.rxf.endDecl else s.rxf.endRef
    let run := if j.e + 2048 ≤ base then j :: s.rxf.breakRun else []
    let good := if s.rxf.broken ∧ s.rxf.endRef ≤ j.e + 2048 then s.rxf.restoreRun + 1 else 0
    let s := { s with rxf := { s.rxf with breakRun := run, restoreRun := good } }
    if min 4 n ≤ run.length ∧ run ≠ [] then declareBreak s run
    else if s.rxf.broken ∧ n ≤ good then declareRestored s ((nth s.rxf.judged (n - 1) j).r) j.r
    else s

/-- The raw-sample index from which the latest training restart applies: where the training in progress, or the latest, began (03 R83;
08 R179). -/
def State.trainFrom (s : State) : Nat := (s.coh.restarts.map Restart.fromR).foldl max 0

/-- END_REF is learned once the shot that completed training is judged or passed over (03 R83). -/
def learnEnd (s : State) : State :=
  match s.rxf.learn with
  | none => s
  | some r =>
    if s.rxf.profiles.any fun p => decide (p.r ≤ r) then s
    else
      let l := ((s.rxf.judged.filter fun j => decide (s.trainFrom ≤ j.r ∧ j.r ≤ r)).take s.conf.probe.slots).map Judged.e
      let s := { s with rxf := { s.rxf with learn := none } }
      if l = [] then s
      else { s with rxf := { s.rxf with endRef := medianLow l, endValid := true, int := s.rxf.int.raise 7 } }

/-- Profiles resolved in launch order: the oldest ones whose processed blocks are all released leave, judged or not (03 R82). -/
def resolveProfiles (s : State) : Nat → State
  | 0 => s
  | fuel + 1 =>
    match s.rxf.profiles with
    | [] => s
    | p :: rest =>
      if p.released < p.blocks then s
      else
        let s := { s with rxf := { s.rxf with profiles := rest } }
        let s := if p.bad then s else
          judgeShot s { r := p.r, e := shotEnd s.rxf.floors s.conf.receiver.endThr p.bins }
        resolveProfiles (learnEnd s) fuel

/-- Row (r, b) is released (03 R82): its bins when it is a committed row, or the shot is not judged. -/
def profileRelease (s : State) (r b : Nat) (placeholder : Bool) : State :=
  let f (p : ShotProf) : ShotProf :=
    if p.r = r ∧ b < p.blocks then { p with released := p.released + 1, bad := p.bad || placeholder } else p
  let s := { s with rxf := { s.rxf with profiles := s.rxf.profiles.map f } }
  resolveProfiles s s.rxf.profiles.length

/-- The bins of a committed shot sheaf join the profile of its shot (03 R82). -/
def profileCommit (s : State) (r : Nat) (parts : List BinPart) : State :=
  { s with rxf := { s.rxf with profiles := s.rxf.profiles.map fun p =>
      if p.r = r then { p with bins := p.bins ++ parts } else p } }

/-- BEYOND_END takes or ends effect at a boundary (03 R85, R86). -/
def beyondBoundary (s : State) : State :=
  match s.rxf.beyondPend with
  | none => s
  | some b =>
    { s with
      rxf := { s.rxf with beyond := b, beyondPend := none }
      dts := if b.isNone then { s.dts with endDecl := none } else s.dts }

/-! ### Meanings -/

/-- The floor measurement begins (03 R81). -/
def execFloorMeasurementStart (s : State) : Host.Outcome State Fault Refusal := s.done (floorStart s)

/-- A floor segment ends (03 R81). -/
def execFloorSegmentEnd (dark : List Sample) (s : State) : Host.Outcome State Fault Refusal :=
  s.done (floorSegment s dark)

end Sys2Proof.Machine
end

