-- ==== Sys2Proof/Machine/Time.lean ====
section
/-! DEFINITION. Time base and interval measurement: REF_IN, PPS, TOD, the TDC channels, and TIME_SET (16 R341 to R360). -/

namespace Sys2Proof.Machine

/-! ### TDC channels (16 R353 to R358) -/

/-- TDC channel n. -/
def Tim.tdc (t : Tim) (n : Nat) : Tdc :=
  match n with
  | 0 => t.tdc0
  | 1 => t.tdc1
  | 2 => t.tdc2
  | _ => t.tdc3

/-- TDC channel n set. -/
def Tim.setTdc (t : Tim) (n : Nat) (d : Tdc) : Tim :=
  match n with
  | 0 => { t with tdc0 := d }
  | 1 => { t with tdc1 := d }
  | 2 => { t with tdc2 := d }
  | _ => { t with tdc3 := d }

/-- The tick of the timing-clock edge of the present cycle: a multiple of 16 (01 R17). -/
def State.clockEdge (s : State) : Nat := s.tim.tick / 16 * 16

/-- LSB in fs of a calibration, 4,000 ps/(N2 − N1), rounded to nearest (16 R354; log 12); 0 where N2 ≤ N1. -/
def lsbFs (n1 n2 : Nat) : Nat := if n2 ≤ n1 then 0 else (roundDiv 4000000 (n2 - n1)).toNat

/-- A calibration is accepted: LSB within 5–12 ps and o = 2·N1 − N2 within 0–64 (16 R354, R356). -/
def calOk (n1 n2 : Nat) : Bool :=
  n1 < n2 && 5 * (n2 - n1) ≤ 4000 && 4000 ≤ 12 * (n2 - n1) && n2 ≤ 2 * n1 && 2 * n1 ≤ n2 + 64

/-- f of a measurement as (picoseconds, divisor): (N − o)·4,000/(N2 − N1) ps (16 R354). -/
def vernier (d : Tdc) (n : Nat) : Int × Nat := (((n : Int) - (2 * d.n1 - d.n2)) * 4000, d.n2 - d.n1)

/-- Division ratio of a prescaler code (16 R358). -/
def prescRatio (code : Nat) : Nat := 4 ^ (code % 4)

/-- How a channel sees an edge. -/
inductive TdcEdge where
  /-- The prescaler lets it pass unmeasured (16 R358). -/
  | skipped
  /-- The channel is busy or retired: the cycle's instant at 4 ns resolution (16 R357), 2⁻⁴⁸ ns. -/
  | coarse (t : Nat)
  /-- Measured: instant in 2⁻⁴⁸ ns, f as (ps, divisor), the C it counted. -/
  | measured (t : Nat) (f : Int × Nat) (c : Nat)
  deriving DecidableEq, Repr

/-- Instant in 2⁻⁴⁸ ns, if the edge counts at all. -/
def TdcEdge.instant : TdcEdge → Option Nat
  | .skipped => none
  | .coarse t => some t
  | .measured t _ _ => some t

/-- An edge at the stop input of channel n (16 R354 to R358): the prescaler counts it; a busy or retired channel timestamps it
coarsely and counts COARSE_ONLY; else the result registers take it and the channel is busy until its next calibration. -/
def State.tdcEdge (s : State) (n : Nat) (m : TdcIn) : State × TdcEdge :=
  let d := s.tim.tdc n
  let q := prescRatio (nth s.conf.time.presc n 0)
  let v := d.presc
  let hit := q = 1 ∨ (q ≤ v ∧ v % q = 0)
  let d := { d with presc := if v + 1 ≥ 2 * q then q else v + 1 }
  if ¬ hit then ({ s with tim := s.tim.setTdc n d }, .skipped)
  else if d.busy ∨ s.aos.tdcs.contains n then
    ({ s with tim := s.tim.setTdc n { d with coarse := satAdd 16 d.coarse 1 } }, .coarse (s.t48 s.clockEdge))
  else
    let f := vernier d m.n
    let ovf : Bool := decide (2 ^ 28 ≤ m.c)
    ({ s with tim := s.tim.setTdc n { d with c := m.c % 2 ^ 28, ovf := ovf, valid := !ovf, n := m.n % 2 ^ 11, busy := true } },
      .measured ((s.t48 s.clockEdge : Int) - ps48 f.1 f.2).toNat f m.c)

/-- A calibration ends the busy time and is accepted, or is discarded, counted in CAL_BAD and starts the self-test
(16 R354, R356). A retired channel stays as it is. -/
def tdcCal (s : State) (ch n1 n2 : Nat) : State :=
  let d := s.tim.tdc ch
  if s.aos.tdcs.contains ch then s
  else if calOk n1 n2 then
    { s with tim := s.tim.setTdc ch { d with n1 := n1 % 2 ^ 11, n2 := n2 % 2 ^ 11, lsb := lsbFs n1 n2, busy := false } }
  else
    let d := { d with calBad := satAdd 16 d.calBad 1, busy := true, testing := some (lsbFs n1 n2, 2 * (n1 : Int) - n2) }
    { s with tim := s.tim.setTdc ch d }

/-- DATA of a TDC fault entry: LSB in fs, o (22 R489; log 13). -/
def tdcData (t : Nat × Int) : List Byte := leBytes 4 t.1 ++ leBytes 4 (ofInt 32 t.2)

/-- The launch-monitor correction freezes (02 R46): LMON_FROZEN; 16 valid measurements in a row end it. -/
def State.freezeLmon (s : State) : State :=
  { s with prb := { s.prb with lmonFrozen := true, lmonGood := [] } }

/-- The self-test of a channel ends (16 R356): it resumes, or it is retired, TDC_FAULT is set and FAULT_N pulses; a retired
TDC_CH_0 freezes the launch-monitor correction. -/
def tdcTestEnd (s : State) (ch : Nat) (pass : Bool) (t : Nat × Int) : State :=
  let d := s.tim.tdc ch
  if pass then
    ({ s with tim := s.tim.setTdc ch { d with testing := none, busy := false } } : State).transient 0x0701 ch (tdcData t)
  else
    let tim := s.tim.setTdc ch { d with testing := none }
    let s := { s with
      tim := { tim with int := tim.int.raise 4 }
      aos := { s.aos with tdcs := addOnce s.aos.tdcs ch } }
    (if ch = 0 then s.freezeLmon else s).lasting 0x0701 ch (tdcData t)

/-- The self-test passes when each of its 16 intervals is within ±2 LSB (16 R356). -/
def tdcSelfTest (s : State) (ch : Nat) (dev : List Int) : State :=
  match (s.tim.tdc ch).testing with
  | none => s
  | some t => tdcTestEnd s ch (dev.all fun e => decide (-2 ≤ e ∧ e ≤ 2)) t

/-- An edge of REF_IN or SYNC_P/N on TDC_CH_3 (16 R353); a cascade member sends a SYNC edge's instant to the master
(21 R459). -/
def tdc3 (s : State) (m : TdcIn) : State :=
  let (t, e) := s.tdcEdge 3 m
  match e.instant with
  | none => t
  | some x =>
    if t.conf.cascade.role ≠ 0 ∧ t.conf.time.tdc3Sel = 1 then
      let t := { t with cas := { t.cas with syncInst := x } }
      if t.cas.master then t else t.sendRing (.syncInstant x)
    else t

/-! ### Reference (16 R341 to R343) -/

/-- REF_IN is used while qualified and selected (16 R341). -/
def State.refExt (s : State) : Bool := s.tim.refOk && s.conf.time.refSel != 0

/-- REF_IN's qualification changes (16 R342): REF_CHANGE; the reference in use changes when REF_SEL names REF_IN (R343). -/
def setRef (s : State) (ok : Bool) : State :=
  if s.tim.refOk = ok then s
  else { s with tim := { s.tim with
      refOk := ok
      int := s.tim.int.raise 0
      refSwitches := if s.conf.time.refSel ≠ 0 then satAdd 16 s.tim.refSwitches 1 else s.tim.refSwitches } }

/-! ### PPS and TOD (16 R349 to R352) -/

/-- ρ limited to ±50 ppm in units of 2⁻³² (16 R344). -/
def rhoLimit (r : Int) : Int := clampInt (-214748) 214748 r

/-- −e/1 s × 1/d in units of 2⁻³², rounded to nearest; e in 2⁻⁴⁸ ns (16 R351; log 12). -/
def rhoOf (e : Int) (d : Nat) : Int := roundDiv (-e * (2 ^ 32 : Nat)) (sec48 * d)

/-- The value of one decimal digit. -/
def decDigit (b : Byte) : Option Nat := if 48 ≤ b.toNat ∧ b.toNat ≤ 57 then some (b.toNat - 48) else none

/-- The value of one hex digit; lower case only where `low`. -/
def hexDigit (low : Bool) (b : Byte) : Option Nat :=
  let c := b.toNat
  if 48 ≤ c ∧ c ≤ 57 then some (c - 48)
  else if 65 ≤ c ∧ c ≤ 70 then some (c - 55)
  else if low ∧ 97 ≤ c ∧ c ≤ 102 then some (c - 87)
  else none

/-- The value of decimal digits. -/
def decValue (l : List Byte) : Option Nat :=
  l.foldl (fun a b => a.bind fun n => (decDigit b).map fun d => 10 * n + d) (some 0)

/-- SEC and flags of a TOD sentence whose layout and checksum are right (16 R350). -/
def todParse (l : List Byte) : Option (Nat × Nat) :=
  if l.take 6 ≠ ascii "$KTOD," then none else
  let body := l.drop 6
  let sec := body.takeWhile fun b => b ≠ 44
  match body.drop sec.length with
  | [44, f1, f0, 42, c1, c0, 13, 10] =>
    let x := ((l.drop 1).take (l.length - 6)).foldl (fun a b => a ^^^ b) 0
    match decValue sec, hexDigit true f1, hexDigit true f0, hexDigit false c1, hexDigit false c0 with
    | some n, some a, some b, some c, some d =>
      if 1 ≤ sec.length ∧ sec.length ≤ 15 ∧ 16 * c + d = x.toNat then some (n, 16 * a + b) else none
    | _, _, _, _, _ => none
  | _ => none

/-- A TOD sentence ends `ms` after a PPS edge (16 R350): accepted as the label of the next edge, or counted in TOD_REJECTS; two
valid sentences of one second that disagree discard both. -/
def todReceive (s : State) (l : List Byte) (ms : Nat) : State :=
  let ok := match todParse l with
    | some (n, fl) => if 100 ≤ ms ∧ ms ≤ 900 ∧ fl % 2 = 1 then some n else none
    | none => none
  match ok with
  | none => { s with tim := { s.tim with todRejects := satAdd 16 s.tim.todRejects 1 } }
  | some n => { s with tim := { s.tim with label := match s.tim.label with
      | none => some (some n)
      | some (some m) => if m = n then some (some n) else some none
      | some none => some none } }

/-- The spacing of two edges is 1 s ± 1 µs (16 R349). -/
def spacingOk (a b : Nat) : Bool :=
  let d := (b : Int) - a - sec48
  decide (-(1000 * 2 ^ 48 : Nat) ≤ d ∧ d ≤ (1000 * 2 ^ 48 : Nat))

/-- The time map may be stepped (16 R346): no launch epoch exists, and the module does not acquire. -/
def State.mayStep (s : State) : Bool := !s.acquiring && s.prb.epoch.isNone

/-- A qualified edge steers the rate and the time state (16 R346, R348, R351). `t` is its instant. -/
def ppsSteer (s : State) (t : Nat) : State :=
  let label := match s.tim.label with
    | some (some n) => some n
    | _ => none
  let near := (roundDiv t sec48).toNat
  let e : Int := (t : Int) - (label.getD near) * sec48
  -- whole seconds are never slewed (R346)
  let w := roundDiv e sec48
  let ef := e - w * sec48
  let starts : Bool := s.tim.st != .locking && s.tim.st != .locked
  let s := { s with tim := { s.tim with
      label := none
      todOk := label.isSome
      ppsErr := clampInt (-2147483648) 2147483647 (roundDiv (e * 1000) (2 ^ 48))
      st := if starts then .locking else s.tim.st
      lockRun := if starts then 0 else s.tim.lockRun } }
  if label.isSome ∧ starts ∧ s.mayStep ∧ (e > (1000000 * 2 ^ 48 : Nat) ∨ e < -(1000000 * 2 ^ 48 : Nat)) then
    -- LOCKING starts outside acquisition with |e| > 1 ms: a step (R351, R346)
    let t' := ((s.t48 s.tim.tick : Int) - e).toNat
    let s := s.stepMap t' (rhoLimit s.tim.rhoF)
    { s with tim := { s.tim with secMismatch := false, stepOwed := none } }
  else
    let small : Bool := decide (-(100 * 2 ^ 48 : Nat) ≤ e ∧ e ≤ (100 * 2 ^ 48 : Nat))
    let run := if label.isNone then s.tim.lockRun else if small then s.tim.lockRun + 1 else 0
    let mismatch : Bool := label.isSome && w != 0
    let rho := rhoLimit (s.tim.rhoF + clampInt (-42949) 42949 (rhoOf ef 4))
    let locks : Bool := s.tim.st == .locking && decide (10 ≤ run)
    let s := { s with tim := { s.tim with
        lockRun := run
        st := if locks then .locked
              else if label.isSome && !small && s.tim.st == .locked then .locking else s.tim.st
        secMismatch := if label.isSome then mismatch else s.tim.secMismatch
        stepOwed := if label.isSome then (if mismatch then some (-w * sec48) else none) else s.tim.stepOwed
        pendRate := some (s.clockEdge + msTicks, rho)
        rhoF := rhoLimit (s.tim.rhoF + rhoOf ef 16)
        int := (s.tim.int.raiseIf (mismatch && !s.tim.secMismatch) 3).raiseIf locks 1 } }
    if locks then s.reloadRtc else s

/-- A PPS edge (16 R349, R351, R353): measured on TDC_CH_1; an edge outside the spacing of 1 s ± 1 µs is discarded, counted and
restarts qualification; a qualified edge steers the time map. Used only while TIME_SRC is 1 (19 R413). -/
def pps (s : State) (m : TdcIn) : State :=
  if s.conf.time.timeSrc ≠ 1 then s else
  let (s, e) := s.tdcEdge 1 m
  match e.instant with
  | none => s
  | some t =>
    match s.tim.ppsLast with
    | none => { s with tim := { s.tim with ppsLast := some t, ppsRun := 1 } }
    | some a =>
      if spacingOk a t then
        let run := s.tim.ppsRun + 1
        let s := { s with tim := { s.tim with
          ppsLast := some t, ppsTick := if 3 ≤ run then some s.tim.tick else s.tim.ppsTick, ppsRun := run, ppsOk := decide (3 ≤ run) } }
        if 3 ≤ run then ppsSteer s t else { s with tim := { s.tim with label := none } }
      else { s with tim := { s.tim with
          ppsLast := none, ppsRun := 0, ppsOk := false, ppsRejects := satAdd 16 s.tim.ppsRejects 1 } }

/-- The sum of ρ over the ticks from `a` up to `b`, each with the ρ of the segment that governs it; segments newest first. -/
def rhoSum (segs : List TimeSeg) (a b : Nat) : Int :=
  (segs.foldl (fun (e : Int × Nat) g =>
    let lo := max a g.xa
    if lo < e.2 then (e.1 + g.rho * (e.2 - lo : Nat), lo) else e) ((0, b) : Int × Nat)).1

/-- The mean of ρ over the last 64 s (16 R348), rounded to nearest (log 12); over the time since the tick index began where that is
shorter. -/
def rhoMean (s : State) : Int :=
  let b := s.tim.tick
  let a := b - 64 * secTicks
  if b = 0 then s.tim.map.rho else roundDiv (rhoSum (s.tim.map :: s.tim.mapOld) a b) (b - a)

/-- The time source is lost (16 R348, R352): from LOCKED the state becomes HOLDOVER with ρ frozen at its mean over the last 64 s. -/
def holdTime (s : State) : State :=
  let s := { s with tim := { s.tim with ppsOk := false, ppsRun := 0, ppsLast := none, lockRun := 0 } }
  match s.tim.st with
  | .locked =>
    let s := s.newSeg s.tim.tick (rhoMean s)
    { s with tim := { s.tim with st := .holdover, pendRate := none, int := s.tim.int.raise 2 } }
  | _ => s

/-- PPS is lost 1.000002 s after the latest qualified edge (16 R349); an edge of the cycle of the expiry comes first (01 R26). -/
def ppsLoss (s : State) : State :=
  match s.tim.ppsTick with
  | none => holdTime s
  | some t =>
    let s := holdTime (s.expire (t + 4000008000))
    { s with tim := { s.tim with ppsTick := none } }

/-- The new rate takes effect 1 ms after its edge as a new segment (16 R344, R351). -/
def rateStart (s : State) : State :=
  match s.tim.pendRate with
  | none => s
  | some (x, rho) =>
    let s := s.newSeg x rho
    { s with tim := { (s.advance x).tim with pendRate := none } }

/-- Decimal digits of a number as ASCII (16 R350), at most 15 of them. -/
def decAscii (n : Nat) : List Byte := ascii (Nat.repr n)

/-- Two upper-case hex digits. -/
def hexAscii (n : Nat) : List Byte :=
  let d (k : Nat) : Byte := BitVec.ofNat 8 (if k < 10 then 48 + k else 55 + k)
  [d (n / 16 % 16), d (n % 16)]

/-- A TOD sentence (16 R350). -/
def todSentenceOf (sec flags : Nat) : List Byte :=
  let body := ascii "KTOD," ++ decAscii sec ++ [44] ++ hexAscii flags
  [36] ++ body ++ [42] ++ hexAscii (body.foldl (fun a b => a ^^^ b) (0 : Byte)).toNat ++ [13, 10]

/-- The module's own sentence, 500 ms after each second, labelling the next one (16 R352): in any state other than FREE and RTC,
VALID in LOCKED and SET. -/
def todSend (s : State) : State :=
  match s.tim.st with
  | .free | .rtc => s
  | _ => { s with pads := { s.pads with todTx := todSentenceOf (tsSec s.now + 1) s.timeGood } }

/-- TIME_SET (16 R347; 18 R400): CONFLICT unless TIME_SRC is 0, BUSY in acquisition and while a launch epoch exists (R346); else the
map is set, ρ is 0 and the state SET. -/
def timeSetCmd (s : State) (w : Nat) : State × Response :=
  if s.conf.time.timeSrc ≠ 0 then (s, plain .conflict)
  else if !s.mayStep then (s, plain .busy)
  else match tsOfLayout w with
    | none => (s, plain .invalid)
    | some ts =>
      let s := s.stepMap (ts * 2 ^ 32) 0
      let s := { s with tim := { s.tim with st := .set, secMismatch := false, stepOwed := none } }
      (s.reloadRtc, plain .ok)

/-- Acquisition start: prescalers are reset (16 R358); a step owed is made, with the disciplined rate (R346). -/
def timeAcqStart (s : State) : State :=
  let r (d : Tdc) : Tdc := { d with presc := 0 }
  let s := { s with tim := { s.tim with
      tdc0 := r s.tim.tdc0, tdc1 := r s.tim.tdc1, tdc2 := r s.tim.tdc2, tdc3 := r s.tim.tdc3 } }
  match s.tim.stepOwed with
  | none => s
  | some d =>
    let s := s.stepMap ((s.t48 s.tim.tick : Int) + d).toNat (rhoLimit s.tim.rhoF)
    { s with tim := { s.tim with stepOwed := none, secMismatch := false } }

/-! ### Meanings -/

/-- TIME_SET. -/
def execTimeSet (h : Hdr) (time : Nat) (s : State) : Host.Outcome State Fault Refusal :=
  s.done (s.command1 h 0x0030 1 fun s _ => timeSetCmd s time)

/-- REF_IN within ±5 ppm for 10 s qualifies (16 R342). -/
def execRefQualified (s : State) : Host.Outcome State Fault Refusal := s.done (setRef s true)

/-- A missing edge or a frequency beyond ±10 ppm disqualifies REF_IN (16 R342). -/
def execRefDisqualified (s : State) : Host.Outcome State Fault Refusal := s.done (setRef s false)

/-- A PPS edge (16 R349, R351). -/
def execPpsEdge (m : TdcIn) (s : State) : Host.Outcome State Fault Refusal := s.done (pps s m)

/-- PPS is lost (16 R352). -/
def execPpsLost (s : State) : Host.Outcome State Fault Refusal := s.done (ppsLoss s)

/-- A TOD sentence is received (16 R350). -/
def execTodSentence (bytes : List Byte) (msAfterEdge : Nat) (s : State) : Host.Outcome State Fault Refusal :=
  s.done (todReceive s bytes msAfterEdge)

/-- A rate segment starts (16 R351). -/
def execRateSegmentStart (s : State) : Host.Outcome State Fault Refusal := s.done (rateStart s)

/-- The module sends its own sentence (16 R352). -/
def execTodTxSend (s : State) : Host.Outcome State Fault Refusal := s.done (todSend s)

/-- An edge on TDC_CH_3 (16 R353). -/
def execTdc3Edge (m : TdcIn) (s : State) : Host.Outcome State Fault Refusal := s.done (tdc3 s m)

/-- A TDC calibration is done (16 R354, R356). -/
def execTdcCalDone (ch n1 n2 : Nat) (s : State) : Host.Outcome State Fault Refusal := s.done (tdcCal s ch n1 n2)

/-- A TDC self-test ends (16 R356). -/
def execTdcSelfTestDone (ch : Nat) (devLsb : List Int) (s : State) : Host.Outcome State Fault Refusal :=
  s.done (tdcSelfTest s ch devLsb)

end Sys2Proof.Machine
end

