-- ==== Sys2Proof/Machine/Housekeeping.lean ====
section
/-! DEFINITION. The housekeeping converter, its buffer and comparators, and the RTD channels (17 R361 to R380). -/

namespace Sys2Proof.Machine

/-! ### The buffer and its readers (17 R365 to R371) -/

/-- One reader of the buffer: its index, its unread samples, the index at which it wraps, the samples it lost. -/
structure HkReader where
  rd : Nat
  unread : Nat
  wrap : Nat
  lost : Nat
  deriving DecidableEq, Repr

/-- The slots of a reader's unread samples, oldest first: from `rd` on, to 0 at `wrap`, and at `len` after that (17 R371). -/
def HkReader.slots (r : HkReader) (len : Nat) : List Nat :=
  (List.range r.unread).map fun i =>
    let j := r.rd + i
    if j < r.wrap then j else (j - r.wrap) % len

/-- The index after `rd`: 0 at `wrap`, and the wrap is the length in force from then on (17 R371; log 15). -/
def HkReader.advance (r : HkReader) (len : Nat) : HkReader :=
  if r.rd + 1 ≥ r.wrap then { r with rd := 0, wrap := len } else { r with rd := r.rd + 1 }

/-- A sample written at slot `wp`: where the slot holds an unread sample, which is then the oldest, it is overwritten, the
reader advances by one and loses one sample (17 R368, R369; log 15). -/
def HkReader.written (r : HkReader) (len wp : Nat) : HkReader :=
  if r.unread ≠ 0 ∧ wp = r.rd then { r.advance len with lost := r.lost + 1 } else { r with unread := r.unread + 1 }

/-- A new length takes effect at WP = 0 (17 R370, R371): unread samples at or beyond it are dropped; an index at or beyond it
goes to 0; a growing buffer keeps the old wrap. -/
def HkReader.relength (r : HkReader) (len new : Nat) : HkReader :=
  if len ≤ new then r
  else
    let gone := ((r.slots len).filter fun i => decide (new ≤ i)).length
    { rd := if new ≤ r.rd then 0 else r.rd, unread := r.unread - gone, wrap := new, lost := r.lost + gone }

/-- The read index moved to `v` (17 R367, R371): none where `v` is neither WP nor the index of an unread sample. A lower index
ends a wrap at the old length. -/
def HkReader.moveTo (r : HkReader) (len wp v : Nat) : Option HkReader :=
  let w := if v < r.rd then len else r.wrap
  if v = wp then some { r with rd := v, unread := 0, wrap := w }
  else match (r.slots len).findIdx? fun i => i == v with
    | some n => some { r with rd := v, unread := r.unread - n, wrap := w }
    | none => none

/-- The host reader. -/
def Hka.reader (a : Hka) : HkReader := { rd := a.rd, unread := a.unread, wrap := a.rwrap, lost := 0 }

/-- The host reader set; samples it lost count in HK_OVR and set OVR (17 R368, R370). -/
def Hka.setReader (a : Hka) (r : HkReader) : Hka :=
  { a with rd := r.rd, unread := r.unread, rwrap := r.wrap, ovr := satAdd 32 a.ovr r.lost,
           int := a.int.raiseIf (r.lost != 0) 2 }

/-- The reader of an HK stream; its losses go to the LOST field of its next batch (17 R369). -/
def Stream.hkReader (x : Stream) : HkReader := { rd := x.hkRd, unread := x.hkUnread, wrap := x.hkWrap, lost := x.hkLost }

/-- The reader of an HK stream set. -/
def Stream.setHkReader (x : Stream) (r : HkReader) : Stream :=
  { x with hkRd := r.rd, hkUnread := r.unread, hkWrap := r.wrap, hkLost := r.lost }

/-- Stream n is an enabled HK stream (15 R326: STYPE 8). -/
def State.isHkStream (s : State) (n : Nat) : Bool :=
  let c := nth s.conf.streams n {}
  c.en == 1 && c.stype == 8

/-- `f` applied to the reader of every enabled HK stream. -/
def State.hkStreams (s : State) (f : HkReader → HkReader) : State :=
  let l := s.net.streams.mapIdx fun n x => if s.isHkStream n then x.setHkReader (f x.hkReader) else x
  { s with net := { s.net with streams := l } }

/-- A pending length takes effect as WP wraps to 0 (17 R370). -/
def hkRelength (s : State) : State :=
  match s.hka.lenNew with
  | none => s
  | some (req, new) =>
    let old := s.hka.len
    let s := s.hkStreams fun r => r.relength old new
    let a := s.hka.setReader (s.hka.reader.relength old new)
    let s := { s with
      hka := { a with len := new, lenNew := none, buf := smDrop a.buf fun i => decide (new ≤ i), int := a.int.raise 3 }
      conf := { s.conf with hk := { s.conf.hk with len := new } }
      cfg := { s.cfg with amends := satAdd 16 s.cfg.amends 1 } }
    s.setReq req .applied 0

/-- A sample word into the buffer (17 R365, R366, R368 to R370). -/
def hkStore (s : State) (w : Nat) : State :=
  let wp := s.hka.wp
  let len := s.hka.len
  let s := s.hkStreams fun r => r.written len wp
  let a := s.hka.setReader (s.hka.reader.written len wp)
  let s := { s with hka := { a with
      buf := smSet 0 a.buf wp w
      widx := (a.widx + 1) % 2 ^ 64
      wp := if wp + 1 ≥ len then 0 else wp + 1 } }
  if s.hka.wp = 0 then hkRelength s else s

/-- The host writes HK_RD (17 R367): accepted only for WP or an unread index, else ignored with RD_BAD set. -/
def hkWriteRd (s : State) (v : Nat) : State :=
  match s.hka.reader.moveTo s.hka.len s.hka.wp v with
  | some r => { s with hka := { s.hka with rd := r.rd, unread := r.unread, rwrap := r.wrap } }
  | none => { s with hka := { s.hka with rdBad := true } }

/-! ### Window comparators (17 R372, R373) -/

/-- What a comparator does with a sample: its next state, whether it departed, whether it re-armed (17 R372). -/
def cmpStep (c : CmpCfg) (k : HkComp) (code : Nat) : HkComp × Bool × Bool :=
  match k.st with
  | 0 =>
    if code < c.low ∨ c.high < code then
      if c.persist ≤ k.count + 1 then ({ st := if code < c.low then 1 else 2, count := 0 }, true, false)
      else ({ k with count := k.count + 1 }, false, false)
    else ({ k with count := 0 }, false, false)
  | 1 => if c.low + c.hyst ≤ code then ({ st := 0, count := 0 }, false, true) else (k, false, false)
  | _ => if code + c.hyst ≤ c.high then ({ st := 0, count := 0 }, false, true) else (k, false, false)

/-- DATA of a comparator entry: channel, code, HK_WIDX (22 R489; log 13). -/
def cmpData (ch code widx : Nat) : List Byte := leBytes 4 ch ++ leBytes 4 code ++ leBytes 8 widx

/-- The settings of the comparators as they are or wait to be (17 R373). -/
def State.cmpsDue (s : State) : List CmpCfg := s.conf.hk.cmps.mapIdx fun n c => (smGet none s.hka.cmpNew n).getD c

/-- Amended settings of comparators wait for the next sample of their channel (17 R373). -/
def State.cmpAmend (s : State) (new : List CmpCfg) : State :=
  { s with hka := { s.hka with cmpNew := (new.zip s.cmpsDue).zipIdx.foldl (fun m e =>
      if e.1.1 = e.1.2 then m else smSet none m e.2 (some e.1.1)) s.hka.cmpNew } }

/-- A sample of channel `ch` brings the amended settings of comparator n into force, ARMED with count 0 (17 R373): `ch` is the channel that
they name (DEDUCED, log 15). -/
def cmpTake (s : State) (n ch : Nat) : State :=
  match smGet none s.hka.cmpNew n with
  | none => s
  | some c =>
    if c.ch ≠ ch then s else
    { s with
      conf := { s.conf with hk := { s.conf.hk with cmps := modAt s.conf.hk.cmps n fun _ => c } }
      hka := { s.hka with cmpNew := smSet none s.hka.cmpNew n none, comps := modAt s.hka.comps n fun _ => {} } }

/-- Comparator n evaluates a sample of channel `ch` (17 R372) and carries out its actions (R373). -/
def cmpEval (s : State) (n ch code widx : Nat) : State :=
  let s := cmpTake s n ch
  let c := nth s.conf.hk.cmps n {}
  if c.en ≠ 1 ∨ c.ch ≠ ch then s else
  let (k, left, armed) := cmpStep c (nth s.hka.comps n {}) code
  let s := { s with hka := { s.hka with
      comps := modAt s.hka.comps n fun _ => k
      int := (s.hka.int.raiseIf (left && bit c.act 0) 0).raiseIf armed 1 } }
  let s := if left && bit c.act 1 then s.pulse else s
  if left && bit c.act 2 then s.log 0x0901 0 n (cmpData ch code widx) else s

/-! ### Scanning (17 R363 to R365) -/

/-- The effective mask: HK_MASK with channel 16 forced (17 R363). -/
def hkMask (m : Nat) : Nat := m ||| 0x10000

/-- The channels of a mask in increasing number. -/
def hkChannels (m : Nat) : List Nat := (List.range 32).filter fun c => bit m c

/-- One microsecond in ticks, 32 cycles of the housekeeping clock (01 R16). -/
def usTicks : Nat := 4000

/-- The tick at which the next scan starts (17 R363): HK_PERIOD µs after the start of the latest one, or with 0 when its channels have
been converted; any tick for the first scan. -/
def Hka.nextScan (a : Hka) : Nat :=
  match a.scanTick with
  | none => 0
  | some t => t + usTicks * if a.period = 0 then (hkChannels a.maskEff).length else a.period

/-- A scan starts under the settings in force now (17 R363, R364); none starts while one is in progress. -/
def hkScan (s : State) : State :=
  if ¬ s.hka.running ∨ s.hka.scan ≠ [] then s else
  let s := s.advance s.hka.nextScan
  let m := hkMask s.conf.hk.mask
  { s with hka := { s.hka with
      scanTick := some s.tim.tick
      scan := hkChannels m, first := true, maskEff := m, period := s.conf.hk.period,
      maskNew := s.hka.maskNew || s.hka.maskEff != m } }

/-- The sample word: code, SCAN_START, MASK_NEW (17 R365). -/
def hkWord (code : Nat) (first new : Bool) : Nat := code % 4096 + 4096 * b2n first + 8192 * b2n (first && new)

/-- The code of a conversion (17 R362): round_half_even(V·4,096/2.5 V), 0 for a negative input, at most 4,095; that of an internal source
as it comes. -/
def hkCode : HkIn → Nat
  | .volts uv => min 4095 (roundEven (uv * 4096) 2500000).toNat
  | .code n => min n 4095

/-- The tick at which the conversion in progress ends: one channel per microsecond of the scan (17 R363). -/
def Hka.convEnd (a : Hka) : Nat :=
  (a.scanTick.getD 0) + usTicks * ((hkChannels a.maskEff).length - a.scan.length + 1)

/-- A conversion of the next channel of the scan (17 R365 to R373); channel 16 also feeds the LO power (03 R79). -/
def hkConvert (s : State) (input : HkIn) : State :=
  if ¬ s.hka.running then s else
  match s.hka.scan with
  | [] => s
  | ch :: rest =>
    let s := s.advance s.hka.convEnd
    let code := hkCode input
    let widx := s.hka.widx
    let w := hkWord code s.hka.first s.hka.maskNew
    let s := { s with
      hka := { s.hka with
        scan := rest, maskNew := s.hka.maskNew && !s.hka.first, first := false,
        scans := if rest = [] then wrapAdd 32 s.hka.scans 1 else s.hka.scans,
        last := smSet none s.hka.last ch (some code) } }
    let s := hkStore (if ch = 16 then loReading s code else s) w
    (List.range 32).foldl (fun s n => cmpEval s n ch code widx) s

/-! ### RTD channels (17 R374 to R379) -/

/-- RTD channel n. -/
def Hka.rtd (a : Hka) (n : Nat) : Rtd :=
  match n with
  | 0 => a.rtd0
  | 1 => a.rtd1
  | 2 => a.rtd2
  | _ => a.rtd3

/-- RTD channel n set. -/
def Hka.setRtd (a : Hka) (n : Nat) (r : Rtd) : Hka :=
  match n with
  | 0 => { a with rtd0 := r }
  | 1 => { a with rtd1 := r }
  | 2 => { a with rtd2 := r }
  | _ => { a with rtd3 := r }

/-- Excitation current in nA (17 R380 EXC). -/
def excNa (code : Nat) : Nat :=
  match code with
  | 0 => 100000
  | 1 => 250000
  | 2 => 500000
  | _ => 1000000

/-- R0 in Ω (17 R375). -/
def rtdR0 (type : Nat) : Nat := if type = 0 then 100 else 1000

/-- 1 + A·T + B·T² + C·(T − 100)·T³ at T = h/200 °C, times 10¹⁵·200⁴: the IEC 60751 curve, the last term only below 0 °C
(17 R375). -/
def iecCurve (h : Int) : Int :=
  let d : Int := 200
  let lin := 1000000000000000 * d ^ 4 + 3908300000000 * h * d ^ 3 - 577500000 * h ^ 2 * d ^ 2
  if h < 0 then lin - 4183 * (h - 100 * d) * h ^ 3 else lin

/-- 10¹⁵·200⁴, the scale of `iecCurve`. -/
def iecScale : Int := 1000000000000000 * 200 ^ 4

/-- R_m (µV, nA) compared with the curve at T = h/200 °C: R_m/R0 − curve, in a common positive scale. -/
def iecCmp (type uv na : Nat) (h : Int) : Int :=
  1000 * (uv : Int) * iecScale - (rtdR0 type : Int) * na * iecCurve h

/-- The largest t in [lo, lo + 2^n) whose half point below, (t − ½)/100 °C, does not exceed R_m: bisection, the curve rising. -/
def rtdBisect (type uv na : Nat) : Nat → Int → Int
  | 0, lo => lo
  | n + 1, lo =>
    let mid := lo + (2 ^ n : Nat)
    rtdBisect type uv na n (if 0 ≤ iecCmp type uv na (2 * mid - 1) then mid else lo)

/-- round_half_even(100·T) of the temperature at which the curve gives R_m (17 R375; log 14). -/
def rtdTemp (type uv na : Nat) : Int :=
  let t := rtdBisect type uv na 17 (-20001)
  if iecCmp type uv na (2 * t - 1) = 0 ∧ t % 2 ≠ 0 then t - 1 else t

/-- The cause of a result (17 R376), the first row that applies. -/
def rtdCause (r : Rtd) (brk : Bool) (uv na : Nat) : Nat :=
  if brk then 1
  else if 100000 * uv < 15 * rtdR0 r.cfg.type * na then 2
  else if iecCmp r.cfg.type uv na (-40000) < 0 ∨ 0 < iecCmp r.cfg.type uv na 170000 then 3
  else if r.settling then 4
  else 0

/-- A break is seen (17 R376, R377): RTD_BREAK and its interrupt, counted once until it is restored. -/
def rtdSeeBreak (s : State) (n : Nat) : State :=
  let r := s.hka.rtd n
  if r.cfg.en ≠ 1 then s else
  let a := s.hka.setRtd n { r with
    brk := true, brkNow := true, breaks := if r.brk then r.breaks else satAdd 16 r.breaks 1 }
  { s with hka := { a with int := a.int.raiseIf (!r.brk) 5 } }

/-- 2.4 V, the compliance limit at RTD_EXC_n, in µV (17 R376, R378). -/
def rtdLimit : Nat := 2400000

/-- The conversion in progress of channel n ends, 1 ms after the one before it (17 R374); a channel that is disabled converts nothing. -/
def rtdTime (s : State) (n : Nat) : State :=
  let s := match (s.hka.rtd n).endTick with
    | none => s
    | some t => if (s.hka.rtd n).cfg.en = 1 then s.advance (t + msTicks) else s
  { s with hka := s.hka.setRtd n { s.hka.rtd n with endTick := some s.tim.tick } }

/-- A conversion ends (17 R374 to R379): its result, the end of a break, and the settings of the next conversion. A valid
reading of COIL_RTD is kept for the Raman channel (R378, 11 R246). -/
def rtdEnd (s : State) (n uv na : Nat) : State :=
  let s := rtdTime s n
  let s := if 10 * na < 9 * excNa (s.hka.rtd n).cfg.exc ∨ rtdLimit ≤ uv then rtdSeeBreak s n else s
  let r := s.hka.rtd n
  let new := nth s.conf.rtd n {}
  let settle : Bool := new.en == 1 && (r.cfg.en != 1 || r.cfg.type != new.type || r.cfg.exc != new.exc)
  if r.cfg.en ≠ 1 then { s with hka := s.hka.setRtd n { r with cfg := new, settling := settle || r.settling } } else
  let cause := rtdCause r r.brkNow uv na
  let temp := if cause = 0 then rtdTemp r.cfg.type uv na else -32768
  let restored : Bool := r.brk && cause != 1
  let a := s.hka.setRtd n { r with
    temp := temp, cause := cause, convs := wrapAdd 16 r.convs 1,
    res := if na = 0 then r.res else min (2 ^ 32 - 1) (roundDiv (100000 * uv) na).toNat,
    brk := r.brk && !restored, brkNow := false, settling := settle, cfg := new }
  let s := { s with hka := { a with int := a.int.raiseIf restored 6 } }
  if cause = 0 ∧ s.dts.running ∧ s.conf.dts.coilRtd = n then
    { s with dts := { s.dts with readings := s.dts.readings ++ [(s.tim.tick, temp)] } }
  else s

/-! ### Acquisition start and block reset -/

/-- At acquisition start HK_WIDX, WP and the read index are 0 and the buffer is empty (17 R366), for the streams' readers too
(R369). -/
def hkAcqStart (s : State) : State :=
  let len := s.hka.len
  let s := { s with hka := { s.hka with widx := 0, wp := 0, rd := 0, unread := 0, rwrap := len, buf := [] } }
  s.hkStreams fun _ => { rd := 0, unread := 0, wrap := len, lost := 0 }

/-- The block reset of housekeeping (20 R445): buffer emptied, comparators ARMED, RTD channels restart with SETTLING. -/
def hkReset (s : State) : State :=
  let r (x : Rtd) : Rtd := { x with settling := true, brkNow := false, endTick := none }
  { s with hka := { s.hka with
      buf := [], unread := 0, rd := s.hka.wp, rwrap := s.hka.len, comps := List.replicate 32 {},
      rtd0 := r s.hka.rtd0, rtd1 := r s.hka.rtd1, rtd2 := r s.hka.rtd2, rtd3 := r s.hka.rtd3 } }

/-! ### Meanings -/

/-- A housekeeping scan starts (17 R363). -/
def execHkScanStart (s : State) : Host.Outcome State Fault Refusal := s.done (hkScan s)

/-- One housekeeping conversion (17 R365). -/
def execHkConversion (input : HkIn) (s : State) : Host.Outcome State Fault Refusal := s.done (hkConvert s input)

/-- An RTD conversion ends (17 R375). -/
def execRtdConversionEnd (ch microvolts nanoamps : Nat) (s : State) : Host.Outcome State Fault Refusal :=
  s.done (rtdEnd s ch microvolts nanoamps)

/-- An RTD channel sees a break (17 R377). -/
def execRtdBreak (ch : Nat) (s : State) : Host.Outcome State Fault Refusal := s.done (rtdSeeBreak s ch)

end Sys2Proof.Machine
end

