-- ==== Sys2Proof/Machine/Acquire.lean ====
section
/-! DEFINITION. The history ring, triggers, segments, hold-off, the record store, gap records and raw capture (13 R271 to R292,
R522). -/

namespace Sys2Proof.Machine

/-! ### Derived values (13 R271, R275) -/

/-- D_h (13 R271). -/
def ringDepth (c : Conf) : Nat :=
  if c.probe.nblocks = 0 then 0 else c.acq.histGib * 2 ^ 30 / (c.probe.nblocks * 4128)

/-- P_OUT in ticks (13 R275). -/
def pOut (p : ProbeRec) (d : DecRec) : Nat := d.cicR * d.firDf * p.interval

/-- s_q(p) in quarter ticks (13 R275). -/
def sQuarter (tof0 pitch gauge p : Nat) : Int := 4 * (tof0 : Int) + (2 * (p : Int) - gauge) * pitch

/-- d_p (13 R275). -/
def skewOf (tof0 pitch gauge pout p : Nat) : Int := if pout = 0 then 0 else roundEven (sQuarter tof0 pitch gauge p) (4 * pout)

/-- The sensing offset of a position in units of 2⁻¹⁶ ns: a quarter tick is 4,096 of them (13 R274, R275). -/
def sensingOffset (c : Conf) (p : Nat) : Int := 4096 * sQuarter c.acq.tof0 c.probe.pitch c.phase.gauge p

/-- Capacity of the record store in bytes (13 R284). -/
def storeBytes (c : Conf) : Nat := c.acq.recStoreGib * 2 ^ 30

/-- UNSYNC (21 R458). -/
def State.unsync (s : State) : Bool := s.conf.cascade.role != 0 && (!s.cas.joined || s.cas.lost0)

/-- MODFLAGS as they hold now (13 R290). -/
def State.modflags (s : State) : Nat := b2n s.unsync + 2 * b2n s.standbyRole + 4 * b2n s.pwr.warn

/-! ### The directory and the store (13 R284, R285, R287) -/

/-- Bytes of the store in use: segments with their reserved space, and gap records; a raw capture lies in its own region. -/
def Acq.used (a : Acq) : Nat := ((a.dir.filter fun e => e.type != 3).map DirEntry.length).sum

/-- A new entry of `len` bytes fits. -/
def Acq.fits (a : Acq) (cap len : Nat) : Bool := decide (a.used + len ≤ cap ∧ a.dir.length < 65536)

/-- An entry may be evicted: complete, not locked, not being sent (13 R285). -/
def DirEntry.evictable (e : DirEntry) : Bool := e.complete && !e.locked && e.sending == []

/-- The entry evicted next: the oldest gap record, else the oldest segment record (13 R285, R287). -/
def Acq.victim (a : Acq) : Option DirEntry :=
  match a.dir.find? fun e => e.type == 2 && e.evictable with
  | some e => some e
  | none => a.dir.find? fun e => e.type == 1 && e.evictable

/-- Evictions until an entry fits; nothing is evicted when it cannot be made to fit (13 R285). -/
def Acq.makeRoom (a : Acq) (cap len : Nat) : Nat → Option Acq
  | 0 => if a.fits cap len then some a else none
  | fuel + 1 =>
    if a.fits cap len then some a
    else match a.victim with
      | none => none
      | some e => Acq.makeRoom { a with
          dir := a.dir.erase e, evicted := satAdd 16 a.evicted 1, int := a.int.raise 3 } cap len fuel

/-- Room for a gap record: only gap records are evicted for it (13 R287). -/
def Acq.gapRoom (a : Acq) (cap : Nat) : Nat → Option Acq
  | 0 => if a.fits cap 64 then some a else none
  | fuel + 1 =>
    if a.fits cap 64 then some a
    else match a.dir.find? fun e => e.type == 2 && e.evictable with
      | none => none
      | some e => Acq.gapRoom { a with dir := a.dir.erase e } cap fuel

/-- The 64 bytes of a gap record (13 R287). -/
def GapRec.bytes (g : GapRec) : List Byte :=
  leBytes 1 2 ++ leBytes 1 g.cause ++ zeros 2 ++ leBytes 4 g.recId ++ leBytes 8 (ofInt 64 g.first) ++ leBytes 8 g.count ++
    leBytes 16 g.blocks ++ leBytes 12 (tsLayout g.tsFirst) ++ leBytes 4 g.gapSeq ++ zeros 8

/-- A gap record is made (13 R287): stored where there is room, sent on every RECORD stream, counted. -/
def makeGap (s : State) (cause recId : Nat) (first : Int) (count blocks tsFirst : Nat) : State :=
  let g : GapRec := { cause := cause, recId := recId, first := first, count := count, blocks := blocks, tsFirst := tsFirst,
                      gapSeq := s.acq.gapSeq }
  let a := { s.acq with gapSeq := wrapAdd 32 s.acq.gapSeq 1, gaps := satAdd 32 s.acq.gaps 1, int := s.acq.int.raise 4 }
  let a := match a.gapRoom (storeBytes s.conf) a.dir.length with
    | some b => { b with dir := b.dir ++ [{ recId := recId, type := 2, complete := true, locked := false, sending := [],
                                            length := 64, tTrig := tsFirst, body := .gap g }] }
    | none => a
  ({ s with acq := a } : State).handUnit 5 { newest := none, begins := s.tim.tick, unit := g.gapSeq, ts := tsFirst, qword := 0, bytes := g.bytes }

/-- TS_FIRST of an output: its timestamp where it was produced, else 0 (13 R287). -/
def State.tsFirst (s : State) (q : Int) : Nat :=
  if q < 0 then 0 else ((s.acq.outTs.find? fun e => e.1 == q.toNat).map Prod.snd).getD 0

/-- Bit `b` of a block map. -/
def blockBit (b : Nat) : Nat := 2 ^ b

/-! ### History ring (13 R272, R273) -/

/-- The oldest held output: the first of the acquisition, or the one D_h − 1 before the newest stored in every block (13 R272). -/
def Acq.oldestQ (a : Acq) : Nat := max a.firstQ (a.newQ - a.depth)

/-- The row the ring holds in the slot of output q, block b (13 R271). -/
def Acq.slotRow (a : Acq) (q b : Nat) : Option OutRow := smGet none a.ring (ringKey a.depth q b)

/-- The row of output q and block b where the ring holds it. -/
def Acq.row (a : Acq) (q b : Nat) : Option OutRow := (a.slotRow q b).filter fun r => r.q == q

/-- The row of output q and block b has been overwritten by a newer output (13 R271). -/
def Acq.overwritten (a : Acq) (q b : Nat) : Bool := (a.slotRow q b).any fun r => decide (q < r.q)

/-- Maximal runs of consecutive outputs: first, count (13 R287); the list rises. -/
def runsOf : List Int → List (Int × Nat)
  | [] => []
  | q :: l =>
    match runsOf l with
    | (f, n) :: r => if f = q + 1 then (q, n + 1) :: r else (q, 1) :: (f, n) :: r
    | [] => [(q, 1)]

/-- The runs of outputs with LOST rows that end before output `y` become gap records of cause HISTORY (13 R273, R287): a run is maximal
once every block has stored the output after it. -/
def flushLost (s : State) (y : Nat) : State :=
  let runs := (runsOf (s.acq.histLost.map fun e => (e.1 : Int))).filter fun r => decide (r.1 + (r.2 : Int) < y)
  runs.foldl (fun s r =>
    let mine (q : Nat) : Bool := decide (r.1 ≤ (q : Int) ∧ (q : Int) < r.1 + (r.2 : Int))
    let m := orAll ((s.acq.histLost.filter fun e => mine e.1).map Prod.snd)
    makeGap { s with acq := { s.acq with histLost := smDrop s.acq.histLost mine } } 1 0xFFFFFFFF r.1 r.2 m (s.tsFirst r.1)) s

/-- A row is LOST: counted, and kept for its gap record (13 R273, R287). -/
def Acq.noteLost (a : Acq) (q b : Nat) : Acq :=
  { a with lostRows := satAdd 32 a.lostRows 1, histLost := smSet 0 a.histLost q (smGet 0 a.histLost q ||| blockBit b) }

/-- The history writer stores an output row in its slot, LOST where its FIFO has overflowed (13 R271 to R273; 14 R305). -/
def historyRow (s : State) (row : OutRow) : State :=
  if !s.acq.running then s else
  let (full, mem) := s.mem.lose 0
  let row := { row with lost := row.lost || full }
  let a := s.acq
  let n := s.dec.doneQ s.conf.probe.nblocks
  let a := { a with
    firstQ := if a.outTs = [] then row.q else a.firstQ
    ring := smSet none a.ring (ringKey a.depth row.q row.block) (some row)
    outTs := if a.outTs.any fun e => e.1 == row.q then a.outTs else a.outTs ++ [(row.q, row.ts)]
    newQ := max a.newQ n }
  flushLost { s with acq := if row.lost then a.noteLost row.q row.block else a, mem := mem.rewritten (s.rowAddr row.q row.block) 4128 } n

/-! ### Sources -/

/-- Source n. -/
def Acq.src (a : Acq) (n : Nat) : Source :=
  match n with
  | 0 => a.zone
  | 1 => a.pad
  | _ => a.cmd

/-- Source n set. -/
def Acq.setSrc (a : Acq) (n : Nat) (x : Source) : Acq :=
  match n with
  | 0 => { a with zone := x }
  | 1 => { a with pad := x }
  | _ => { a with cmd := x }

/-- Settings of source n. -/
def AcqRec.src (c : AcqRec) (n : Nat) : SrcRec :=
  match n with
  | 0 => c.zone
  | 1 => c.pad
  | _ => c.cmd

/-! ### Segments (13 R276 to R281, R291) -/

/-- k_T (13 R276): the smallest output held or to be produced whose timestamp is at or after t_T; none while none is known. Outside
acquisition, the output after the last one (R522). -/
def State.kTof (s : State) (tT : Nat) : Option Nat :=
  match s.acq.outTs.find? fun e => decide (s.acq.oldestQ ≤ e.1 ∧ tT ≤ e.2) with
  | some e => some e.1
  | none => if s.acq.running then none else some s.acq.newQ

/-- The largest N for which a record of `npos` positions fits 2³¹ bytes (13 R280); a record of none fits with any N that can be asked
for. -/
def maxRows (npos : Nat) : Nat := if npos = 0 then 2 ^ 31 else (2 ^ 31 - 128) / (6 * npos)

/-- LENGTH of a record (13 R291). -/
def segLength (n npos : Nat) : Nat := 128 + 6 * n * npos

/-- The output of entry i of row j of a segment (13 R277). -/
def Segment.qAt (seg : Segment) (k j i : Nat) : Int :=
  (k : Int) - skewOf seg.tof0 seg.pitch seg.gauge seg.pOut (seg.trig.pos + i) - seg.cfg.pre + j

/-- What an entry copies as (13 R277, R279): none while its output is still to be produced; `ended` says that none will be; `lost` that
the record writer lost it, `dram` that its row came back with an uncorrectable error. -/
def Acq.entry (a : Acq) (seg : Segment) (k : Nat) (ended : Bool) (j i : Nat) (lost dram : Bool) :
    Option (RecEntry × Option (Nat × Int × Nat)) :=
  let p := seg.trig.pos + i
  let q := seg.qAt k j i
  let b := p / 1024
  let gap (c : Nat) : Option (RecEntry × Option (Nat × Int × Nat)) :=
    some ({ word := 0, qword := qGap, xe := 0 }, some (c, q, b))
  if q < a.firstQ then gap 8
  else match a.row q.toNat b with
    | none => if a.overwritten q.toNat b || decide (q < a.oldestQ) then gap 5 else if ended then gap 7 else none
    | some r =>
      if r.lost then gap 1
      else if dram then gap 4
      else if lost then gap 2
      else some ({ word := nth r.words (p % 1024) 0, qword := nth r.flags (p % 1024) 0, xe := r.xe }, none)

/-- The record writer copies the next row of a segment (13 R278, R279, R286), none while an output of it is still to be produced. An
error met in a stored row counts for every entry read from that row (R273); once its FIFO has overflowed the writer loses the row it
copies next (14 R305). -/
def State.copyRow (s : State) (seg : Segment) (k : Nat) (ended : Bool) (lost dram : List Nat) : Option (Segment × Mem) :=
  let j := seg.rows.length
  let (full, mem) := s.mem.lose 1
  let rowOf (i : Nat) : Int × Nat := (seg.qAt k j i, (seg.trig.pos + i) / 1024)
  let bad := dram.map rowOf
  let es := (List.range seg.trig.npos).map fun i =>
    let r := rowOf i
    s.acq.entry seg k ended j i (full || lost.contains i) (bad.contains r || s.mem.poisoned (s.rowAddr r.1.toNat r.2) 4128)
  if es.any Option.isNone then none
  else
    let es := es.filterMap id
    let gaps := es.filterMap Prod.snd
    some ({ seg with
      rows := seg.rows ++ [es.map Prod.fst]
      gaps := seg.gaps ++ gaps
      trunc := seg.trunc || gaps.any fun g => g.1 == 5 }, mem)

/-- The gap records of a segment (13 R279, R287): one for every maximal run of one cause. -/
def segmentGaps (s : State) (seg : Segment) : State :=
  [1, 2, 4, 5, 7, 8].foldl (fun s c =>
    let g := seg.gaps.filter fun x => x.1 == c
    let qs := (orderBy (fun a b => decide (a ≤ b)) (g.map fun x => x.2.1)).eraseDups
    (runsOf qs).foldl (fun s r =>
      let m := orAll ((g.filter fun x => decide (r.1 ≤ x.2.1 ∧ x.2.1 < r.1 + (r.2 : Int))).map fun x => blockBit x.2.2)
      makeGap s c seg.recId r.1 r.2 m (s.tsFirst r.1)) s) s

/-- The bytes of a segment record with the CRC field as given (13 R291). -/
def Segment.bytesWith (seg : Segment) (src rank serial : Nat) (ended : Bool) (crc : Nat) : List Byte :=
  let es := seg.rows.flatMap id
  leBytes 1 1 ++
    leBytes 1 (src + 4 * b2n seg.extended + 8 * b2n seg.trunc + 16 * b2n seg.capped + 32 * b2n ended) ++
    leBytes 2 seg.modflags ++ leBytes 4 seg.recId ++ leBytes 8 (segLength seg.n seg.trig.npos) ++
    leBytes 12 (tsLayout seg.trig.tT) ++ leBytes 12 (tsLayout seg.tLast) ++ leBytes 8 (seg.kT.getD 0) ++
    leBytes 4 seg.cfg.pre ++ leBytes 4 seg.n ++ leBytes 4 seg.trig.pos ++ leBytes 4 seg.trig.npos ++ leBytes 4 seg.tof0 ++
    leBytes 4 seg.pOut ++ leBytes 2 seg.pitch ++ leBytes 2 seg.gauge ++ leBytes 4 seg.trig.seq ++ leBytes 4 seg.trigs ++
    leBytes 4 seg.heldOff ++ leBytes 2 seg.trig.zone ++ leBytes 2 (orAll (es.map RecEntry.qword)) ++
    leBytes 4 seg.gaps.length ++ leBytes 8 seg.syncIdx ++ leBytes 1 rank ++ leBytes 1 seg.plan ++ zeros 2 ++ leBytes 4 serial ++
    leBytes 4 crc ++ zeros 12 ++
    es.flatMap fun e => leBytes 2 (ofInt 16 e.word) ++ leBytes 2 e.qword ++ leBytes 1 (ofInt 8 e.xe) ++ zeros 1

/-- The bytes of a segment record (13 R291): the CRC is taken with its own field 0. -/
def Segment.bytes (seg : Segment) (src rank serial : Nat) (ended : Bool) : List Byte :=
  seg.bytesWith src rank serial ended (crc32 (seg.bytesWith src rank serial ended 0))

/-- A complete record is due on every RECORD stream with RSEND = 0, in REC_ID order (15 R333). -/
def recordDue (s : State) (recId : Nat) : State :=
  let l := s.net.streams.mapIdx fun n x =>
    let c := nth s.conf.streams n {}
    if c.stype = 5 ∧ c.rsend = 0 then { x with recs := (x.recs ++ [recId]).mergeSort (· ≤ ·) } else x
  { s with net := { s.net with streams := l } }

/-- The segment of a source is complete (13 R278, R279, R282): directory entry, gap records, hold-off from the segment end on. -/
def finishSegment (s : State) (n : Nat) (seg : Segment) (ended : Bool) : State :=
  let hold : Option Hold := match seg.cfg.holdMode with
    | 1 => some (.time seg.cfg.hold (seg.endTick.getD s.tim.tick))
    | 2 => some (.events seg.cfg.hold)
    | _ => none
  let seg := { seg with modflags := seg.modflags ||| s.modflags }
  let a := s.acq.setSrc n { seg := none, hold := hold, heldOff := 0 }
  let s := { s with acq := { a with
    dir := a.dir.map fun (e : DirEntry) => if e.recId = seg.recId ∧ e.type = 1 then
      { e with complete := true, length := segLength seg.n seg.trig.npos, body := .segment seg ended } else e
    int := a.int.raise 0 } }
  recordDue (segmentGaps s seg) seg.recId

/-- The rest of a segment copied at once when acquisition has ended (13 R279, R522). -/
def copyRest (s : State) (k : Nat) : Nat → Segment → State × Segment
  | 0, seg => (s, seg)
  | fuel + 1, seg =>
    if seg.n ≤ seg.rows.length then (s, seg)
    else match s.copyRow seg k true [] [] with
      | some (seg, mem) => copyRest { s with mem := mem } k fuel seg
      | none => (s, seg)

/-- The segment of a source completes at once outside acquisition, with ENDED (13 R279, R522). -/
def endSegment (s : State) (n : Nat) : State :=
  match (s.acq.src n).seg with
  | none => s
  | some seg =>
    let k := seg.kT.getD s.acq.newQ
    let (s, seg) := copyRest s k (seg.n - seg.rows.length) { seg with kT := some k }
    finishSegment s n seg true

/-- The segment of a source ended before acquisition did (13 R278): every entry is copied, and no merge may still extend it. -/
def Segment.done (seg : Segment) : Bool := seg.endTick.isSome && seg.merges == []

/-- The segment of source n that has ended is complete once its end's cycle is over (13 R278). -/
def closeSegment (s : State) (n t : Nat) : State :=
  match (s.acq.src n).seg with
  | none => s
  | some seg => if seg.done && (seg.endTick.any fun e => decide (e / 16 < t / 16)) then finishSegment s n seg false else s

/-- Segments that have ended are complete once the cycle of their end is over (13 R278). -/
def closeSegments (s : State) (t : Nat) : State := closeSegment (closeSegment (closeSegment s 0 t) 1 t) 2 t

/-- A merged trigger's output becomes known: the segment is extended, unless an extension has already failed to reserve its space (13
R281, R284). A segment that gains rows has not ended (R278). -/
def extendSegment (s : State) (n : Nat) (seg : Segment) (k k' : Nat) : State × Segment :=
  if seg.frozen then (s, seg) else
  let want := k' + seg.cfg.pre + seg.cfg.post - k
  let lim := min 1048576 (maxRows seg.trig.npos)
  let new := max seg.n (min want lim)
  let cut : Bool := decide (lim < want ∧ seg.n < want)
  let grow := segLength new seg.trig.npos - segLength seg.n seg.trig.npos
  let room : Bool := decide (s.acq.used + grow ≤ storeBytes s.conf)
  let capped : Bool := cut || !room
  let n' := if room then new else seg.n
  let a := s.acq
  let a := { a with
    dir := a.dir.map fun (e : DirEntry) => if e.recId = seg.recId ∧ e.type = 1 then { e with length := segLength n' seg.trig.npos } else e
    int := a.int.raiseIf capped 6 }
  let seg := { seg with
    n := n', extended := seg.extended || decide (seg.n < n'), capped := seg.capped || capped, frozen := !room
    endTick := if seg.n < n' then none else seg.endTick }
  ({ s with acq := a.setSrc n { a.src n with seg := some seg } }, seg)

/-- n_s in force at output q (13 R291). -/
def State.syncOf (s : State) (q : Nat) : Nat := ((s.gridOfQ q).map Grid.ns).getD 0

/-- Outputs of triggers resolved as their timestamps become known (13 R276, R281). -/
def resolveSegment (s : State) (n : Nat) : State :=
  match (s.acq.src n).seg with
  | none => s
  | some seg =>
    let kT := match seg.kT with
      | some k => some k
      | none => s.kTof seg.trig.tT
    match kT with
    | none => s
    | some k =>
      let known := seg.merges.filter fun t => (s.kTof t).isSome
      let seg := { seg with
        kT := some k, merges := seg.merges.filter fun t => (s.kTof t).isNone
        syncIdx := if seg.kT.isNone then s.syncOf k else seg.syncIdx }
      let s := { s with acq := s.acq.setSrc n { s.acq.src n with seg := some seg } }
      (known.foldl (fun (p : State × Segment) t => extendSegment p.1 n p.2 k ((p.1.kTof t).getD k)) (s, seg)).1

/-- Dropped triggers whose outputs become known yield their gap records (13 R285). -/
def resolveDrops (s : State) : State :=
  let known := s.acq.drops.filter fun d => (s.kTof d.1).isSome
  let s' := { s with acq := { s.acq with drops := s.acq.drops.filter fun d => (s.kTof d.1).isNone } }
  known.foldl (fun s' d =>
    let first : Int := ((s.kTof d.1).getD 0 : Nat) - (d.2.1 : Int)
    makeGap s' 6 0xFFFFFFFF first (d.2.1 + d.2.2.1) d.2.2.2 (s'.tsFirst first)) s'

/-- All triggers resolved, and the segments completed whose end is past. -/
def resolveTriggers (s : State) : State :=
  closeSegments (resolveDrops (resolveSegment (resolveSegment (resolveSegment s 0) 1) 2)) s.tim.tick

/-- The block map of a position range. -/
def rangeBlocks (pos npos : Nat) : Nat :=
  (List.range 128).foldl (fun m b => if pos < 1024 * (b + 1) ∧ 1024 * b < pos + npos then m ||| blockBit b else m) 0

/-- A run of lost frames ends and becomes a gap record (13 R287, R289). -/
def flushRawRun (s : State) : State :=
  match s.acq.raw.lostRun with
  | none => s
  | some (t, n) =>
    makeGap { s with acq := { s.acq with raw := { s.acq.raw with lostRun := none } } } 3 s.acq.raw.recId t n (2 ^ 128 - 1) (s.tsAt t)

/-- The capture is complete: resident (13 R288). -/
def rawDone (s : State) : State :=
  let s := flushRawRun s
  let a := s.acq
  let l := s.net.streams.mapIdx fun n x => if (nth s.conf.streams n {}).stype = 7 then { x with nextUnit := 0 } else x
  recordDue { s with net := { s.net with streams := l }, acq := { a with
      raw := { a.raw with st := 3, modflags := a.raw.modflags ||| s.modflags }
      dir := a.dir.map fun (e : DirEntry) => if e.recId = a.raw.recId ∧ e.type = 3 then
        { e with complete := true, tTrig := a.raw.tTrig.getD 0 } else e
      int := a.int.raise 5 } } a.raw.recId

/-- Frames the raw region holds (13 R288). -/
def rawCapacity (c : Conf) : Nat := c.acq.rawcapGib * 2 ^ 30 / 16400

/-- The frames of a capture on a trigger that are kept (13 R288): until the trigger, those the region holds, which fills circularly; from
then on F frames from PRE_F before the one that contains t_T, as far back as the region holds them. -/
def keepFrames (s : State) (r : RawCap) : List (Nat × Option (List Byte)) :=
  match r.tTrig with
  | none => r.frames.drop (r.frames.length - rawCapacity s.conf)
  | some t =>
    let before := (r.frames.filter fun f => decide (s.tsAt (f.1 + 4096) ≤ t)).length
    (r.frames.drop (before - r.preF)).take r.f

/-- The frames of a capture brought up to date; with F of them it is complete (13 R288). -/
def rawUpdate (s : State) (r : RawCap) : State :=
  let r := if r.byTrigger then { r with frames := keepFrames s r } else r
  let s := { s with acq := { s.acq with raw := r } }
  if r.st = 2 ∧ r.f ≤ r.frames.length then rawDone s else s

/-- A capture waiting for a trigger of source n takes its instant (13 R288). -/
def rawTrigger (s : State) (n : Nat) (t : Trigger) : State :=
  let r := s.acq.raw
  if r.st = 1 ∧ r.byTrigger ∧ r.src = n then rawUpdate s { r with st := 2, tTrig := some t.tT, seq := t.seq } else s

/-- The outcomes of a RECORD command (18 R400). -/
inductive TrigOutcome where
  | opened (recId : Nat)
  | merged (recId : Nat)
  | heldOff
  | disabled
  | dropped
  deriving DecidableEq, Repr

/-- A segment opens (13 R277, R280, R284, R285), or the trigger is dropped. -/
def openSegment (s : State) (n : Nat) (t : Trigger) : State × TrigOutcome :=
  let c := s.conf.acq.src n
  let want := c.pre + c.post
  let rows := min want (maxRows t.npos)
  let len := segLength rows t.npos
  let cap := storeBytes s.conf
  let room := if s.acq.fits cap len then some s.acq
    else if s.conf.acq.fullMode = 0 then
      (if (s.acq.dir.filter fun e => !e.evictable || e.type == 3).length < 65536 then s.acq.makeRoom cap len s.acq.dir.length else none)
    else none
  match room with
  | none =>
    let a := s.acq
    let s := { s with acq := { a with
      storeFull := true, recDropped := satAdd 16 a.recDropped 1, int := a.int.raise 2
      drops := a.drops ++ [(t.tT, c.pre, c.post, rangeBlocks t.pos t.npos)] } }
    (resolveDrops s, .dropped)
  | some a =>
    let id := a.nextId
    let capped : Bool := decide (rows < want)
    let seg : Segment := {
      recId := id, source := n, cfg := c, trig := t, kT := none, merges := [], n := rows, tof0 := s.conf.acq.tof0,
      pitch := s.conf.probe.pitch, gauge := s.conf.phase.gauge, pOut := pOut s.conf.probe s.conf.dec, trigs := 1, tLast := t.tT,
      heldOff := (a.src n).heldOff, extended := false, trunc := false, capped := capped, frozen := false, endTick := none,
      syncIdx := 0, modflags := s.modflags, plan := s.conf.probe.plan, rows := [], gaps := [] }
    let a : Acq := { a with
      nextId := wrapAdd 32 id 1, storeFull := false, int := a.int.raiseIf capped 6
      dir := a.dir ++ [{ recId := id, type := 1, complete := false, locked := false, sending := [], length := len,
                         tTrig := t.tT, body := .segment seg false }] }
    let s := { s with acq := a.setSrc n { (a.src n) with seg := some seg, heldOff := 0 } }
    (resolveSegment s n, .opened id)

/-- A trigger merges into its source's open segment (13 R281); its output matters only with EXTEND. -/
def mergeTrigger (s : State) (n : Nat) (seg : Segment) (t : Trigger) : State :=
  let seg := { seg with
    trigs := seg.trigs + 1, tLast := t.tT, merges := if seg.cfg.extend = 1 then seg.merges ++ [t.tT] else seg.merges }
  let a := { s.acq with merged := satAdd 32 s.acq.merged 1 }
  resolveSegment { s with acq := a.setSrc n { a.src n with seg := some seg } } n

/-- A trigger is held off (13 R282). -/
def holdOff (s : State) (n : Nat) (h : Option Hold) : State :=
  let x := s.acq.src n
  let a := { s.acq with heldoff := satAdd 32 s.acq.heldoff 1, int := s.acq.int.raise 1 }
  { s with acq := a.setSrc n { x with hold := h, heldOff := x.heldOff + 1 } }

/-- What the hold-off of a source makes of a trigger that arrives at tick t: held off, with what is left of the hold-off, or not (13
R282). An arrival in the very cycle in which the time elapses is held off (01 R26, R27). -/
def Hold.judge (h : Option Hold) (t : Nat) : Option (Option Hold) :=
  match h with
  | some (.time ms from') => if t / 16 ≤ (from' + ms * msTicks) / 16 then some h else none
  | some (.events left) => if left = 0 then none else some (if left ≤ 1 then none else some (.events (left - 1)))
  | none => none

/-- A trigger of an enabled source reaches the engine (13 R277, R278, R281, R282): it merges into the open segment, unless the cycle of
that segment's end is over; it is held off, or it opens a segment. -/
def takeTrigger (s : State) (n : Nat) (t : Trigger) : State × TrigOutcome :=
  let s := closeSegment s n t.arrival
  let x := s.acq.src n
  match x.seg with
  | some seg => (rawTrigger (mergeTrigger s n seg t) n t, .merged seg.recId)
  | none =>
    match Hold.judge x.hold t.arrival with
    | some h => (holdOff s n h, .heldOff)
    | none =>
      let (s, o) := openSegment { s with acq := s.acq.setSrc n { x with hold := none } } n t
      (rawTrigger s n t, o)

/-- A trigger of source n (13 R274, R522): counted; ignored when its source is disabled, and outside acquisition for ZONE and PAD. -/
def trigger (s : State) (n : Nat) (t : Trigger) : State × TrigOutcome :=
  let s := { s with acq := { s.acq with triggers := satAdd 32 s.acq.triggers 1 } }
  if (s.conf.acq.src n).en ≠ 1 ∨ (n ≠ 2 ∧ s.acq.running = false) then (s, .disabled) else takeTrigger s n t

/-- The arrival stamp: the first tick of the present timing-clock cycle (13 R274). -/
def State.arrival (s : State) : Nat := s.tim.tick / 16 * 16

/-- The trigger of a departing zone band (13 R274, R277): onset, SEQ, zone band, argmax position. -/
def zoneTrigger (s : State) (onset seq : Nat) (b : ZBand) (pos : Nat) : State :=
  let p := if b.zone.reduce then b.zone.start + b.zone.len / 2 else pos
  let m := s.conf.acq.zmargin
  let lo := b.zone.start - m
  let hi := min (s.conf.probe.p) (b.zone.start + b.zone.len + m)
  (trigger s 0 { tT := ((onset : Int) + sensingOffset s.conf p).toNat, arrival := s.arrival, pos := lo, npos := hi - lo, seq := seq,
                 zone := b.key / 4 }).1

/-- A qualified TRIG_IN edge, measured on TDC_CH_2 (13 R274; 16 R353). -/
def trigIn (s : State) (m : TdcIn) : State :=
  let (s, e) := s.tdcEdge 2 m
  match e.instant with
  | none => s
  | some x =>
    let c := s.conf.acq.pad
    (trigger s 1 { tT := tsOf48 x, arrival := s.arrival, pos := c.recStart, npos := c.recLen, seq := 0xFFFFFFFF, zone := 0xFFFF }).1

/-- The interval decision with its triggers (12 R266; 13 R274). The argmax position is the one of the latest event of the band. -/
def zoneInterval (s : State) (errs : List Nat) : State :=
  let best (i : ZInt) (b : ZBand) : Nat := match bandLevel i b with
    | some (_, p, _, _) => p
    | none => 0
  let s := zoneErrors s errs
  match s.zoneDue with
  | none => s
  | some (i, c) =>
    let (s, ts) := zoneDecide s i c
    ts.foldl (fun s t => zoneTrigger s t.1 t.2.1 t.2.2 (best i t.2.2)) s

/-! ### Copying and hold-off (13 R278, R282) -/

/-- The record writer copies the next row of the open segment of source n whose outputs are in the ring (13 R278, R286). The segment ends
with its last row; where it has ended, the cycle of its end passes and the record is complete. -/
def rowCopy (s : State) (n : Nat) (lost dram : List Nat) : State :=
  let s := resolveTriggers s
  match (s.acq.src n).seg with
  | none => s
  | some seg =>
    match seg.kT with
    | none => s
    | some k =>
      if seg.n ≤ seg.rows.length then
        (if seg.done then
          let s := s.expire (seg.endTick.getD 0)
          closeSegment s n s.tim.tick
        else s)
      else match s.copyRow seg k false lost dram with
        | none => s
        | some (seg, mem) =>
          let seg := { seg with
            modflags := seg.modflags ||| s.modflags, endTick := if seg.n ≤ seg.rows.length then some s.tim.tick else none }
          { s with mem := mem, acq := s.acq.setSrc n { s.acq.src n with seg := some seg } }

/-- The time hold-off of a source ends, after every trigger of the cycle in which its time elapses (13 R282; 01 R26, R27). -/
def holdEnd (s : State) (n : Nat) : State :=
  let x := s.acq.src n
  match x.hold with
  | some (.time ms from') =>
    let s := s.expire (from' + ms * msTicks)
    { s with acq := s.acq.setSrc n { x with hold := none } }
  | _ => s

/-! ### Raw capture (13 R288, R289; 04 R104) -/

/-- The converter frame that starts at tick t0 with its 4,096 sample words (04 R104). -/
def converterFrame (s : State) (t0 : Nat) (samples : List Byte) : List Byte :=
  let l := s.rxf.segs
  let inFrame := l.find? fun g => g.erase && decide (t0 ≤ g.tick ∧ g.tick < t0 + 4096)
  let head := ((l.find? fun g => g.erase && decide (g.tick < t0)).map fun g => g.tick + 16 - t0).getD 0
  let ofs := (inFrame.map fun g => g.tick - t0).getD 0
  let range := rangeAt l t0
  let out (n : Nat) : Nat := ((s.lane n).out.getD 15)
  let lost := (List.range 4).foldl (fun m n => if (s.lane n).lost then m + 2 ^ n else m) 0
  let body := samples.mapIdx fun i b => if bit lost (i % 4) then 0 else b
  leBytes 8 t0 ++ leBytes 1 (range + 4 * b2n inFrame.isSome + 8 * b2n s.prb.launching) ++ leBytes 1 head ++ leBytes 2 ofs ++
    leBytes 2 (out 0 + 16 * out 1 + 256 * out 2 + 4096 * out 3) ++ leBytes 1 lost ++ zeros 1 ++ body

/-- The raw writer stores a converter frame, or loses it, as it does once its FIFO has overflowed (13 R288, R289; 14 R305). -/
def rawFrame (s : State) (samples : List Byte) (lost : Bool) : State :=
  let r := s.acq.raw
  if !s.adc.running || !(r.st == 1 || r.st == 2) then s else
  let t0 := r.next
  let (full, mem) := s.mem.lose 2
  let s := { s.advance (t0 + 4096) with mem := mem }
  let lost := lost || full
  let s := if lost then
      { s with acq := { s.acq with
        rawLost := satAdd 32 s.acq.rawLost 1
        raw := { r with lostRun := some (match r.lostRun with | none => (t0, 1) | some (t, n) => (t, n + 1)) } } }
    else flushRawRun s
  let r := s.acq.raw
  rawUpdate s { r with
    next := t0 + 4096, st := if r.byTrigger then r.st else 2
    frames := r.frames ++ [(t0, if lost then none else some (converterFrame s t0 samples))] }

/-- RAW_ARM (13 R288; 18 R400). -/
def rawArmCmd (s : State) (mode source tick f preF : Nat) : State × Response :=
  if 1 < mode ∨ 2 < source ∨ f = 0 ∨ rawCapacity s.conf < f ∨ (mode = 1 ∧ f ≤ preF) then (s, plain .invalid)
  else if s.acq.raw.st ≠ 0 then (s, plain .busy)
  else match (if s.acq.dir.length < 65536 then some s.acq
      else if s.conf.acq.fullMode = 0 then s.acq.makeRoom (storeBytes s.conf) 0 s.acq.dir.length else none) with
    | none => (s, plain .busy)
    | some a =>
      let id := a.nextId
      ({ s with acq := { a with
          nextId := wrapAdd 32 id 1
          raw := { st := 1, byTrigger := mode == 1, src := source, tick := tick, f := f, preF := if mode = 1 then preF else 0,
                   recId := id, modflags := s.modflags, next := alignUp (if mode = 0 then max tick s.tim.tick else s.tim.tick) 4096 }
          dir := a.dir ++ [{ recId := id, type := 3, complete := false, locked := false, sending := [], length := 16400 * f,
                             tTrig := 0, body := .raw }] } }, plain .ok)

/-- The bytes of a raw record with the CRC field as given (13 R291): its header, then its frames; the bytes of a lost frame are
undefined (13 R289; log 6). -/
def RawCap.bytesWith (r : RawCap) (rank plan serial free crc : Nat) : List Byte :=
  leBytes 1 3 ++ leBytes 1 (if r.byTrigger then r.src + 4 * b2n r.tTrig.isSome else 0) ++ leBytes 2 r.modflags ++
    leBytes 4 r.recId ++ leBytes 8 (16400 * r.f) ++ leBytes 12 (tsLayout (r.tTrig.getD 0)) ++ zeros 12 ++
    leBytes 8 ((r.frames.head?.map Prod.fst).getD 0) ++ leBytes 4 r.preF ++ leBytes 4 r.f ++ zeros 20 ++
    leBytes 4 r.seq ++ leBytes 4 1 ++ zeros 4 ++ leBytes 2 0xFFFF ++ zeros 2 ++
    leBytes 4 (r.frames.filter fun x => x.2.isNone).length ++ zeros 8 ++ leBytes 1 rank ++ leBytes 1 plan ++ zeros 2 ++
    leBytes 4 serial ++ leBytes 4 crc ++ zeros 12 ++
    (r.frames.mapIdx fun i x => match x.2 with
      | some l => l
      | none => (List.range 16400).map fun j => Config.freeByte (free + 16400 * i + j)).flatMap id

/-- The bytes of a raw record (13 R291). -/
def RawCap.bytes (r : RawCap) (rank plan serial free : Nat) : List Byte :=
  r.bytesWith rank plan serial free (crc32 (r.bytesWith rank plan serial free 0))

/-- RAW_RELEASE (13 R288): the capture and its directory entry go. -/
def rawReleaseCmd (s : State) : State × Response :=
  let s := flushRawRun s
  let a := s.acq
  ({ s with acq := { a with raw := {}, dir := a.dir.filter fun e => !(e.type == 3 && e.recId == a.raw.recId) } }, plain .ok)

/-! ### Commands on records (18 R400) -/

/-- The entry a REC command names: a segment or raw record; a gap record carries only the REC_ID of the record it affects. -/
def Acq.find (a : Acq) (id : Nat) : Option DirEntry := a.dir.find? fun e => e.recId == id && e.type != 2

/-- OUTCOME and REC_ID (18 R400). -/
def TrigOutcome.bytes : TrigOutcome → List Byte
  | .opened id => leBytes 1 0 ++ leBytes 4 id
  | .merged id => leBytes 1 1 ++ leBytes 4 id
  | .heldOff => leBytes 1 2 ++ leBytes 4 0xFFFFFFFF
  | .disabled => leBytes 1 3 ++ leBytes 4 0xFFFFFFFF
  | .dropped => leBytes 1 4 ++ leBytes 4 0xFFFFFFFF

/-- RECORD (13 R274, R522; 18 R400). Outside acquisition the segment completes at once. -/
def recordCmd (s : State) (instant : Option Nat) (range : Option (Nat × Nat)) : State × Response :=
  let c := s.conf.acq.cmd
  let (pos, npos) := range.getD (c.recStart, c.recLen)
  let tT := match instant with
    | none => some (s.tsAt s.arrival)
    | some w => tsOfLayout w
  match tT with
  | none => (s, plain .invalid)
  | some tT =>
    if s.conf.probe.p < pos + npos ∨ npos = 0 then (s, plain .invalid)
    else if s.acq.running = false ∧ (s.acq.ended = false ∨ s.acq.newQ = 0) then (s, plain .busy)
    else
      let (s, o) := trigger s 2 { tT := tT, arrival := s.arrival, pos := pos, npos := npos, seq := 0xFFFFFFFF, zone := 0xFFFF }
      let s := if s.acq.running then s else endSegment s 2
      (s, withData .ok o.bytes)

/-- REC_LIST (18 R400): entries from REC_ID FIRST on, in directory order. -/
def recListCmd (s : State) (first max : Nat) : State × Response :=
  if max = 0 ∨ 36 < max then (s, plain .invalid)
  else
    let l := (s.acq.dir.filter fun e => decide (first ≤ e.recId)).take max
    (s, withData .ok (l.flatMap fun e => leBytes 4 e.recId ++ leBytes 1 e.type ++
      leBytes 1 (b2n e.complete + 2 * b2n e.locked + 4 * b2n (e.sending != [])) ++ zeros 2 ++ leBytes 8 e.length ++
      leBytes 12 (tsLayout e.tTrig)))

/-- REC_LOCK and REC_UNLOCK (18 R400). -/
def recLockCmd (s : State) (id : Nat) (on : Bool) : State × Response :=
  match s.acq.find id with
  | none => (s, plain .invalid)
  | some e => ({ s with acq := { s.acq with dir := s.acq.dir.map fun x => if x = e then { x with locked := on } else x } }, plain .ok)

/-- REC_DELETE (18 R400). -/
def recDeleteCmd (s : State) (id : Nat) : State × Response :=
  match s.acq.find id with
  | none => (s, plain .invalid)
  | some e =>
    if !e.complete || e.sending != [] then (s, plain .busy)
    else if e.locked then (s, plain .denied)
    else
      let a := s.acq
      ({ s with acq := { a with
          dir := a.dir.erase e, raw := if e.type = 3 ∧ a.raw.recId = id then {} else a.raw } }, plain .ok)

/-! ### Acquisition start and end -/

/-- Acquisition start (13 R272, R522): the ring is empty. -/
def acqStartRing (s : State) : State :=
  { s with acq := { s.acq with
      running := true, ring := [], depth := ringDepth s.conf, firstQ := 0, newQ := 0, outTs := [], ended := false, histLost := [],
      drops := [] } }

/-- Acquisition ends for the segment of a source (13 R278, R279): one that has ended is complete, another completes at once with ENDED. -/
def cutSegment (s : State) (n : Nat) : State :=
  match (s.acq.src n).seg with
  | none => s
  | some seg => if seg.done then finishSegment s n seg false else endSegment s n

/-- Acquisition ends (13 R279): open segments complete at once with ENDED; the ring stays (R522). -/
def acqEndRing (s : State) : State :=
  let s := resolveTriggers { s with acq := { s.acq with running := false, ended := true } }
  let s := flushLost s (2 ^ 64)
  cutSegment (cutSegment (cutSegment s 0) 1) 2

/-- DRAM contents are lost, or the store is cleared (13 R284, R522). -/
def acqClear (s : State) : State :=
  { s with acq := { s.acq with
      dir := [], ring := [], firstQ := 0, newQ := 0, outTs := [], ended := false, histLost := [], drops := [], raw := {}
      zone := {}, pad := {}, cmd := {}, storeFull := false } }

/-! ### Meanings -/

/-- A detection interval is decided (12 R266). -/
def execZoneIntervalDecision (errZones : List Nat) (s : State) : Host.Outcome State Fault Refusal := s.done (zoneInterval s errZones)

/-- A TRIG_IN edge (13 R274). -/
def execTrigInEdge (m : TdcIn) (s : State) : Host.Outcome State Fault Refusal := s.done (trigIn s m)

/-- The record writer copies a row (13 R278). -/
def execRecordRowCopy (src : Nat) (lost dramErr : List Nat) (s : State) : Host.Outcome State Fault Refusal :=
  s.done (rowCopy s src lost dramErr)

/-- The time hold-off of a source ends (13 R282). -/
def execHoldOffEnd (src : Nat) (s : State) : Host.Outcome State Fault Refusal := s.done (holdEnd s src)

/-- The raw writer stores a frame (13 R289). -/
def execRawFrameWrite (frame : List Byte) (lost : Bool) (s : State) : Host.Outcome State Fault Refusal :=
  s.done (rawFrame s frame lost)

/-- RECORD. -/
def execRecord (h : Hdr) (instant : Option Nat) (range : Option (Nat × Nat)) (s : State) : Host.Outcome State Fault Refusal :=
  s.done (s.command1 h 0x0020 1 fun s _ => recordCmd s instant range)

/-- REC_LIST. -/
def execRecList (h : Hdr) (first max : Nat) (s : State) : Host.Outcome State Fault Refusal :=
  s.done (s.command1 h 0x0021 0 fun s _ => recListCmd s first max)

/-- REC_LOCK. -/
def execRecLock (h : Hdr) (recId : Nat) (s : State) : Host.Outcome State Fault Refusal :=
  s.done (s.command1 h 0x0022 1 fun s _ => recLockCmd s recId true)

/-- REC_UNLOCK. -/
def execRecUnlock (h : Hdr) (recId : Nat) (s : State) : Host.Outcome State Fault Refusal :=
  s.done (s.command1 h 0x0023 1 fun s _ => recLockCmd s recId false)

/-- REC_DELETE. -/
def execRecDelete (h : Hdr) (recId : Nat) (s : State) : Host.Outcome State Fault Refusal :=
  s.done (s.command1 h 0x0024 1 fun s _ => recDeleteCmd s recId)

/-- RAW_ARM. -/
def execRawArm (h : Hdr) (mode source tick f preF : Nat) (s : State) : Host.Outcome State Fault Refusal :=
  s.done (s.command1 h 0x0026 1 fun s _ => rawArmCmd s mode source tick f preF)

/-- RAW_RELEASE. -/
def execRawRelease (h : Hdr) (s : State) : Host.Outcome State Fault Refusal :=
  s.done (s.command1 h 0x0027 1 fun s _ => rawReleaseCmd s)

end Sys2Proof.Machine
end

