-- ==== Sys2Proof/Machine/Crypto.lean ====
section
/-! DEFINITION. The algorithms the spec names and does not restate (15 R330; 18 R384 to R402): SHA-256, HMAC-SHA-256,
HKDF-SHA-256, AES-256-GCM and ECDSA P-256 verification, from their published standards (PRESUMED, log 5). -/

namespace Sys2Proof.Machine

/-! ### SHA-256 -/

/-- ⌊∛n⌋ from the bit `2^k` down. -/
def icbrtFrom (n : Nat) : Nat → Nat → Nat
  | 0, r => r
  | k + 1, r => icbrtFrom n k (if (r + 2 ^ k) ^ 3 ≤ n then r + 2 ^ k else r)

/-- The first 64 primes. -/
def shaPrimes : List Nat := (List.range 312).filter fun n => n ≥ 2 ∧ ((List.range n).drop 2).all fun d => n % d ≠ 0

/-- The 64 round constants: 32 bits of the fractional part of the cube root of a prime. -/
def shaK : List Nat := shaPrimes.map fun p => icbrtFrom (p * 2 ^ 96) 36 0 % 2 ^ 32

/-- The initial hash value: 32 bits of the fractional part of the square root of a prime. -/
def shaInit : List Nat := (shaPrimes.take 8).map fun p => isqrt (p * 2 ^ 64) % 2 ^ 32

/-- A 32-bit word turned right. -/
def ror32 (x n : Nat) : Nat := (x / 2 ^ n ||| x * 2 ^ (32 - n)) % 2 ^ 32

/-- The message schedule, newest word first. -/
def shaSched : Nat → List Nat → List Nat
  | 0, l => l
  | n + 1, l =>
    let a := nth l 14 0
    let b := nth l 1 0
    let s0 := ror32 a 7 ^^^ ror32 a 18 ^^^ a / 8
    let s1 := ror32 b 17 ^^^ ror32 b 19 ^^^ b / 1024
    shaSched n ((nth l 15 0 + s0 + nth l 6 0 + s1) % 2 ^ 32 :: l)

/-- One round on the eight working words. -/
def shaRound (v : List Nat) (kw : Nat × Nat) : List Nat :=
  match v with
  | [a, b, c, d, e, f, g, h] =>
    let t1 := h + (ror32 e 6 ^^^ ror32 e 11 ^^^ ror32 e 25) + ((e &&& f) ^^^ ((2 ^ 32 - 1 - e) &&& g)) + kw.1 + kw.2
    let t2 := (ror32 a 2 ^^^ ror32 a 13 ^^^ ror32 a 22) + ((a &&& b) ^^^ (a &&& c) ^^^ (b &&& c))
    [(t1 + t2) % 2 ^ 32, a, b, c, (d + t1) % 2 ^ 32, e, f, g]
  | _ => v

/-- The compression of one block of 16 words. -/
def shaBlock (k h w : List Nat) : List Nat :=
  let ws := (shaSched 48 w.reverse).reverse
  List.zipWith (fun a b => (a + b) % 2 ^ 32) h ((k.zip ws).foldl shaRound h)

/-- The whole blocks of a padded message, as big-endian words. -/
def shaWords : Nat → List Byte → List (List Nat)
  | 0, _ => []
  | n + 1, l => ((List.range 16).map fun i => beNat (slice l (4 * i) 4)) :: shaWords n (l.drop 64)

/-- SHA-256 (FIPS 180-4). -/
def sha256 (m : List Byte) : List Byte :=
  let z := (119 - m.length % 64) % 64
  let p := m ++ [0x80#8] ++ zeros z ++ beBytes 8 (8 * m.length)
  let k := shaK
  ((shaWords (p.length / 64) p).foldl (shaBlock k) shaInit).flatMap (beBytes 4)

/-- Bytes combined by exclusive or. -/
def xorBytes (a b : List Byte) : List Byte := List.zipWith (fun x y => x ^^^ y) a b

/-- HMAC-SHA-256 (FIPS 198-1). -/
def hmac (key m : List Byte) : List Byte :=
  let k := if key.length > 64 then sha256 key else key
  let k := k ++ zeros (64 - k.length)
  sha256 (xorBytes k (List.replicate 64 0x5C#8) ++ sha256 (xorBytes k (List.replicate 64 0x36#8) ++ m))

/-- HKDF-Extract (RFC 5869). -/
def hkdfExtract (salt ikm : List Byte) : List Byte := hmac salt ikm

/-- HKDF-Expand to 32 bytes (RFC 5869). -/
def hkdfExpand32 (prk info : List Byte) : List Byte := hmac prk (info ++ [1#8])

/-! ### AES-256-GCM -/

/-- Doubling in GF(2^8) with the AES polynomial. -/
def gfDouble (a : Nat) : Nat := if a < 128 then 2 * a else (2 * a) ^^^ 0x11B

/-- Multiplication in GF(2^8) over the `n` low bits of `b`. -/
def gfMul : Nat → Nat → Nat → Nat
  | 0, _, _ => 0
  | n + 1, a, b => (if b % 2 = 1 then a else 0) ^^^ gfMul n (gfDouble a) (b / 2)

/-- a^254, the inverse of a in GF(2^8). -/
def gfInv (a : Nat) : Nat :=
  let m := gfMul 8
  let a2 := m a a
  let a4 := m a2 a2
  let a8 := m a4 a4
  let a16 := m a8 a8
  let a32 := m a16 a16
  let a64 := m a32 a32
  let a128 := m a64 a64
  m a2 (m a4 (m a8 (m a16 (m a32 (m a64 a128)))))

/-- The S-box (FIPS 197). -/
def aesSub (a : Nat) : Nat :=
  let b := gfInv a
  let r (n : Nat) : Nat := (b * 2 ^ n ||| b / 2 ^ (8 - n)) % 256
  b ^^^ r 1 ^^^ r 2 ^^^ r 3 ^^^ r 4 ^^^ 0x63

/-- The S-box as a table. -/
def aesBox : List Nat := (List.range 256).map aesSub

/-- The expanded key of AES-256, four bytes a word, newest first. -/
def aesExpand (box : List Nat) : Nat → Nat → Nat → List (List Nat) → List (List Nat)
  | 0, _, _, l => l
  | n + 1, i, rc, l =>
    let t := nth l 0 []
    let sub (w : List Nat) := w.map fun b => nth box b 0
    let t := if i % 8 = 0 then
        match sub (t.drop 1 ++ t.take 1) with
        | b :: w => (b ^^^ rc) :: w
        | [] => []
      else if i % 8 = 4 then sub t else t
    aesExpand box n (i + 1) (if i % 8 = 0 then gfDouble rc else rc) (List.zipWith (fun x y => x ^^^ y) (nth l 7 []) t :: l)

/-- The 60 words of the key schedule as 15 round keys of 16 bytes. -/
def aesKeys (box : List Nat) (key : List Byte) : List (List Nat) :=
  let w := ((List.range 8).map fun i => (slice key (4 * i) 4).map BitVec.toNat).reverse
  let l := (aesExpand box 52 8 1 w).reverse
  (List.range 15).map fun i => (slice l (4 * i) 4).flatMap id

/-- ShiftRows on a state held column by column. -/
def aesShift (s : List Nat) : List Nat :=
  (List.range 16).map fun i => nth s ((i + 4 * (i % 4)) % 16) 0

/-- MixColumns. -/
def aesMix (s : List Nat) : List Nat :=
  (List.range 16).map fun i =>
    let c := i / 4 * 4
    let b (j : Nat) := nth s (c + (i + j) % 4) 0
    gfDouble (b 0) ^^^ gfDouble (b 1) ^^^ b 1 ^^^ b 2 ^^^ b 3

/-- Encryption of one block under a key schedule. -/
def aesBlock (box : List Nat) (keys : List (List Nat)) (x : List Nat) : List Nat :=
  let add (a b : List Nat) := List.zipWith (fun x y => x ^^^ y) a b
  let s := add x (nth keys 0 [])
  let s := (slice keys 1 13).foldl (fun s k => add (aesMix (aesShift (s.map fun b => nth box b 0))) k) s
  add (aesShift (s.map fun b => nth box b 0)) (nth keys 14 [])

/-- Multiplication in GF(2^128) of GCM, block bits numbered from the most significant: `n` steps with z and v. -/
def ghashMul : Nat → Nat → Nat → Nat → Nat
  | 0, _, _, z => z
  | n + 1, x, v, z =>
    let z := if x / 2 ^ n % 2 = 1 then z ^^^ v else z
    ghashMul n x (if v % 2 = 1 then v / 2 ^^^ 0xE1000000000000000000000000000000 else v / 2) z

/-- The 16-byte blocks of a string, the last one padded with zeros. -/
def blocks16 : Nat → List Byte → List (List Byte)
  | 0, _ => []
  | n + 1, l => (l.take 16 ++ zeros (16 - (l.take 16).length)) :: blocks16 n (l.drop 16)

/-- A string cut into padded 16-byte blocks. -/
def toBlocks (l : List Byte) : List (List Byte) := blocks16 (ceilDiv l.length 16) l

/-- AES-256-GCM with a 12-byte nonce (SP 800-38D): the ciphertext and the 16-byte tag. -/
def aesGcm (key nonce aad plain : List Byte) : List Byte × List Byte :=
  let box := aesBox
  let keys := aesKeys box key
  let enc (n : Nat) : List Byte :=
    (aesBlock box keys ((beBytes 16 n).map BitVec.toNat)).map (BitVec.ofNat 8)
  let h := beNat (enc 0)
  let j0 := beNat nonce * 2 ^ 32 + 1
  let stream := (List.range (ceilDiv plain.length 16)).flatMap fun i => enc (beNat nonce * 2 ^ 32 + (i + 2) % 2 ^ 32)
  let c := xorBytes plain stream
  let lens := beBytes 8 (8 * aad.length) ++ beBytes 8 (8 * c.length)
  let y := (toBlocks aad ++ toBlocks c ++ [lens]).foldl (fun y b => ghashMul 128 (y ^^^ beNat b) h 0) 0
  (c, xorBytes (enc j0) (beBytes 16 y))

/-! ### ECDSA P-256 -/

/-- The prime of P-256 (FIPS 186-4). -/
def p256P : Nat := 2 ^ 256 - 2 ^ 224 + 2 ^ 192 + 2 ^ 96 - 1

/-- The order of its base point. -/
def p256N : Nat := 0xFFFFFFFF00000000FFFFFFFFFFFFFFFFBCE6FAADA7179E84F3B9CAC2FC632551

/-- The coefficient b. -/
def p256B : Nat := 0x5AC635D8AA3A93E7B3EBBD55769886BC651D06B0CC53B0F63BCE3C3E27D2604B

/-- The base point. -/
def p256G : Nat × Nat :=
  (0x6B17D1F2E12C4247F8BCE6E563A440F277037D812DEB33A0F4A13945D898C296,
   0x4FE342E2FE1A7F9B8EE7EB4A7C0F9E162BCE33576B315ECECBB6406837BF51F5)

/-- b^e modulo m over the `n` low bits of e. -/
def powMod (m : Nat) : Nat → Nat → Nat → Nat
  | 0, _, _ => 1
  | n + 1, b, e =>
    let r := powMod m n (b * b % m) (e / 2)
    if e % 2 = 1 then r * b % m else r

/-- The inverse modulo a prime. -/
def invMod (m a : Nat) : Nat := powMod m 256 (a % m) (m - 2)

/-- Addition on P-256; none is the point at infinity. -/
def ecAdd (a b : Option (Nat × Nat)) : Option (Nat × Nat) :=
  match a, b with
  | none, b => b
  | a, none => a
  | some (x1, y1), some (x2, y2) =>
    let p := p256P
    if x1 = x2 ∧ (y1 + y2) % p = 0 then none else
    let l := if x1 = x2 then (3 * x1 * x1 + (p - 3)) * invMod p (2 * y1) % p
      else (y2 + p - y1) * invMod p (x2 + p - x1) % p
    let x3 := (l * l + (p - x1) + (p - x2)) % p
    some (x3, (l * (x1 + p - x3) + (p - y1)) % p)

/-- The multiple of a point over the `n` low bits of k. -/
def ecMul : Nat → Nat → Option (Nat × Nat) → Option (Nat × Nat)
  | 0, _, _ => none
  | n + 1, k, a =>
    let r := ecMul n (k / 2) (ecAdd a a)
    if k % 2 = 1 then ecAdd a r else r

/-- A public key of 65 bytes: 0x04, X, Y, a point of the curve (18 R384). -/
def p256Point (pub : List Byte) : Option (Nat × Nat) :=
  let x := beNat (slice pub 1 32)
  let y := beNat (slice pub 33 32)
  let p := p256P
  if pub.length = 65 ∧ fieldAt pub 0 1 = 4 ∧ x < p ∧ y < p ∧ y * y % p = (x * x * x + (p - 3) * x + p256B) % p then some (x, y)
  else none

/-- The signature (r, s of 32 bytes each) over a SHA-256 hash verifies under a public key (FIPS 186-4; 18 R384). -/
def ecdsaOk (pub hash sig : List Byte) : Bool :=
  let r := beNat (slice sig 0 32)
  let s := beNat (slice sig 32 32)
  let n := p256N
  match p256Point pub with
  | none => false
  | some q =>
    if sig.length ≠ 64 ∨ r = 0 ∨ n ≤ r ∨ s = 0 ∨ n ≤ s then false else
    let w := invMod n s
    match ecAdd (ecMul 256 (beNat hash * w % n) (some p256G)) (ecMul 256 (r * w % n) (some q)) with
    | none => false
    | some (x, _) => decide (x % n = r)

/-- A signature of 64 bytes over a hash with a private key and the nonce k (FIPS 186-4). -/
def ecdsaSign (priv hash : List Byte) (k : Nat) : List Byte :=
  let n := p256N
  match ecMul 256 k (some p256G) with
  | none => zeros 64
  | some (x, _) =>
    let r := x % n
    beBytes 32 r ++ beBytes 32 (invMod n k * (beNat hash + r * beNat priv) % n)

end Sys2Proof.Machine
end

