-- ==== Sys2Proof/Machine/Streams.lean ====
section
/-! DEFINITION. Ports, ARP, stream units and frames, heartbeats, budgets and shedding (15 R316 to R339). -/

namespace Sys2Proof.Machine

/-! ### Settings -/

/-- Stream n's record. -/
def State.strCfg (s : State) (n : Nat) : StreamRec := nth s.conf.streams n {}

/-- Stream n. -/
def State.stream (s : State) (n : Nat) : Stream := nth s.net.streams n {}

/-- Stream n changed by `f`. -/
def State.modStream (s : State) (n : Nat) (f : Stream → Stream) : State :=
  { s with net := { s.net with streams := modAt s.net.streams n f } }

/-- C_f (15 R332). -/
def fragCap (c : Conf) : Nat := c.net.mtu - 92

/-- C_port in bits/s (15 R316). -/
def portCap (mode : Nat) : Nat :=
  match mode with
  | 0 => 0
  | 1 => 9200000000
  | _ => 23000000000

/-- The module's MAC address (15 R318). -/
def State.ownMac (s : State) : Nat :=
  let m := s.conf.net.macLo + 2 ^ 32 * s.conf.net.macHi
  if m = 0 then s.fact.mac else m

/-- The static destination MAC of a stream, 0 for none (15 R324). -/
def StreamRec.dstMac (c : StreamRec) : Nat := c.dstMacLo + 2 ^ 32 * c.dstMacHi

/-- The next hop of a stream (15 R324). -/
def nextHop (c : NetRec) (x : StreamRec) : Nat :=
  if x.dstIp &&& c.mask = c.ip &&& c.mask then x.dstIp else c.gw

/-! ### Packing (15 R332, R333) -/

/-- The ranges (start, end) after the range from `a` to `e`, in increasing start, with it, overlapping ones merged. -/
def mergeInto (a e : Nat) : List (Nat × Nat) → List (Nat × Nat)
  | [] => [(a, e)]
  | (b, f) :: l => if b ≤ e then mergeInto a (max e f) l else (a, e) :: mergeInto b f l

/-- The positions of the ranges in increasing order, overlapping ranges merged, as (start, end). -/
def mergeRanges : List (Nat × Nat) → List (Nat × Nat)
  | [] => []
  | (a, e) :: l => mergeInto a e l

/-- A stream's positions as merged (start, end) pairs. -/
def StreamRec.spans (c : StreamRec) : List (Nat × Nat) :=
  mergeRanges (orderBy (fun a b => decide (a.1 ≤ b.1)) (c.ranges.map fun r => (r.1, r.1 + r.2)))

/-- The pieces of the spans, one for each block touched: block, first index within it, count. -/
def blockPieces (spans : List (Nat × Nat)) : List (Nat × Nat × Nat) :=
  spans.flatMap fun (a, e) =>
    (List.range ((e + 1023) / 1024 - a / 1024)).map fun i =>
      let b := a / 1024 + i
      let lo := max a (1024 * b)
      (b, lo - 1024 * b, min e (1024 * (b + 1)) - lo)

/-- Bytes of a segment of `n` positions: header, words, quality words, padding. -/
def segBytes (qmode n : Nat) : Nat := 8 + if qmode = 1 then 4 * n else (2 * n + 3) / 4 * 4

/-- The most positions whose segment fits `left` bytes. -/
def segMax (qmode left : Nat) : Nat := if left < 12 then 0 else if qmode = 1 then (left - 8) / 4 else (left - 8) / 4 * 2

/-- Segments placed into frames: each whole where it fits, else its largest part, else in the next frame. `cur` is the open frame,
last segment first, with `left` bytes free. -/
def packSegs (qmode cap : Nat) : Nat → List (Nat × Nat × Nat) → List (Nat × Nat × Nat) → Nat → List (List (Nat × Nat × Nat))
  | 0, _, cur, _ => [cur.reverse]
  | _, [], cur, _ => [cur.reverse]
  | fuel + 1, (b, f, n) :: l, cur, left =>
    if segBytes qmode n ≤ left then packSegs qmode cap fuel l ((b, f, n) :: cur) (left - segBytes qmode n)
    else
      let k := segMax qmode left
      if k = 0 then cur.reverse :: packSegs qmode cap fuel ((b, f, n) :: l) [] cap
      else packSegs qmode cap fuel ((b, f + k, n - k) :: l) ((b, f, k) :: cur) (left - segBytes qmode k)

/-- The frames of a DAS unit as lists of segments (15 R332). -/
def dasFrames (c : Conf) (x : StreamRec) : List (List (Nat × Nat × Nat)) :=
  let pieces := blockPieces x.spans
  packSegs x.qmode (fragCap c) (3 * 131072) pieces [] (fragCap c)

/-- The bytes a frame of a byte-string unit carries, except the last (15 R333). -/
def chunkBytes (c : Conf) : Nat := fragCap c / 8 * 8

/-- Frames of a byte string of `n` bytes. -/
def chunkCount (c : Conf) (n : Nat) : Nat := max 1 (ceilDiv n (chunkBytes c))

/-! ### Budgets and shedding (15 R321, R336, R337) -/

/-- A rate in bits/s as a fraction: numerator, denominator. -/
abbrev RateQ := Nat × Nat

/-- The sum of two rates. -/
def rateAdd (a b : RateQ) : RateQ := if a.1 = 0 then b else if b.1 = 0 then a else (a.1 * b.2 + b.1 * a.2, a.2 * b.2)

/-- A rate is at most `n` bits/s. -/
def rateLe (a : RateQ) (n : Nat) : Bool := decide (a.1 ≤ n * a.2)

/-- `bytes` every `ticks` ticks. -/
def rateOf (bytes ticks : Nat) : RateQ := if ticks = 0 then (0, 1) else (8 * bytes * 4000000000, ticks)

/-- V_s of an enabled stream (15 R336). -/
def streamBudget (c : Conf) (x : StreamRec) : RateQ :=
  let p := c.probe
  let fragged (n : Nat) : Nat := n + 64 * chunkCount c n
  match x.stype with
  | 1 =>
    let payload := (dasFrames c x).map fun l => 64 + (l.map fun g => segBytes x.qmode g.2.2).sum
    rateOf payload.sum (pOut p c.dec)
  | 2 => rateOf (p.nblocks * fragged 8240) (nWin c.qs p * nSdEff c.qs p * p.ttr)
  | 3 =>
    let rows := (List.range (ceilDiv c.dts.pDts 1024)).map fun g => fragged (56 + 8 * min 1024 (c.dts.pDts - 1024 * g))
    rateOf rows.sum (2 ^ c.dts.nAvgLog2 * p.ttr)
  | 5 | 7 => (x.rate * 1000000, 1)
  | 4 | 6 | 8 => (20000000, 1)
  | _ => (0, 1)

/-- V_s of stream n, 0 while it is not enabled. -/
def Conf.budget (c : Conf) (n : Nat) : RateQ :=
  let x := nth c.streams n {}
  if x.en = 1 then streamBudget c x else (0, 1)

/-- The rates of the streams `p` selects. -/
def Conf.budgetSum (c : Conf) (p : Nat → StreamRec → Bool) : RateQ :=
  (List.range 16).foldl (fun a n => if p n (nth c.streams n {}) then rateAdd a (c.budget n) else a) (0, 1)

/-- What the streams claim on port p: every stream in dual-path mode, those homed there in aggregate mode (15 R337, R340). -/
def Conf.portBudget (c : Conf) (p : Nat) : RateQ := c.budgetSum fun _ x => c.net.path == 0 || x.home == p

/-- The sums of R337 hold, and in aggregate mode no enabled stream is homed on a port that is off. -/
def Conf.budgetsOk (c : Conf) : Bool :=
  if c.net.path = 0 then rateLe (c.portBudget 0) (min (portCap c.net.modeA) (portCap c.net.modeB))
  else (List.range 2).all fun p =>
    rateLe (c.portBudget p) (portCap (c.net.mode p)) &&
      (c.net.mode p != 0 || c.streams.all fun x => x.en != 1 || x.home != p)

/-- The port that is to carry a stream in aggregate mode (15 R320). -/
def State.carrier (s : State) (x : StreamRec) : Nat :=
  let a := s.net.portA.up
  let b := s.net.portB.up
  if a = b then x.home else if a then 0 else 1

/-- The streams port p is to carry, in order of PRIO and stream number. -/
def State.carried (s : State) (p : Nat) : List Nat :=
  orderBy (fun a b => decide ((s.strCfg a).prio ≤ (s.strCfg b).prio))
    ((List.range 16).filter fun n => (s.strCfg n).en == 1 && s.carrier (s.strCfg n) == p)

/-- The streams port p sheds (15 R321). -/
def State.shedOn (s : State) (p : Nat) : List Nat :=
  let cap := portCap (s.conf.net.mode p)
  ((s.carried p).foldl (fun (a : RateQ × List Nat) n =>
    let v := rateAdd a.1 (s.conf.budget n)
    if rateLe v cap then (v, a.2) else (a.1, n :: a.2)) ((0, 1), [])).2

/-- Shedding and the assignment of streams to ports re-evaluated (15 R321); NET_INT_STATUS.SHED when shedding changed. Each takes effect
at the stream's next unit boundary: at once, but for a stream that is forming a unit, which follows when the unit ends. -/
def evalShed (s : State) : State :=
  if s.conf.net.path = 0 then s else
  let shed := (List.range 2).flatMap fun p => if (s.net.port p).up then s.shedOn p else []
  let l := s.net.streams.mapIdx fun n x =>
    if x.part.isSome then x else { x with shed := shed.contains n, port := s.carrier (s.strCfg n) }
  let changed := (l.map Stream.shed) != (s.net.streams.map Stream.shed)
  { s with net := { s.net with streams := l, int := s.net.int.raiseIf changed 2 } }

/-- A shed stream exists (15 R340 ANY_SHED). -/
def Net.anyShed (x : Net) : Bool := x.streams.any Stream.shed

/-! ### Quality bits of frames (15 R331) -/

/-- MODFLAGS bits as quality-word bits. -/
def heldQuality (m : Nat) : Nat :=
  (if bit m 0 then qUnsync else 0) ||| (if bit m 1 then qShadow else 0) ||| (if bit m 2 then qSupplyWarn else 0)

/-- The conditions UNSYNC, SHADOW and SUPPLY_WARN as they are now are remembered for the next frame of every stream and for open
segments and the raw capture: called where one of them is about to end (15 R331; 13 R290). -/
def State.holdFlags (s : State) : State :=
  let m := s.modflags
  let l := s.net.streams.map fun x => { x with since := x.since ||| heldQuality m }
  let src (x : Source) : Source := { x with seg := x.seg.map fun g => { g with modflags := g.modflags ||| m } }
  let a := s.acq
  { s with
    net := { s.net with streams := l }
    acq := { a with zone := src a.zone, pad := src a.pad, cmd := src a.cmd,
                    raw := { a.raw with modflags := if a.raw.st = 0 then a.raw.modflags else a.raw.modflags ||| m } } }

/-- The role a raw-sample index falls in is the standby role (21 R469). -/
def State.standbyAt (s : State) (n : Nat) : Bool :=
  match s.cas.roleSegs.find? fun e => decide (e.1 ≤ n) with
  | some e => e.2
  | none => s.standbyRole

/-- A unit falls in the standby role (21 R469): by its newest raw sample; one without such an index, by the role as it is now. -/
def State.unitShadow (s : State) (newest : Option Nat) : Bool :=
  match newest with
  | some n => s.standbyAt n
  | none => s.standbyRole

/-- UNSYNC, SHADOW and SUPPLY_WARN of a frame formed now (15 R331; 21 R469): as they held at any moment since the stream's previous frame
was formed; but SHADOW of a unit with a newest raw sample by the role that sample falls in, which sends every such unit without SHADOW
from one module only. -/
def State.frameHeld (s : State) (n : Nat) (newest : Option Nat) : Nat :=
  let held := (s.stream n).since ||| heldQuality s.modflags
  match newest with
  | some _ => (held &&& (65535 - qShadow)) ||| if s.unitShadow newest then qShadow else 0
  | none => held

/-- The frames of a stream are suppressed: standby role without STANDBY_TX (15 R331). -/
def State.suppressed (s : State) (n : Nat) : Bool := s.standbyRole && (s.strCfg n).standbyTx == 0

/-! ### Forming frames (15 R319 to R322, R328 to R331, R338) -/

/-- Frames discarded: DROPS, the header field and the heartbeat total, NET_INT_STATUS.DROP. -/
def dropFrames (s : State) (n k : Nat) : State :=
  if k = 0 then s else
  let s := s.modStream n fun x => { x with
    drops := satAdd 32 x.drops k, dropsSince := satAdd 16 x.dropsSince k, dropsTotal := satAdd 16 x.dropsTotal k }
  { s with net := { s.net with int := s.net.int.raise 4 } }

/-- The ARP entry of a next hop on a port. -/
def Port.entry (p : Port) (ip : Nat) : Option ArpEntry := p.arp.find? fun e => e.ip == ip

/-- The destination of a stream is unresolved on a port (15 R324). -/
def State.unresolved (s : State) (c : StreamRec) (p : Nat) : Bool :=
  c.dstMac == 0 && (((s.net.port p).entry (nextHop s.conf.net c)).map ArpEntry.unresolved).getD false

/-- The MAC address a stream's frames go to on a port, once known (15 R324). -/
def State.hopMac (s : State) (c : StreamRec) (p : Nat) : Option Nat :=
  if c.dstMac ≠ 0 then some c.dstMac else ((s.net.port p).entry (nextHop s.conf.net c)).bind ArpEntry.mac

/-- The ports a stream's frames go out on: each port that is up in dual-path mode, its assigned port in aggregate mode
(15 R319, R320). -/
def State.outPorts (s : State) (n : Nat) : List Nat :=
  (List.range 2).filter fun p => (s.net.port p).up && (s.conf.net.path == 0 || (s.stream n).port == p)

/-- Two frames are the same one. -/
def Frame.same (f g : Frame) : Bool := f.stream == g.stream && f.kepoch == g.kepoch && f.fseq == g.fseq

/-- Bytes of formed frames of stream n that wait (15 R338): a frame that waits on both ports is held once. -/
def Net.buffered (x : Net) (n : Nat) : Nat :=
  let a := x.portA.frames.filter fun f => f.stream == n
  let b := x.portB.frames.filter fun f => f.stream == n && !a.any f.same
  ((a ++ b).map fun f => 64 + f.payload.length).sum

/-- 16 MiB. -/
def streamBuffer : Nat := 16777216

/-- K_str of stream n in its epoch (18 R402). -/
def streamKeyOf (ksm : List Byte) (serial n e : Nat) : List Byte :=
  hkdfExpand32 (hkdfExtract (leBytes 8 serial) ksm) (ascii "KT7-STREAM" ++ leBytes 1 n ++ leBytes 1 e)

/-- The stream master secret of a key epoch (18 R402, R403). -/
def State.ksmOf (s : State) (e : Nat) : Option (List Byte) :=
  let x := s.sec
  if e = x.kepoch then x.ksm
  else if x.rekeyPend ∧ e = (x.kepoch + 1) % 256 then (match x.ksmPend with | some k => some k | none => x.ksm)
  else match x.prevEpoch with
    | some (p, k) => if e = p then some k else none
    | none => none

/-- What the frames of a unit share. -/
structure UnitInfo where
  stype : Nat
  unit : Nat
  ts : Nat
  thinK : Nat
  frags : Nat
  own : Option Nat
  /-- Its newest raw sample, for the role it falls in (21 R469). -/
  newest : Option Nat
  deriving DecidableEq, Repr

/-- One frame takes its FSEQ (15 R329): the frame and the state with FSEQ advanced and the held quality bits taken. -/
def takeFrame (s : State) (n : Nat) (u : UnitInfo) (frag : Nat) (payload : List Byte) (qw : Nat) : Frame × State :=
  let x := s.stream n
  let c := s.strCfg n
  let qw := qw ||| (if u.thinK ≠ 0 then qDegraded else 0) ||| s.frameHeld n u.newest
  let f : Frame := {
    stype := u.stype, stream := n, hflags := b2n (u.stype == 0) + 2 * b2n (u.stype != 0 && frag + 1 == u.frags) + 4 * c.auth,
    fseq := x.fseq, ts := u.ts, unit := u.unit, qword := qw, thinK := u.thinK, kepoch := x.kepoch, payload := payload,
    frag := frag, frags := u.frags, drops := none, ports := s.outPorts n, cfg := c,
    key := streamKeyOf ((s.ksmOf x.kepoch).getD []) s.fact.serial n x.kepoch, own := u.own }
  (f, s.modStream n fun x => { x with fseq := x.fseq + 1, frames := wrapAdd 32 x.frames 1, since := 0 })

/-- A frame put on the ports it goes out on; a port on which its destination is unresolved discards it (15 R324). -/
def enqueue (s : State) (n : Nat) (f : Frame) (beat : Bool) : State :=
  f.ports.foldl (fun s p =>
    if s.unresolved f.cfg p then dropFrames s n 1
    else s.modPort p fun x => if beat then { x with beats := x.beats ++ [f] } else { x with frames := x.frames ++ [f] }) s

/-- The frames of a unit, or of the part of one that is formed now, from FRAG `frag` on (15 R319, R322, R331, R338): payloads with
their quality words. A suppressed unit is not formed; one in progress as the role changes is completed (21 R469). -/
def formFrames (s : State) (n : Nat) (u : UnitInfo) (frag : Nat) (parts : List (List Byte × Nat)) : State :=
  let s := s.modStream n fun x => { x with lastUnit := u.unit }
  if frag == 0 && s.unitShadow u.newest && (s.strCfg n).standbyTx == 0 then s else
  let size := (parts.map fun p => 64 + p.1.length).sum
  let full := decide (streamBuffer < s.net.buffered n + size)
  let lost := (s.stream n).shed || (s.outPorts n).isEmpty || full
  let s := (parts.foldl (fun (a : State × Nat) p =>
    let (f, t) := takeFrame a.1 n u a.2 p.1 p.2
    (if lost then dropFrames t n 1 else enqueue t n f false, a.2 + 1)) (s, frag)).1
  let s := if full && !(s.stream n).shed && !(s.outPorts n).isEmpty then s.modStream n fun x => { x with bufFull := true } else s
  { s with net := { s.net with bothDown := s.net.bothDown || (!s.net.portA.up && !s.net.portB.up) } }

/-! ### Unit boundaries: amendments and key epochs (15 R329, R339; 18 R403) -/

/-- A stream moves to the pending key epoch; when the last one has, the epoch is current (18 R403). -/
def moveEpoch (s : State) (n : Nat) : State :=
  if !s.sec.rekeyPend then s else
  let e := (s.sec.kepoch + 1) % 256
  let s := if (s.stream n).kepoch = e then s else s.modStream n fun x => { x with kepoch := e, fseq := 0 }
  if s.net.streams.all fun x => x.kepoch == e then
    { s with sec := { s.sec with
        prevEpoch := s.sec.ksm.map fun k => (s.sec.kepoch, k), kepoch := e, rekeyPend := false,
        ksm := (match s.sec.ksmPend with | some k => some k | none => s.sec.ksm), ksmPend := none,
        int := s.sec.int.raise 5 } }
  else s

/-- ARP requests for the next hops of the enabled streams that a port does not know yet (15 R324). -/
def arpEnsure (s : State) (p : Nat) : State :=
  (List.range 16).foldl (fun s n =>
    let c := s.strCfg n
    let ip := nextHop s.conf.net c
    if c.en ≠ 1 ∨ c.dstMac ≠ 0 ∨ !(s.net.port p).up ∨ ((s.net.port p).entry ip).isSome then s
    else s.modPort p fun x => { x with
      arp := x.arp ++ [{ ip := ip, mac := none, tries := 1, unresolved := false }], msgs := x.msgs ++ [.arpRequest ip] }) s

/-- First output none of whose rows has left its block sheaf (15 R339). -/
def State.freshQ (s : State) : Nat := s.dec.blockQ.foldl (fun m e => max m e.2) 0

/-- Every queued event is handed to the enabled EVENT streams (12 R268). -/
def handEvents (s : State) : Nat → State
  | 0 => s
  | fuel + 1 =>
    match s.zon.pop with
    | (none, _) => s
    | (some e, z) =>
      let l := s.net.streams.mapIdx fun n x =>
        if (s.strCfg n).en = 1 ∧ (s.strCfg n).stype = 4 then { x with events := x.events ++ [e] } else x
      handEvents { s with zon := z, net := { s.net with streams := l } } fuel

/-- A stream begins: its counts of units start anew, and its first unit is the first of its data that begins from now on (15 R335,
R339). -/
def startStream (s : State) (n : Nat) : State :=
  let q := s.freshQ
  s.modStream n fun x => { x with
    enabledAt := s.tim.tick
    nextUnit := if (s.strCfg n).stype = 1 then q else 0
    units := if (s.strCfg n).stype = 5 then x.units else []
    lastUnit := 0, since := 0, dropsTotal := 0, ending := false, events := []
    hkRd := s.hka.wp, hkUnread := 0, hkWrap := s.hka.len, hkLost := 0 }

/-- A stream amendment takes effect (15 R339). Events decided before an EVENT stream is enabled go to the streams enabled then. -/
def applyStream (s : State) (n req : Nat) (c : StreamRec) : State :=
  let was := (s.strCfg n).en
  let s := if was = 0 ∧ c.en = 1 ∧ c.stype = 4 ∧ s.net.running then handEvents s (s.zon.queue.length + 1) else s
  let s := { s with
    conf := { s.conf with streams := modAt s.conf.streams n fun _ => c }
    cfg := { s.cfg with amends := satAdd 16 s.cfg.amends 1 } }
  let s := if was = 0 ∧ c.en = 1 then startStream s n else if c.en = 0 then moveEpoch s n else s
  (arpEnsure (arpEnsure (evalShed s) 0) 1).setReq req .applied 0

/-- What happens at a unit boundary of a stream. -/
def unitBoundary (s : State) (n : Nat) : State :=
  let l := (s.stream n).pend
  let s := s.modStream n fun x => { x with pend := [] }
  moveEpoch (l.foldl (fun s (e : Nat × StreamRec) => applyStream s n e.1 e.2) s) n

/-! ### DAS units (15 R327, R332) -/

/-- The blocks a DAS stream touches. -/
def StreamRec.touched (c : StreamRec) : List Nat := ((blockPieces c.spans).map Prod.fst).eraseDups

/-- The row of output q and block b that a DAS stream is to carry. -/
def Net.row (x : Net) (q b : Nat) : Option OutRow := x.rows.find? fun r => r.q == q && r.block == b

/-- An output row is kept for the DAS streams (15 R327). -/
def dasRow (s : State) (r : OutRow) : State :=
  if s.conf.streams.any fun c => c.en == 1 && c.stype == 1 then { s with net := { s.net with rows := s.net.rows ++ [r] } } else s

/-- Output q is complete for a DAS stream: it has been produced, and every block touched that is not shed has yielded its row. -/
def State.dasReady (s : State) (n : Nat) : Bool :=
  let q := (s.stream n).nextUnit
  (s.acq.outTs.any fun e => e.1 == q) && (s.strCfg n).touched.all fun b => (s.net.row q b).isSome || s.shedAt q b

/-- A segment of a DAS payload with the quality words of its positions (15 R332). -/
def dasSegment (s : State) (qmode q : Nat) (g : Nat × Nat × Nat) : List Byte × Nat :=
  let (b, first, count) := g
  let (xe, words, flags) := match s.net.row q b with
    | some r => (r.xe, slice r.words first count, slice r.flags first count)
    | none => (0, List.replicate count 0, List.replicate count qCorrupt)
  let body := words.flatMap (fun w => leBytes 2 (ofInt 16 w)) ++ if qmode = 1 then flags.flatMap (leBytes 2) else []
  (leBytes 2 b ++ leBytes 2 first ++ leBytes 2 count ++ leBytes 1 (ofInt 8 xe) ++ leBytes 1 (b2n (qmode == 1)) ++ body ++
    zeros ((4 - body.length % 4) % 4), orAll flags)

/-- Rows no DAS stream has still to form are dropped. -/
def pruneRows (s : State) : State :=
  let need := (List.range 16).filter fun n => (s.strCfg n).en == 1 && (s.strCfg n).stype == 1
  { s with net := { s.net with rows := s.net.rows.filter fun r => need.any fun n => decide ((s.stream n).nextUnit ≤ r.q) } }

/-- A DAS unit is formed (15 R327). -/
def dasForm (s : State) (n : Nat) : State :=
  let s := unitBoundary s n
  let c := s.strCfg n
  if !s.net.running || (s.stream n).ending || c.en != 1 || c.stype != 1 || !s.dasReady n then s else
  let q := (s.stream n).nextUnit
  let fs := dasFrames s.conf c
  let parts := fs.map fun l =>
    let segs := l.map (dasSegment s c.qmode q)
    (segs.flatMap Prod.fst, orAll (segs.map Prod.snd))
  let k := ((s.gridOfQ q).map fun g => (s.til.kAt (g.newest q)).2.1).getD 0
  let ts := ((s.acq.outTs.find? fun e => e.1 == q).map Prod.snd).getD 0
  let u : UnitInfo := { stype := 1, unit := q, ts := ts, thinK := k, frags := fs.length, own := none
                        newest := (s.gridOfQ q).map fun g => g.newest q }
  let s := formFrames s n u 0 parts
  pruneRows (s.modStream n fun x => { x with nextUnit := q + 1 })

/-! ### Byte-string units (15 R333) -/

/-- The chunks of a byte string with the quality word of each. -/
def chunks (size : Nat) : Nat → List Byte → List (List Byte)
  | 0, _ => []
  | n + 1, l => l.take size :: chunks size n (l.drop size)

/-- A whole byte-string unit is formed at once. -/
def formBytes (s : State) (n stype : Nat) (u : StreamUnit) : State :=
  let k := chunkCount s.conf u.bytes.length
  formFrames s n { stype := stype, unit := u.unit, ts := u.ts, thinK := s.til.k, frags := k, own := none, newest := u.newest } 0
    ((chunks (chunkBytes s.conf) k u.bytes).map fun b => (b, u.qword))

/-- An entry is being sent by a stream while frames of it are to be formed or wait (15 R333; 13 R285). -/
def releaseOwned (s : State) : State :=
  let still (id n : Nat) : Bool :=
    (s.net.portA.frames ++ s.net.portB.frames).any (fun f => f.stream == n && f.own == some id) ||
      (match (s.stream n).part with
       | some (_, o, _) => o == some id
       | none => false)
  { s with acq := { s.acq with dir := s.acq.dir.map fun (e : DirEntry) =>
      if e.type = 2 then e else { e with sending := e.sending.filter (still e.recId) } } }

/-- The record of an entry as a unit (15 R326; 13 R291). -/
def State.recordUnit (s : State) (e : DirEntry) : StreamUnit :=
  let rank := if s.conf.cascade.role = 0 then 0xFF else s.conf.cascade.rank
  let serial := s.fact.serial % 2 ^ 32
  match e.body with
  | .segment seg ended =>
    { newest := none, begins := e.tTrig, unit := e.recId, ts := e.tTrig, qword := orAll ((seg.rows.flatMap id).map RecEntry.qword),
      bytes := seg.bytes seg.source rank serial ended }
  | .gap g => { newest := none, begins := g.tsFirst, unit := g.gapSeq, ts := g.tsFirst, qword := 0, bytes := g.bytes }
  | .raw => { newest := none, begins := e.tTrig, unit := e.recId, ts := e.tTrig, qword := 0, bytes := s.acq.raw.bytes rank s.conf.probe.plan serial s.free }

/-- Entry e may be sent now (15 R333): it is complete, and on a stream that sends every record no earlier one is still to complete
(log 80). -/
def State.recordReady (s : State) (n : Nat) (e : DirEntry) : Bool :=
  e.complete && ((s.strCfg n).rsend == 1 || s.acq.dir.all fun d => d.type == 2 || d.complete || decide (e.recId ≤ d.recId))

/-- The next unit of a RECORD stream: a gap record that was made, else the next record due that is still held (15 R333). -/
def nextRecord (s : State) (n : Nat) : State :=
  let x := s.stream n
  match x.units with
  | u :: l => s.modStream n fun x => { x with units := l, part := some (u, none, 0) }
  | [] =>
    match x.recs.dropWhile fun id => (s.acq.find id).isNone with
    | [] => s.modStream n fun x => { x with recs := [] }
    | id :: l =>
      match s.acq.find id with
      | none => s
      | some e =>
        if !s.recordReady n e then s.modStream n fun x => { x with recs := id :: l } else
        let s := { s with free := s.free + if e.type = 3 then 16400 * s.acq.raw.f else 0, acq := { s.acq with
          dir := s.acq.dir.map fun (d : DirEntry) => if d = e then { d with sending := addOnce d.sending n } else d } }
        s.modStream n fun x => { x with recs := l, part := some (s.recordUnit e, some id, 0) }

/-- The frames of the unit in progress of a RECORD stream that its buffer takes: a record is never dropped for want of room
(15 R333, R338). Where the unit ends, what waits for its end takes effect (R321, R339). -/
def formRecord (s : State) (n : Nat) : State :=
  match (s.stream n).part with
  | none => s
  | some (u, own, frag) =>
    let size := chunkBytes s.conf
    let k := chunkCount s.conf u.bytes.length
    let room := (streamBuffer - s.net.buffered n) / (64 + size)
    let cnt := min (k - frag) room
    let parts := (chunks size cnt (u.bytes.drop (size * frag))).map fun b => (b, u.qword)
    let s := formFrames s n { stype := 5, unit := u.unit, ts := u.ts, thinK := s.til.k, frags := k, own := own, newest := none } frag parts
    let s := s.modStream n fun x => { x with part := if k ≤ frag + cnt then none else some (u, own, frag + cnt) }
    releaseOwned (if k ≤ frag + cnt then unitBoundary (evalShed s) n else s)

/-- The next frame of the resident raw capture as a unit (15 R326); a lost frame's bytes are undefined (13 R289; log 6). -/
def formRaw (s : State) (n : Nat) : State :=
  let r := s.acq.raw
  let i := (s.stream n).nextUnit
  if r.st ≠ 3 then s else
  match r.frames[i]? with
  | none => s
  | some (_, b) =>
    let (bytes, s) := match b with
      | some l => (l, s)
      | none => drawBytes s 16400
    let s := formBytes s n 7 { newest := none, begins := s.tim.tick, unit := i, ts := s.now, qword := 0, bytes := bytes }
    s.modStream n fun x => { x with nextUnit := i + 1 }

/-- RECORD and RAW streams send their queued data: in acquisition and in the drain of a survey cycle (15 R333; 20 R447). -/
def State.sendsRecords (s : State) : Bool := s.acquiring || s.pwr.draining

/-- The data path is empty: no sheaf waits or runs, and every row has been released and taken (20 R429). -/
def Til.quiet (x : Til) : Bool :=
  x.waiting.isEmpty && x.shots.isEmpty &&
    (x.queues.all fun q => q.all fun h => match h with | .glean _ => true | _ => false) &&
    (x.tillers.all fun e => match e.2 with | .running (.glean _) => true | .running _ => false | _ => true) &&
    x.winnow.all fun e => e.2.held.isEmpty && !e.2.busy

/-- No row of a lower UNIT is still to come for a QS or DTS stream (15 R327): no processed block has an earlier window to hand over, no
earlier average waits for its partner trace. -/
def State.rowMayLeave (s : State) (stype : Nat) (u : StreamUnit) : Bool :=
  match stype with
  | 2 => decide (u.unit ≤ s.qsLowest) || (s.til.quiet && s.pwr.stopped)
  | _ => s.dts.waits.all fun a => decide (u.unit ≤ a.avg % 2 ^ 32)

/-- A QS or DTS row, a record or a raw frame forms a unit (15 R333). A suppressed RECORD or RAW stream keeps what it has to send
(R331, R333). -/
def rowForm (s : State) (n : Nat) : State :=
  let s := if (s.stream n).part.isNone then unitBoundary s n else s
  let c := s.strCfg n
  if !s.net.running || (s.stream n).ending then s
  else match c.stype with
    | 2 | 3 =>
      if c.en ≠ 1 then s else
      match (s.stream n).units with
      | [] => s
      | u :: l => if s.rowMayLeave c.stype u then formBytes (s.modStream n fun x => { x with units := l }) n c.stype u else s
    | 5 =>
      if (s.stream n).part.isSome then formRecord s n
      else if c.en = 1 ∧ s.sendsRecords ∧ s.suppressed n = false then formRecord (nextRecord s n) n else s
    | 7 => if c.en = 1 ∧ s.sendsRecords ∧ s.suppressed n = false then formRaw s n else s
    | _ => s

/-! ### EVENT and HK streams (15 R334; 12 R268) -/

/-- An EVENT frame is formed (15 R334). -/
def eventForm (s : State) (n : Nat) : State :=
  let s := unitBoundary s n
  let c := s.strCfg n
  if !s.net.running || (s.stream n).ending || c.en != 1 || c.stype != 4 then s else
  let s := handEvents s (s.zon.queue.length + 1)
  let es := (s.stream n).events.take (fragCap s.conf / 64)
  match es with
  | [] => s
  | e :: _ =>
    let s := s.modStream n fun x => { x with events := x.events.drop es.length }
    formFrames s n { stype := 4, unit := e.seq, ts := s.now, thinK := s.til.k, frags := 1, own := none, newest := none } 0
      [(es.flatMap Event.bytes, 0)]

/-- An HK batch is formed (15 R334; 17 R369). -/
def hkForm (s : State) (n : Nat) : State :=
  let s := unitBoundary s n
  let c := s.strCfg n
  if !s.net.running || (s.stream n).ending || c.en != 1 || c.stype != 8 then s else
  let x := s.stream n
  let cnt := min x.hkUnread ((fragCap s.conf - 16) / 2)
  if cnt = 0 then s else
  let first := s.hka.widx - x.hkUnread
  let slots := (x.hkReader.slots s.hka.len).take cnt
  let lost := min x.hkLost 65535
  let payload := leBytes 8 first ++ leBytes 2 cnt ++ leBytes 2 lost ++ zeros 4 ++ slots.flatMap fun i => leBytes 2 (smGet 0 s.hka.buf i)
  let r := (List.range cnt).foldl (fun r _ => { HkReader.advance r s.hka.len with unread := r.unread - 1 }) x.hkReader
  let s := s.modStream n fun x => x.setHkReader { r with lost := x.hkLost - lost }
  formFrames s n { stype := 8, unit := first, ts := s.now, thinK := s.til.k, frags := 1, own := none, newest := none } 0 [(payload, 0)]

/-! ### Heartbeats (15 R335) -/

/-- Stream n has sent its last data frame of the acquisition: nothing of it waits or is still to be formed. -/
def State.streamDone (s : State) (n : Nat) : Bool :=
  let x := s.stream n
  let c := s.strCfg n
  s.til.quiet && s.net.buffered n == 0 && x.part.isNone &&
    (match c.stype with
     | 1 => !s.dasReady n
     | 2 | 3 => x.units.isEmpty
     | 4 => x.events.isEmpty && s.zon.queue.isEmpty
     | 8 => x.hkUnread == 0
     | _ => true)

/-- The time for ENDING heartbeats has come (15 R335; 20 R429, R447). -/
def State.endingNow (s : State) : Bool := decide (s.mode = 3) && s.pwr.stopped && !s.pwr.draining

/-- A heartbeat of a stream (15 R335). Its TS and UNIT are not stated (log 6). -/
def heartbeat (s : State) (n : Nat) : State :=
  let c := s.strCfg n
  if !s.net.running || c.en != 1 || (s.stream n).ending then s else
  let ending := s.endingNow && s.streamDone n
  let x := s.stream n
  let ports := (List.range 2).filter fun p => s.conf.net.path == 0 || x.port == p
  let payload := leBytes 8 x.lastUnit ++ leBytes 2 x.dropsTotal ++
    leBytes 1 (b2n x.shed + 2 * b2n (ports.any (s.unresolved c)) + 4 * b2n x.bufFull + 8 * b2n (s.suppressed n) + 16 * b2n ending) ++
    leBytes 1 s.cas.pairRole ++ leBytes 1 (b2n s.net.portA.up + 2 * b2n s.net.portB.up) ++ zeros 3
  let u : UnitInfo := { stype := 0, unit := Config.freeNat s.free % 2 ^ 64, ts := Config.freeNat (s.free + 1), thinK := s.til.k,
                        frags := 1, own := none, newest := none }
  let (f, s) := takeFrame { s with free := s.free + 2 } n u 0 payload 0
  let s := if (s.outPorts n).isEmpty then
      let s := dropFrames s n 1
      { s with net := { s.net with bothDown := s.net.bothDown || (!s.net.portA.up && !s.net.portB.up) } }
    else enqueue s n f true
  s.modStream n fun x => { x with ending := ending }

/-! ### Sending (15 R323, R330, R338) -/

/-- The 48-byte header of a frame (15 R328). -/
def Frame.header (f : Frame) (serial : Nat) : List Byte :=
  leBytes 1 1 ++ leBytes 1 f.stype ++ leBytes 1 f.stream ++ leBytes 1 f.hflags ++ leBytes 4 serial ++ leBytes 8 f.fseq ++
    leBytes 12 (tsLayout f.ts) ++ leBytes 8 f.unit ++ leBytes 2 f.qword ++ leBytes 1 f.thinK ++ leBytes 1 f.kepoch ++
    leBytes 2 f.payload.length ++ leBytes 2 f.frag ++ leBytes 2 f.frags ++ leBytes 2 (f.drops.getD 0)

/-- Payload and tag as they travel (15 R330). -/
def Frame.sealed (f : Frame) (serial : Nat) : List Byte × List Byte :=
  let h := f.header serial
  let nonce := leBytes 1 f.stream ++ leBytes 1 f.kepoch ++ zeros 2 ++ leBytes 8 f.fseq
  match f.cfg.auth with
  | 0 => (f.payload, zeros 16)
  | 1 => (f.payload, (aesGcm f.key nonce (h ++ f.payload) []).2)
  | _ => aesGcm f.key nonce h f.payload

/-- The sum of the 16-bit words of a byte string, the first byte of each the more significant, an odd last byte followed by 0. -/
def wordSum : List Byte → Nat
  | a :: b :: l => 256 * a.toNat + b.toNat + wordSum l
  | [a] => 256 * a.toNat
  | [] => 0

/-- The UDP checksum of a datagram (15 R323): the one's complement of the one's complement sum of the pseudo-header, the UDP header and
the data, 0 sent as 0xFFFF. -/
def udpChecksum (srcIp dstIp srcUdp dstUdp : Nat) (data : List Byte) : Nat :=
  let half (a : Nat) : Nat := a / 65536 % 65536 + a % 65536
  let fold (n : Nat) : Nat := n / 65536 + n % 65536
  let len := 8 + data.length
  let sum := 65535 - fold (fold (half srcIp + half dstIp + 17 + 2 * len + srcUdp + dstUdp + wordSum data))
  if sum = 0 then 65535 else sum

/-- A frame on the wire (15 R323). -/
def State.wire (s : State) (f : Frame) (mac : Nat) : Wire :=
  let c := s.conf.net
  let (payload, tag) := f.sealed s.fact.serial
  let header := f.header s.fact.serial
  { dstMac := mac, srcMac := s.ownMac, vlan := if c.vlanEn = 1 then some (c.vid, f.cfg.pcp) else none, dscp := f.cfg.dscp,
    df := true, ident := 0, ttl := 64, srcIp := c.ip, dstIp := f.cfg.dstIp, srcUdp := c.srcUdp, dstUdp := f.cfg.dstUdp,
    udpSum := udpChecksum c.ip f.cfg.dstIp c.srcUdp f.cfg.dstUdp (header ++ payload ++ tag)
    header := header, payload := payload, tag := tag }

/-- The tokens of a stream now, in 1/32,000 byte (15 R336). -/
def State.tokensNow (s : State) (n : Nat) : Nat :=
  let x := s.stream n
  min 2097152000 (x.bucket + (s.strCfg n).rate * (s.tim.tick - x.bucketTick))

/-- The bucket has been charged for a frame already: it left on the other port. -/
def Stream.hasPaid (x : Stream) (f : Frame) : Bool := x.paid.1 == f.kepoch && decide (f.fseq < x.paid.2)

/-- A data frame may leave: its destination is known, and a RECORD or RAW stream holds its RATE (15 R336). -/
def State.maySend (s : State) (p : Nat) (f : Frame) : Bool :=
  (s.hopMac f.cfg p).isSome &&
    (!(f.stype == 5 || f.stype == 7) || (s.stream f.stream).hasPaid f ||
      decide (32000 * (64 + f.payload.length) ≤ s.tokensNow f.stream))

/-- The frame sent next: the least PRIO, then the least stream number, then the oldest. -/
def pickFrame (ok : Frame → Bool) : List Frame → Option Frame
  | [] => none
  | f :: l =>
    match pickFrame ok l with
    | none => if ok f then some f else none
    | some g =>
      if ok f ∧ (f.cfg.prio < g.cfg.prio ∨ (f.cfg.prio = g.cfg.prio ∧ f.stream ≤ g.stream)) then some f else some g

/-- The first waiting frame of each stream. -/
def headFrames (l : List Frame) : List Frame := (List.range 16).filterMap fun n => l.find? fun f => f.stream == n

/-- A RECORD or RAW frame that leaves for the first time is charged to its bucket. -/
def charge (s : State) (f : Frame) : State :=
  if !(f.stype == 5 || f.stype == 7) || (s.stream f.stream).hasPaid f then s else
  let have' := s.tokensNow f.stream
  s.modStream f.stream fun x => { x with
    bucket := have' - 32000 * (64 + f.payload.length), bucketTick := s.tim.tick, paid := (f.kepoch, f.fseq + 1) }

/-- BUF_FULL ends when the buffer empties (15 R338). -/
def clearFull (s : State) (n : Nat) : State :=
  if s.net.buffered n = 0 then s.modStream n fun x => { x with bufFull := false } else s

/-- A frame is about to leave: where it leaves for the first time its DROPS is taken, here and where it waits on the other port, so that
both ports send identical bytes (15 R319, R328). -/
def takeDrops (s : State) (f : Frame) : Frame × State :=
  match f.drops with
  | some _ => (f, s)
  | none =>
    let d := (s.stream f.stream).dropsSince
    let mark (g : Frame) : Frame := if g.same f then { g with drops := some d } else g
    let s := s.modStream f.stream fun x => { x with dropsSince := 0 }
    let port (x : Port) : Port := { x with beats := x.beats.map mark, frames := x.frames.map mark }
    ({ f with drops := some d }, { s with net := { s.net with portA := port s.net.portA, portB := port s.net.portB } })

/-- A frame leaves port p (15 R323, R328): it waits there no longer. -/
def sendFrame (s : State) (p : Nat) (f : Frame) : State :=
  let (f, s) := takeDrops s f
  let w := s.wire f ((s.hopMac f.cfg p).getD 0)
  s.modPort p fun x => { x with
    beats := x.beats.filter fun g => !g.same f, frames := x.frames.filter fun g => !g.same f
    sent := some (.frame w), tx := wrapAdd 32 x.tx 1 }

/-- A port sends its next frame (15 R338); every frame carries the tag with VLAN_EN (R323). -/
def transmit (s : State) (p : Nat) : State :=
  let x := s.net.port p
  if !x.up then s else
  match x.msgs with
  | m :: l =>
    let vid := if s.conf.net.vlanEn = 1 then some s.conf.net.vid else none
    s.modPort p fun x => { x with msgs := l, sent := some (.msg m vid), tx := wrapAdd 32 x.tx 1 }
  | [] =>
    match x.beats.find? fun f => (s.hopMac f.cfg p).isSome with
    | some f => sendFrame s p f
    | none =>
      match pickFrame (s.maySend p) (headFrames x.frames) with
      | none => s
      | some f => releaseOwned (clearFull (sendFrame (charge s f) p f) f.stream)

/-! ### Links and received frames (15 R317, R319 to R325) -/

/-- A port comes up (15 R317, R319, R324). -/
def portUp (s : State) (p : Nat) : State :=
  if !(s.isConfigured || s.pwr.phase == .golden) || s.conf.net.mode p == 0 || (s.net.port p).up || decide (1 < p) then s else
  let s := s.modPort p fun x => { x with up := true, arp := [], msgs := x.msgs ++ [.gratuitousArp] }
  let s := { s with net := { s.net with bothDown := false, int := s.net.int.raise 0 } }
  arpEnsure (evalShed s) p

/-- The frames of stream n that a port going down loses, and those its new port takes over: in aggregate mode a unit that is in
progress there loses its remaining frames (15 R321). -/
def splitLost (l : List Frame) : List Frame × List Frame :=
  match l with
  | [] => ([], [])
  | f :: _ => if f.frag = 0 then ([], l) else l.span fun g => g.unit == f.unit && g.kepoch == f.kepoch

/-- Frame f was formed before g, a frame of the same stream. -/
def Frame.earlier (f g : Frame) : Bool := (f.kepoch == g.kepoch && decide (f.fseq < g.fseq)) || (f.kepoch + 1) % 256 == g.kepoch

/-- A frame put among those that wait on a port, before the later ones of its stream. -/
def insertFrame (f : Frame) : List Frame → List Frame
  | [] => [f]
  | g :: l => if g.stream = f.stream ∧ f.earlier g then f :: g :: l else g :: insertFrame f l

/-- Frames and heartbeats of stream n taken over by port p; one whose destination is unresolved there is discarded (15 R324). -/
def takeOver (s : State) (p n : Nat) (frames beats : List Frame) : State :=
  let ok (f : Frame) : Bool := !s.unresolved f.cfg p
  let own (f : Frame) : Frame := { f with ports := addOnce f.ports p }
  let s' := s.modPort p fun x => { x with
    frames := ((frames.filter ok).map own).foldl (fun l f => insertFrame f l) x.frames
    beats := ((beats.filter ok).map own).foldl (fun l f => insertFrame f l) x.beats }
  dropFrames s' n ((frames ++ beats).filter fun f => !ok f).length

/-- The frames and heartbeats of stream n on port p, which went down (15 R319, R321): in dual-path mode the other port, where it is up,
sends them too, and takes over those that it was not up for when they were formed; in aggregate mode it takes over the stream's
heartbeats and, where it carries the stream, the frames of whole units. A frame is lost where it has not left a port and no port
will send it. -/
def moveFrames (s : State) (p n : Nat) (frames beats : List Frame) : State :=
  let other := 1 - p
  if s.conf.net.path = 0 then
    if (s.net.port other).up then
      let here (f : Frame) : Bool := !f.ports.contains other
      takeOver s other n (frames.filter here) (beats.filter here)
    else dropFrames s n ((frames ++ beats).filter fun f => f.drops.isNone).length
  else if !(s.net.port other).up then dropFrames s n (frames.length + beats.length)
  else
    let (lost, rest) := splitLost frames
    if (s.stream n).shed then dropFrames (takeOver s other n [] beats) n frames.length
    else dropFrames (takeOver s other n rest beats) n lost.length

/-- A RECORD unit in progress on port p in aggregate mode, p having gone down, loses the frames that have not left (15 R321): those still
to be formed and those of `frames` that wait. The others of `frames`. -/
def losePart (s : State) (p n : Nat) (frames : List Frame) : State × List Frame :=
  if s.conf.net.path = 0 ∨ (s.stream n).port ≠ p then (s, frames) else
  match (s.stream n).part with
  | none => (s, frames)
  | some (u, own, frag) =>
    let mine (f : Frame) : Bool := f.unit == u.unit && f.own == own && f.kepoch == (s.stream n).kepoch
    let k := chunkCount s.conf u.bytes.length - frag + (frames.filter mine).length
    (unitBoundary (dropFrames (s.modStream n fun x => { x with part := none }) n k) n, frames.filter fun f => !mine f)

/-- A port goes down (15 R317, R319 to R321). -/
def portDown (s : State) (p : Nat) : State :=
  if !(s.net.port p).up || decide (1 < p) then s else
  let x := s.net.port p
  let s := s.modPort p fun x => { x with
    up := false, frames := [], beats := [], msgs := [], linkDowns := satAdd 16 x.linkDowns 1 }
  let s := { s with net := { s.net with int := s.net.int.raise 1 } }
  let of (n : Nat) (l : List Frame) : List Frame := l.filter fun f => f.stream == n
  let (s, l) := (List.range 16).foldl (fun (a : State × List Frame) n =>
    let (s, l) := losePart a.1 p n (of n x.frames)
    (s, a.2 ++ l)) (s, [])
  let s := evalShed s
  let s := (List.range 16).foldl (fun s n => clearFull (moveFrames s p n (of n l) (of n x.beats)) n) s
  releaseOwned s

/-- An ARP frame (15 R324, R325). -/
def arpIn (s : State) (p : Nat) (x : RxMeta) (isReply : Bool) (ip mac target : Nat) : State :=
  if !(s.net.port p).up then s else
  if !s.conf.net.takes x then s.discard p x else
  let s := s.received p x
  let s := if ip = s.conf.net.ip ∧ mac ≠ s.ownMac then
      { s with net := { s.net with arpConflict := true, int := s.net.int.raise 5 } } else s
  if isReply then s.modPort p fun x => { x with
    arp := x.arp.map fun e => if e.ip = ip then { e with mac := some mac, tries := 0, unresolved := false } else e }
  else if target = s.conf.net.ip then s.modPort p fun x => { x with msgs := x.msgs ++ [.arpReply ip mac] }
  else s

/-- Frames of the streams whose next hop has just become unresolved on a port (15 R324). -/
def dropUnresolved (s : State) (p : Nat) : State :=
  let gone := ((s.net.port p).frames ++ (s.net.port p).beats).filter fun f => s.unresolved f.cfg p
  let s := s.modPort p fun x => { x with
    frames := x.frames.filter fun f => !s.unresolved f.cfg p, beats := x.beats.filter fun f => !s.unresolved f.cfg p }
  releaseOwned (gone.foldl (fun s f => clearFull (dropFrames s f.stream 1) f.stream) s)

/-- The ARP timer of a stream's next hop on a port (15 R324): the repeat after 60 s, or 1 s without a reply. -/
def arpTimer (s : State) (p n : Nat) : State :=
  let ip := nextHop s.conf.net (s.strCfg n)
  match (s.net.port p).entry ip with
  | none => s
  | some e =>
    if !(s.net.port p).up then s
    else if e.tries < 3 then s.modPort p fun x => { x with
      arp := x.arp.map fun d => if d.ip = ip then { d with tries := d.tries + 1 } else d, msgs := x.msgs ++ [.arpRequest ip] }
    else
      let s := s.modPort p fun x => { x with
        arp := x.arp.map fun d => if d.ip = ip then { d with mac := none, tries := 0, unresolved := true } else d }
      let s := { s with net := { s.net with int := s.net.int.raise 3 } }
      dropUnresolved s p

/-- An ICMP echo request (15 R325), answered to the requester. -/
def icmpIn (s : State) (p : Nat) (x : RxMeta) (srcMac srcIp dst : Nat) (payload : List Byte) : State :=
  if !(s.net.port p).up then s else
  if dst ≠ s.conf.net.ip ∨ s.conf.net.takes x = false then s.discard p x
  else
    let sec := s.tim.tick / secTicks
    (s.received p x).modPort p fun x =>
      let cnt := if x.icmp.1 = sec then x.icmp.2 else 0
      if cnt < 100 then { x with icmp := (sec, cnt + 1), msgs := x.msgs ++ [.icmpReply srcIp srcMac payload] } else x

/-- Any other received frame is discarded and counted (15 R325). -/
def rxDiscard (s : State) (p : Nat) (x : RxMeta) : State := if !(s.net.port p).up then s else s.discard p x

/-! ### Acquisition start and end -/

/-- Acquisition start (15 R329, R339; 18 R402): streams run, key epoch 0 under a new K_sm, unit numbers from 0. -/
def netAcqStart (s : State) : State :=
  let (k, s) := drawBytes s 32
  let l := s.net.streams.mapIdx fun n x => { x with
    kepoch := 0, fseq := 0, dropsSince := 0, nextUnit := if (s.strCfg n).stype = 7 then x.nextUnit else 0, lastUnit := 0, since := 0,
    units := if (s.strCfg n).stype = 5 then x.units else [], events := [], ending := false, paid := (0, 0), enabledAt := 0,
    hkRd := 0, hkUnread := 0, hkWrap := s.hka.len, hkLost := 0 }
  evalShed { s with
    net := { s.net with running := true, streams := l, rows := [] }
    sec := { s.sec with ksm := some k, ksmPend := none, prevEpoch := none, kepoch := 0, rekeyPend := false } }

/-- Acquisition ends (15 R335, R339): streams form no units, so pending amendments and a pending epoch take effect at once. -/
def netAcqEnd (s : State) : State :=
  let s := { s with net := { s.net with running := false, rows := [] } }
  (List.range 16).foldl unitBoundary s

/-! ### REC_SEND (15 R333; 18 R400) -/

/-- REC_SEND: the record is queued on a RECORD stream with RSEND = 1. -/
def recSendCmd (s : State) (n id : Nat) : State × Response :=
  let c := s.strCfg n
  if 15 < n then (s, plain .invalid)
  else if c.stype ≠ 5 ∨ c.rsend ≠ 1 then (s, plain .conflict)
  else match s.acq.find id with
    | none => (s, plain .invalid)
    | some _ => (s.modStream n fun x => { x with recs := x.recs ++ [id] }, plain .deferred)

/-! ### Meanings -/

/-- A port comes up. -/
def execLinkUp (port : Nat) (s : State) : Host.Outcome State Fault Refusal := s.done (portUp s port)

/-- An ARP frame is received. -/
def execArpFrame (port : Nat) (rx : RxMeta) (isReply : Bool) (senderIp senderMac targetIp : Nat) (s : State) :
    Host.Outcome State Fault Refusal := s.done (arpIn s port rx isReply senderIp senderMac targetIp)

/-- An ICMP echo request is received. -/
def execIcmpEcho (port : Nat) (rx : RxMeta) (srcMac srcIp dstIp : Nat) (payload : List Byte) (s : State) :
    Host.Outcome State Fault Refusal := s.done (icmpIn s port rx srcMac srcIp dstIp payload)

/-- A received frame is discarded. -/
def execRxFrameDiscard (port : Nat) (rx : RxMeta) (s : State) : Host.Outcome State Fault Refusal := s.done (rxDiscard s port rx)

/-- A DAS unit is formed. -/
def execDasUnitForm (stream : Nat) (s : State) : Host.Outcome State Fault Refusal := s.done (dasForm s stream)

/-- A byte-string unit is formed. -/
def execRowUnitForm (stream : Nat) (s : State) : Host.Outcome State Fault Refusal := s.done (rowForm s stream)

/-- An EVENT frame is formed. -/
def execEventFrameForm (stream : Nat) (s : State) : Host.Outcome State Fault Refusal := s.done (eventForm s stream)

/-- An HK batch is formed. -/
def execHkBatchForm (stream : Nat) (s : State) : Host.Outcome State Fault Refusal := s.done (hkForm s stream)

/-- REC_SEND. -/
def execRecSend (h : Hdr) (stream recId : Nat) (s : State) : Host.Outcome State Fault Refusal :=
  s.done (s.command1 h 0x0025 1 fun s _ => recSendCmd s stream recId)

end Sys2Proof.Machine
end

