-- ==== Sys2Proof/Machine/Image.lean ====
section
/-! DEFINITION. The configuration image: its format, its records, and the validation of an image or of an amended configuration
(19 R408 to R413), with the rules each step names. -/

namespace Sys2Proof.Machine

/-! ### Records (19 R409, R410) -/

/-- A record as it stands in an image or an amendment (19 R409). -/
structure RawRec where
  type : Nat
  inst : Nat
  flags : Nat
  body : List Byte
  deriving DecidableEq, Repr

/-- The given number of records, ending exactly at the end of the bytes (19 R409; R411 step 1). -/
def takeRecs : Nat → List Byte → Option (List RawRec)
  | 0, l => if l.isEmpty then some [] else none
  | n + 1, l =>
    let len := fieldAt l 4 4
    if l.length < 8 + len ∨ l.length < 8 + alignUp len 8 then none
    else (takeRecs n (l.drop (8 + alignUp len 8))).map fun rs =>
      { type := fieldAt l 0 2, inst := fieldAt l 2 1, flags := fieldAt l 3 1, body := slice l 8 len } :: rs

/-- Bytes of a record with its header and padding. -/
def RawRec.bytes (r : RawRec) : Nat := 8 + alignUp r.body.length 8

/-- The bytes before the SIGNATURE record: all of them when there is none (19 R408, R409). -/
def sigStart (rs : List RawRec) : Nat := 64 + ((rs.takeWhile fun r => r.type != 0xF0).map RawRec.bytes).sum

/-- The INST values of a record type (19 R410); none for an unknown type. -/
def instCount (type : Nat) : Option Nat :=
  match type with
  | 0x16 => some 3
  | 0x20 => some 16
  | 0x23 => some 4
  | 0x01 | 0xF0 => some 1
  | n => if 0x10 ≤ n ∧ n ≤ 0x28 then some 1 else none

/-- Signed word i of a body (19 R410). -/
def sword (b : List Byte) (i : Nat) : Int := toInt 32 (wordAt b (4 * i))

/-- PROBE body (19 R410). -/
def probeOf (b : List Byte) : ProbeRec :=
  let w (i : Nat) := wordAt b (4 * i)
  let n := if w 0 ≤ 7 then planS (w 0) else 0
  { plan := w 0, pitchLog2 := w 1, ng := w 2, ttr := w 3, p := w 4, nc := w 5, dir := w 6, taper := w 7, offset := sword b 8
    gateLead := w 9, gateTrail := w 10, dtsPos := w 11, dtsDelay := w 12, dtsWidth := w 13, launchOffset := w 14, lmonEn := w 15
    lmonRef := w 16, qInv := w 17, lotGiven := w 18
    amp := (List.range n).map fun k => fieldAt b (76 + 2 * k) 2
    lot := if w 18 = 1 then (List.range n).map fun k => fieldAt b (76 + 2 * n + k) 1 else [] }

/-- Body length of a PROBE record; none is fixed where PLAN or LOT_GIVEN is out of range. -/
def probeLenOk (b : List Byte) : Bool :=
  let plan := wordAt b 0
  let given := wordAt b 72
  decide (76 ≤ b.length) && (decide (7 < plan) || decide (1 < given) ||
    b.length == 76 + 2 * planS plan + (if given = 1 then planS plan else 0))

/-- STREAM body (19 R410). -/
def streamOf (b : List Byte) : StreamRec :=
  let w (i : Nat) := wordAt b (4 * i)
  let n := w 15
  { en := w 0, stype := w 1, auth := w 2, dstIp := w 3, dstUdp := w 4, dstMacLo := w 5, dstMacHi := w 6, dscp := w 7, pcp := w 8
    prio := w 9, home := w 10, qmode := w 11, rate := w 12, rsend := w 13, standbyTx := w 14
    ranges := (List.range (min n 4)).map fun i => (w (16 + 2 * i), w (17 + 2 * i))
    tlist := (List.range (min (w (16 + 2 * n)) 512)).map fun i => w (17 + 2 * n + i) }

/-- Body length of a STREAM record (19 R410). -/
def streamLenOk (b : List Byte) : Bool :=
  let n := wordAt b 60
  decide (68 ≤ b.length) && b.length == 4 * (17 + 2 * n + wordAt b (64 + 8 * n))

/-- A zone entry (12 R255). -/
def zoneOf (b : List Byte) : ZoneEntry :=
  let ctrl := fieldAt b 3 1
  let filt := fieldAt b 8 2
  let act := fieldAt b 10 2
  let band (i : Nat) : ZoneBand :=
    { filt := bits filt (4 * i + 3) (4 * i), en := bit act (4 * i), event := bit act (4 * i + 1), record := bit act (4 * i + 2)
      trigout := bit act (4 * i + 3), low := fieldAt b (16 + 4 * i) 2, high := fieldAt b (18 + 4 * i) 2 }
  { start := fieldAt b 0 3, en := bit ctrl 0, reduce := bit ctrl 1, reportRearm := bit ctrl 2, len := fieldAt b 4 3
    hyst := fieldAt b 7 1, persist := fieldAt b 12 1 % 16, tag := fieldAt b 14 2
    b0 := band 0, b1 := band 1, b2 := band 2, b3 := band 3 }

/-- The entries of a ZONES part, by zone (19 R410). -/
def zonesOf (b : List Byte) : List (Nat × ZoneEntry) :=
  (List.range (fieldAt b 2 2)).map fun i => (fieldAt b 0 2 + i, zoneOf (slice b (8 + 32 * i) 32))

/-- The entries of a BAND_FILTERS part, by filter (19 R410). -/
def filtersOf (b : List Byte) : List (Nat × List Int) :=
  (List.range (fieldAt b 1 1)).map fun i =>
    (fieldAt b 0 1 + i, (List.range 5).map fun c => toInt 32 (wordAt b (8 + 20 * i + 4 * c)))

/-- ACQUISITION body (13 R292). -/
def acqOf (b : List Byte) : AcqRec :=
  let w (i : Nat) := wordAt b (4 * i)
  let src (n start len : Nat) : SrcRec :=
    { en := w (5 + n), pre := w (8 + n), post := w (11 + n), extend := w (14 + n), holdMode := w (17 + n), hold := w (20 + n)
      recStart := start, recLen := len }
  { histGib := w 0, recStoreGib := w 1, rawcapGib := w 2, tof0 := w 3, fullMode := w 4, zone := src 0 0 0
    pad := src 1 (w 24) (w 26), cmd := src 2 (w 25) (w 27), zmargin := w 23 }

/-- HOUSEKEEPING body (19 R410). -/
def hkOf (b : List Byte) : HkRec :=
  let w (i : Nat) := wordAt b (4 * i)
  { mask := w 0, period := w 1, len := w 2
    cmps := (List.range 32).map fun c =>
      { ch := w (3 + 7 * c), en := w (4 + 7 * c), persist := w (5 + 7 * c), act := w (6 + 7 * c), hyst := w (7 + 7 * c)
        low := w (8 + 7 * c), high := w (9 + 7 * c) } }

/-- The settings with a record's body in place of what they hold; none where LEN is not valid for the type (19 R410, R411). OPTIONS
and SIGNATURE leave them unchanged. -/
def Conf.put (c : Conf) (r : RawRec) : Option Conf :=
  let b := r.body
  let w (i : Nat) := wordAt b (4 * i)
  let len (n : Nat) (c : Conf) : Option Conf := if b.length = n then some c else none
  match r.type with
  | 0x01 => len 8 c
  | 0x10 => if probeLenOk b then some { c with probe := probeOf b } else none
  | 0x11 => len 8 { c with laser := { emit := fieldAt b 0 1, autoResume := fieldAt b 1 1, ldAmpDelay := fieldAt b 2 2,
                                      ampSettle := fieldAt b 4 2 } }
  | 0x12 => len 24 { c with receiver := { mode := w 0, fixedRange := w 1, startRange := w 2, endEn := w 3, endThr := w 4,
                                          loMin := sword b 5 } }
  | 0x13 => len 4 { c with window := w 0 }
  | 0x14 => len 32 { c with phase := { gauge := w 0, ntrain := w 1, fadeShift := w 2, trackTau := w 3, quantity := w 4,
                                       rawLsb := w 5, ss := w 6, lambda := w 7 } }
  | 0x15 => len 28 { c with dec := { cicR := w 0, firDf := w 1, taps := w 2, bankInit := w 3, fillPct := w 4, syncSrc := w 5,
                                     xfadeLen := w 6 } }
  | 0x16 =>
    let f : FirRec := { loaded := true, gd := fieldAt b 0 2,
                        h := (List.range (fieldAt b 2 2)).map fun i => toInt 16 (fieldAt b (4 + 2 * i) 2) }
    len (4 + 2 * fieldAt b 2 2) (match r.inst with
      | 0 => { c with firA := f }
      | 1 => { c with firB := f }
      | _ => { c with firM := f })
  | 0x17 => len 28 { c with qs := { present := true, en := w 0, nSd := w 1, window := w 2, minq := w 3, chainEn := w 4,
                                    ct := sword b 5, ce := sword b 6 } }
  | 0x18 => len 60 { c with dts := { present := true, en := w 0, pDts := w 1, offset := w 2, gain := w 3, nAvgLog2 := w 4,
                                     darkStart := w 5, darkLen := w 6, coilStart := w 7, coilLen := w 8, coilRtd := w 9,
                                     gamma := w 10, dalpha := sword b 11, dalphaSrc := w 12, deEn := w 13, loopSpan := w 14 } }
  | 0x19 => len (8 + 32 * fieldAt b 2 2) { c with zones := smSetAll {} c.zones (zonesOf b) }
  | 0x1A => len (8 + 20 * fieldAt b 1 1) { c with filters := smSetAll [0, 0, 0, 0, 0] c.filters (filtersOf b) }
  | 0x1B => len 16 { c with zparams := { ziMs := w 0, guard := w 1, excl := w 2, trigoutW := w 3 } }
  | 0x1C => len 112 { c with acq := acqOf b }
  | 0x1D => len 44 { c with dram := { chmask := [w 0, w 1, w 2], bkmask := [w 3, w 4, w 5, w 6], srIdle := w 7, panicThr := w 8,
                                      panicClr := w 9, memAge := w 10 } }
  | 0x1E => len 116 { c with dramTiming := { order := fieldAt b 0 1, substrate := fieldAt b 1 1,
                                             delays := (List.range 8).map fun ch => (List.range 7).map fun i =>
                                               fieldAt b (4 + 14 * ch + 2 * i) 2 } }
  | 0x1F => len 52 { c with net := { path := w 0, modeA := w 1, modeB := w 2, mtu := w 3, ip := w 4, mask := w 5, gw := w 6,
                                     macLo := w 7, macHi := w 8, vlanEn := w 9, vid := w 10, mgmtUdp := w 11, srcUdp := w 12 } }
  | 0x20 => if streamLenOk b then some { c with streams := modAt c.streams r.inst fun _ => streamOf b } else none
  | 0x21 => len 32 { c with time := { refSel := w 0, timeSrc := w 1, ppsPol := w 2, tdc3Sel := w 3, presc := [w 4, w 5, w 6, w 7] } }
  | 0x22 => len 908 { c with hk := hkOf b }
  | 0x23 => len 12 { c with rtd := modAt c.rtd r.inst fun _ => { en := w 0, type := w 1, exc := w 2 } }
  | 0x24 => len 4 { c with sessionTimeout := w 0 }
  | 0x25 => len 8 { c with gpio := (List.range 8).map fun i => fieldAt b i 1 }
  | 0x26 => len 24 { c with power := { vwarn := w 0, autostart := w 1, surveyEn := w 2, surveyAcqS := w 3, surveyEnd := w 4,
                                       surveyDrainS := w 5 } }
  | 0x27 => len 16 { c with cascade := { role := w 0, rank := w 1, members := w 2, hopDly := w 3 } }
  | 0x28 => len 20 { c with pair := { present := true, arbMode := w 0, preferred := w 1, takeback := w 2, soakS := w 3,
                                      reseedS := w 4 } }
  | 0xF0 => len 136 c
  | _ => none

/-! ### Records as words, for the range checks and the fingerprint of a cascade (19 R410; 21 R455) -/

/-- The words of a PROBE body before A_k. -/
def ProbeRec.words (p : ProbeRec) : List Int :=
  [p.plan, p.pitchLog2, p.ng, p.ttr, p.p, p.nc, p.dir, p.taper, p.offset, p.gateLead, p.gateTrail, p.dtsPos, p.dtsDelay, p.dtsWidth,
   p.launchOffset, p.lmonEn, p.lmonRef, p.qInv, p.lotGiven]

/-- The words of a RECEIVER body. -/
def ReceiverRec.words (c : ReceiverRec) : List Int := [c.mode, c.fixedRange, c.startRange, c.endEn, c.endThr, c.loMin]

/-- The words of a PHASE body. -/
def PhaseRec.words (c : PhaseRec) : List Int :=
  [c.gauge, c.ntrain, c.fadeShift, c.trackTau, c.quantity, c.rawLsb, c.ss, c.lambda]

/-- The words of a DECIMATION body. -/
def DecRec.words (c : DecRec) : List Int := [c.cicR, c.firDf, c.taps, c.bankInit, c.fillPct, c.syncSrc, c.xfadeLen]

/-- The words of a QS body. -/
def QsRec.words (c : QsRec) : List Int := [c.en, c.nSd, c.window, c.minq, c.chainEn, c.ct, c.ce]

/-- The words of a DTS body. -/
def DtsRec.words (c : DtsRec) : List Int :=
  [c.en, c.pDts, c.offset, c.gain, c.nAvgLog2, c.darkStart, c.darkLen, c.coilStart, c.coilLen, c.coilRtd, c.gamma, c.dalpha,
   c.dalphaSrc, c.deEn, c.loopSpan]

/-- The words of a ZONE_PARAMS body. -/
def ZoneParams.words (c : ZoneParams) : List Int := [c.ziMs, c.guard, c.excl, c.trigoutW]

/-- The sources in the order of R274. -/
def AcqRec.srcs (c : AcqRec) : List SrcRec := [c.zone, c.pad, c.cmd]

/-- The words of an ACQUISITION body (13 R292). -/
def AcqRec.words (c : AcqRec) : List Int :=
  [(c.histGib : Int), c.recStoreGib, c.rawcapGib, c.tof0, c.fullMode] ++
  (c.srcs.map fun x => (x.en : Int)) ++ (c.srcs.map fun x => (x.pre : Int)) ++ (c.srcs.map fun x => (x.post : Int)) ++
  (c.srcs.map fun x => (x.extend : Int)) ++ (c.srcs.map fun x => (x.holdMode : Int)) ++ (c.srcs.map fun x => (x.hold : Int)) ++
  [(c.zmargin : Int), c.pad.recStart, c.cmd.recStart, c.pad.recLen, c.cmd.recLen]

/-- The words of a DRAM body. -/
def DramRec.words (c : DramRec) : List Int :=
  (c.chmask.map fun (n : Nat) => (n : Int)) ++ (c.bkmask.map fun (n : Nat) => (n : Int)) ++
  [(c.srIdle : Int), c.panicThr, c.panicClr, c.memAge]

/-- The words of a NETWORK body. -/
def NetRec.words (c : NetRec) : List Int :=
  [c.path, c.modeA, c.modeB, c.mtu, c.ip, c.mask, c.gw, c.macLo, c.macHi, c.vlanEn, c.vid, c.mgmtUdp, c.srcUdp]

/-- The words of a STREAM body before NRANGE. -/
def StreamRec.words (c : StreamRec) : List Int :=
  [c.en, c.stype, c.auth, c.dstIp, c.dstUdp, c.dstMacLo, c.dstMacHi, c.dscp, c.pcp, c.prio, c.home, c.qmode, c.rate, c.rsend,
   c.standbyTx]

/-- The words of a TIME body. -/
def TimeRec.words (c : TimeRec) : List Int :=
  [(c.refSel : Int), c.timeSrc, c.ppsPol, c.tdc3Sel] ++ c.presc.map fun (n : Nat) => (n : Int)

/-- The words of a HOUSEKEEPING body. -/
def HkRec.words (c : HkRec) : List Int :=
  [(c.mask : Int), c.period, c.len] ++ c.cmps.flatMap fun (x : CmpCfg) => [(x.ch : Int), x.en, x.persist, x.act, x.hyst, x.low, x.high]

/-- The words of a POWER body. -/
def PowerRec.words (c : PowerRec) : List Int := [c.vwarn, c.autostart, c.surveyEn, c.surveyAcqS, c.surveyEnd, c.surveyDrainS]

/-- The words of a CASCADE body. -/
def CascadeRec.words (c : CascadeRec) : List Int := [c.role, c.rank, c.members, c.hopDly]

/-- The words of a PAIR body. -/
def PairRec.words (c : PairRec) : List Int := [c.arbMode, c.preferred, c.takeback, c.soakS, c.reseedS]

/-- Words as little-endian bytes (00 R10). -/
def wordBytes (l : List Int) : List Byte := l.flatMap fun x => leBytes 4 (ofInt 32 x)

/-! ### Checks (19 R411, R412) -/

/-- One check: whether it holds, and the rejection it gives. -/
structure Chk where
  ok : Bool
  rej : Rej
  deriving DecidableEq, Repr

/-- The rejection of the first check that fails. -/
def firstRej (l : List Chk) : Option Rej := (l.find? fun c => !c.ok).map Chk.rej

/-- A rejection of which the spec gives no TYPE, INST and offset: they are free (log 6). -/
def rejFree (step n : Nat) : Rej :=
  { step := step, type := Config.rejField (3 * (100 * step + n)) % 65536, inst := Config.rejField (3 * (100 * step + n) + 1) % 256
    ofs := Config.rejField (3 * (100 * step + n) + 2) % 2 ^ 32 }

/-- A rejection of a record as a whole: its offset is free. -/
def rejRec (step type inst : Nat) : Rej := { rejFree step 0 with type := type, inst := inst }

/-- A value in a range. -/
def inRange (v : Int) (r : Int × Int) : Bool := decide (r.1 ≤ v ∧ v ≤ r.2)

/-- Range checks of consecutive words from offset o on (step 5). -/
def wordChks (type inst o : Nat) (vs : List Int) (rs : List (Int × Int)) : List Chk :=
  ((vs.zip rs).zipIdx).map fun e => { ok := inRange e.1.1 e.1.2, rej := { step := 5, type := type, inst := inst, ofs := o + 4 * e.2 } }

/-- Any 32-bit word. -/
def anyWord : Int × Int := (-2147483648, 4294967295)

/-- What the validation reads of the module besides the settings. -/
structure VCtx where
  /-- ORDER, 0 KT7-128-E, 1 KT7-064-E. -/
  order : Nat
  lifecycle : Nat
  substrate : Nat
  serial : Nat
  fw : Nat
  keys : List (Option (List Byte))
  revoked : List Bool
  deriving DecidableEq, Repr

/-- The module's own. -/
def State.vctx (s : State) : VCtx :=
  { order := s.fuses.order, lifecycle := s.fuses.lifecycle, substrate := s.fact.substrateRev, serial := s.fact.serial
    fw := s.fact.fwVersion, keys := s.fuses.keys, revoked := s.fuses.revoked }

/-! ### Step 5: ranges -/

/-- PROBE (02 R30 to R48; 05 R107). -/
def probeRanges (p : ProbeRec) : List Chk :=
  wordChks 0x10 0 0 p.words [(0, 7), (0, 7), (14000, 15000), (16384, 4194304), (1024, 131072), (400, 200000), (0, 3), (0, 5),
    (-12500, 12500), (0, 1023), (0, 1023), anyWord, anyWord, (16, 400), (0, 1048575), (0, 1), anyWord, (0, 1), (0, 1)] ++
  p.amp.zipIdx.map fun e => { ok := inRange e.1 (32, 511), rej := ⟨5, 0x10, 0, 76 + 2 * e.2⟩ }

/-- LASER (02 R51 to R55). -/
def laserRanges (c : LaserRec) : List Chk :=
  [⟨inRange c.emit (0, 1), ⟨5, 0x11, 0, 0⟩⟩, ⟨inRange c.autoResume (0, 1), ⟨5, 0x11, 0, 1⟩⟩,
   ⟨inRange c.ldAmpDelay (10, 10000), ⟨5, 0x11, 0, 2⟩⟩, ⟨inRange c.ampSettle (1, 1000), ⟨5, 0x11, 0, 4⟩⟩]

/-- N is a power of two. -/
def isPow2 (n : Nat) : Bool := n != 0 && 2 ^ Nat.log2 n == n

/-- PHASE (08 R188). -/
def phaseRanges (c : PhaseRec) : List Chk :=
  wordChks 0x14 0 0 c.words [(1, 200), (16, 4096), (1, 10), (100, 600000), (0, 1), (1, 4294967295), (0, 31), (1530000, 1565000)] ++
  [⟨isPow2 c.ntrain, ⟨5, 0x14, 0, 4⟩⟩]

/-- FIR (09 R201). -/
def firRanges (inst : Nat) (f : FirRec) : List Chk :=
  if f.loaded then
    [⟨decide (1 ≤ f.h.length ∧ f.h.length ≤ 128), ⟨5, 0x16, inst, 2⟩⟩, ⟨decide (f.gd ≤ 256 * (f.h.length - 1)), ⟨5, 0x16, inst, 0⟩⟩]
  else []

/-- QS (10 R236). -/
def qsRanges (c : QsRec) : List Chk :=
  if !c.present then [] else
  wordChks 0x17 0 0 c.words [(0, 1), (1, 256), (1000, 600000), (0, 255), (0, 1), (-10000000, 10000000), (-10000000, 10000000)] ++
  [⟨c.ct != 0, ⟨5, 0x17, 0, 20⟩⟩, ⟨c.ce != 0, ⟨5, 0x17, 0, 24⟩⟩]

/-- DTS (11 R253). -/
def dtsRanges (c : DtsRec) : List Chk :=
  if !c.present then [] else
  wordChks 0x18 0 0 c.words [(0, 1), anyWord, (0, 1048575), (0, 1), (10, 22), anyWord, (64, 4096), anyWord, (16, 16384), (0, 3),
    (30000, 90000), (-10000, 10000), (0, 1), (0, 1), (1, 524286)]

/-- The enabled zones (12 R256). -/
def Conf.zonesOn (c : Conf) : List (Nat × ZoneEntry) := c.zones.filter fun (e : Nat × ZoneEntry) => e.2.en

/-- The bands of a zone by number. -/
def ZoneEntry.bands (z : ZoneEntry) : List (Nat × ZoneBand) := [(0, z.b0), (1, z.b1), (2, z.b2), (3, z.b3)]

/-- The enabled bands of a zone, B_z of them (12 R257). -/
def ZoneEntry.bandsOn (z : ZoneEntry) : List (Nat × ZoneBand) := z.bands.filter fun (e : Nat × ZoneBand) => e.2.en

/-- The enabled zones' fields (12 R255); FIRST and COUNT are checked on the parts themselves. -/
def zoneRanges (c : Conf) : List Chk :=
  c.zonesOn.flatMap fun (e : Nat × ZoneEntry) =>
    [⟨inRange e.2.start (0, 131071), ⟨5, 0x19, 0, 8 + 32 * e.1⟩⟩, ⟨inRange e.2.len (1, 131072), ⟨5, 0x19, 0, 12 + 32 * e.1⟩⟩,
     ⟨inRange e.2.persist (1, 15), ⟨5, 0x19, 0, 20 + 32 * e.1⟩⟩]

/-- ACQUISITION (13 R292, with the KT7-128-E limits of R271, R284, R288). -/
def acqRanges (c : AcqRec) : List Chk :=
  wordChks 0x1C 0 0 c.words ([(1, 24), (1, 26), (0, 8), (0, 524287), (0, 1)] ++ List.replicate 3 (0, 1) ++
    List.replicate 3 (0, 1048575) ++ List.replicate 3 (1, 1048576) ++ List.replicate 3 (0, 1) ++ List.replicate 3 (0, 2) ++
    List.replicate 3 anyWord ++ [(0, 65535)]) ++
  c.srcs.zipIdx.flatMap fun (e : SrcRec × Nat) =>
    [⟨decide (e.1.pre + e.1.post ≤ 1048576), ⟨5, 0x1C, 0, 44 + 4 * e.2⟩⟩,
     ⟨match e.1.holdMode with
      | 0 => true
      | 1 => decide (e.1.hold ≤ 600000)
      | _ => decide (1 ≤ e.1.hold ∧ e.1.hold ≤ 65535), ⟨5, 0x1C, 0, 80 + 4 * e.2⟩⟩]

/-- DRAM (14 R305, R314). -/
def dramRanges (c : DramRec) : List Chk :=
  [⟨decide (c.srIdle = 0 ∨ 10 ≤ c.srIdle ∧ c.srIdle ≤ 100000), ⟨5, 0x1D, 0, 28⟩⟩, ⟨inRange c.panicThr (50, 95), ⟨5, 0x1D, 0, 32⟩⟩,
   ⟨decide (10 ≤ c.panicClr ∧ c.panicClr + 10 ≤ c.panicThr), ⟨5, 0x1D, 0, 36⟩⟩, ⟨inRange c.memAge (5, 1000), ⟨5, 0x1D, 0, 40⟩⟩]

/-- DRAM_TIMING (14 R300). -/
def timingRanges (c : DramTiming) : List Chk :=
  c.delays.zipIdx.flatMap fun (e : List Nat × Nat) => e.1.zipIdx.map fun (d : Nat × Nat) =>
    { ok := if d.2 = 6 then inRange d.1 (16, 127) else inRange d.1 (0, 1023), rej := ⟨5, 0x1E, 0, 4 + 14 * e.2 + 2 * d.2⟩ }

/-- NETWORK (15 R316 to R325, R340). -/
def netRanges (c : NetRec) : List Chk :=
  wordChks 0x1F 0 0 c.words [(0, 1), (0, 3), (0, 3), (1500, 9000), anyWord, anyWord, anyWord, anyWord, (0, 65535), (0, 1),
    if c.vlanEn = 1 then (1, 4094) else (0, 4094), (0, 65535), (0, 65535)]

/-- STREAM (15 R326 to R336); NRANGE and NTLIST are checked on the body. -/
def streamRanges (inst : Nat) (c : StreamRec) : List Chk :=
  wordChks 0x20 inst 0 c.words [(0, 1), (1, 8), (0, 2), anyWord, (0, 65535), anyWord, (0, 65535), (0, 63), (0, 7), (0, 15), (0, 1),
    (0, 1), if c.stype = 5 ∨ c.stype = 7 then (100, 23000) else anyWord, (0, 1), (0, 1)]

/-- HOUSEKEEPING (17 R363, R366, R372). -/
def hkRanges (c : HkRec) : List Chk :=
  wordChks 0x22 0 0 c.words ([anyWord, (0, 1000), (256, 65536)] ++
    (List.range 32).flatMap fun _ => [(0, 31), (0, 1), (1, 15), (0, 7), (0, 4095), (0, 4095), (0, 4095)]) ++
  [⟨c.len % 256 == 0, ⟨5, 0x22, 0, 8⟩⟩]

/-- CASCADE (21 R453). -/
def cascadeRanges (c : CascadeRec) : List Chk :=
  wordChks 0x27 0 0 c.words [(1, 3), (0, 15), if c.role = 1 then (2, 16) else (2, 2), (0, 1000000)]

/-- PAIR (21 R476). -/
def pairRanges (c : PairRec) : List Chk :=
  wordChks 0x28 0 0 c.words [(0, 1), (0, 1), (0, 1), (60, 86400), (0, 86400)] ++
  [⟨decide (c.reseedS = 0 ∨ 60 ≤ c.reseedS), ⟨5, 0x28, 0, 16⟩⟩]

/-- The range checks of one record as it stands in `c`, with those of the body itself: FIRST, COUNT, NRANGE, NTLIST, OVERLAY
(19 R406, R410 to R412). -/
def recRanges (c : Conf) (r : RawRec) : List Chk :=
  match r.type with
  | 0x01 => [⟨decide (fieldAt r.body 1 1 ≤ 3), ⟨5, 0x01, 0, 1⟩⟩]
  | 0x10 => probeRanges c.probe
  | 0x11 => laserRanges c.laser
  | 0x12 => wordChks 0x12 0 0 c.receiver.words [(0, 1), (0, 3), (0, 3), (0, 1), (3, 20), (-1000, 1300)]
  | 0x13 => [⟨decide (c.window ≤ 3), ⟨5, 0x13, 0, 0⟩⟩]
  | 0x14 => phaseRanges c.phase
  | 0x15 => wordChks 0x15 0 0 c.dec.words [(1, 512), (1, 16), (1, 128), (0, 2), (1, 100), (0, 3), (16, 4096)]
  | 0x16 => firRanges r.inst (match r.inst with | 0 => c.firA | 1 => c.firB | _ => c.firM)
  | 0x17 => qsRanges c.qs
  | 0x18 => dtsRanges c.dts
  | 0x19 =>
    [⟨decide (fieldAt r.body 0 2 < 4096), ⟨5, 0x19, 0, 0⟩⟩, ⟨decide (fieldAt r.body 0 2 + fieldAt r.body 2 2 ≤ 4096), ⟨5, 0x19, 0, 2⟩⟩] ++
    zoneRanges c
  | 0x1A =>
    [⟨decide (fieldAt r.body 0 1 < 16), ⟨5, 0x1A, 0, 0⟩⟩, ⟨decide (fieldAt r.body 0 1 + fieldAt r.body 1 1 ≤ 16), ⟨5, 0x1A, 0, 1⟩⟩]
  | 0x1B => wordChks 0x1B 0 0 c.zparams.words [(5, 1000), (0, 65535), (0, 65535), (1, 10000)]
  | 0x1C => acqRanges c.acq
  | 0x1D => dramRanges c.dram
  | 0x1E => timingRanges c.dramTiming
  | 0x1F => netRanges c.net
  | 0x20 =>
    streamRanges r.inst (nth c.streams r.inst {}) ++
    [⟨decide (wordAt r.body 60 ≤ 4), ⟨5, 0x20, r.inst, 60⟩⟩,
     ⟨decide (wordAt r.body (64 + 8 * wordAt r.body 60) ≤ 512), ⟨5, 0x20, r.inst, 64 + 8 * wordAt r.body 60⟩⟩]
  | 0x21 => wordChks 0x21 0 0 c.time.words [(0, 2), (0, 2), (0, 1), (0, 1), (0, 3), (0, 3), (0, 3), (0, 3)]
  | 0x22 => hkRanges c.hk
  | 0x23 =>
    let x := nth c.rtd r.inst {}
    wordChks 0x23 r.inst 0 [x.en, x.type, x.exc] [(0, 1), (0, 1), (0, 3)]
  | 0x24 => [⟨inRange c.sessionTimeout (10, 3600), ⟨5, 0x24, 0, 0⟩⟩]
  | 0x25 => c.gpio.zipIdx.map fun (e : Nat × Nat) => { ok := inRange e.1 (0, 3), rej := ⟨5, 0x25, 0, e.2⟩ }
  | 0x26 => wordChks 0x26 0 0 c.power.words [(900, 1200), (0, 1), (0, 1), (1, 86400), (0, 1), (0, 3600)]
  | 0x27 => cascadeRanges c.cascade
  | 0x28 => pairRanges c.pair
  | _ => []

/-! ### Step 6: consistency -/

/-- N_i as R163 forms it: the smallest power of two with N_i·pitch ≥ 1,024·pitch + N_c + 9·M, up to 2^19. -/
def transformLen (p : ProbeRec) : Nat :=
  ((List.range 20).map (2 ^ ·)).find? (fun n => decide (1024 * p.pitch + p.nc + 9 * (pathOf p.plan).m ≤ n * p.pitch)) |>.getD (2 ^ 19)

/-- GATE_DTS keeps 32 ticks from every GATE interval (02 R49). GATE falls at the last launch before DTS_POS at least 32 ticks ahead of
GATE_DTS (R47), and GATE_DTS ends before the third launch after it. -/
def gateClear (p : ProbeRec) : Bool :=
  (List.range 4).all fun i =>
    let a : Int := (i * p.interval : Nat) - (p.gateLead : Int)
    let b : Int := (i * p.interval + p.nc + p.gateTrail : Nat)
    decide ((p.dtsDelay + p.dtsWidth + 32 : Nat) ≤ a ∨ b + 32 ≤ p.dtsDelay)

/-- A list is a permutation of 0 … n−1. -/
def isPerm (l : List Nat) (n : Nat) : Bool := l.length == n && (List.range n).all fun k => l.contains k

/-- The Raman channel is enabled. -/
def Conf.dtsOn (c : Conf) : Bool := c.dts.present && c.dts.en == 1

/-- The PROBE record and what hangs on it (02 R30 to R49; 05 R107; 07 R163; 08 R185). -/
def probeChks (c : Conf) : List Chk :=
  let p := c.probe
  let l := p.interval
  let k (ok : Bool) (word : Nat) : Chk := ⟨ok, ⟨6, 0x10, 0, 4 * word⟩⟩
  [k (decide (5 - p.plan ≤ p.pitchLog2 ∧ p.pitchLog2 + p.plan ≤ 7)) 1, k (p.dir != 3) 6, k (decide (p.nc + 64 ≤ l)) 5,
   k (decide (4 * taperTicks p.taper ≤ p.nc)) 7, k (p.ttr % planS p.plan == 0 && decide (256 ≤ l)) 3,
   ⟨p.lotGiven != 1 || isPerm p.lot (planS p.plan), ⟨6, 0x10, 0, 76 + 2 * planS p.plan⟩⟩, k (decide (p.p * p.pitch ≤ p.ttr)) 4,
   k (decide (p.gateLead + p.nc + p.gateTrail + 32 ≤ l)) 10, k (decide (p.dtsPos < planS p.plan)) 11, k (decide (p.dtsDelay < l)) 12,
   k (!c.dtsOn || gateClear p) 12, k (p.p % 1024 == 0) 4, k (decide (transformLen p ≤ 16384)) 5,
   ⟨c.phase.quantity != 0 || scaleOk c.phase p, ⟨6, 0x14, 0, 20⟩⟩]

/-- FIR banks (09 R199, R201). -/
def firChks (c : Conf) : List Chk :=
  ⟨decide (c.dec.taps ≤ 16 * c.dec.cicR * c.dec.firDf), ⟨6, 0x15, 0, 8⟩⟩ ::
  [c.firA, c.firB, c.firM].zipIdx.map fun (e : FirRec × Nat) => ⟨!e.1.loaded || e.1.h.length == c.dec.taps, ⟨6, 0x16, e.2, 2⟩⟩

/-- The Raman channel (11 R241). -/
def dtsChks (c : Conf) : List Chk :=
  let d := c.dts
  if !c.dtsOn then [] else
  [⟨c.probe.ttr % 16 == 0, ⟨6, 0x10, 0, 12⟩⟩,
   ⟨d.pDts % 256 == 0 && decide (1024 ≤ d.pDts ∧ d.pDts ≤ 262144 ∧ 16 * d.pDts ≤ c.probe.ttr), ⟨6, 0x18, 0, 4⟩⟩,
   ⟨decide (d.darkStart + d.darkLen ≤ d.pDts), ⟨6, 0x18, 0, 24⟩⟩,
   ⟨decide (d.coilStart + d.coilLen ≤ d.pDts) &&
     decide (d.darkStart + d.darkLen ≤ d.coilStart ∨ d.coilStart + d.coilLen ≤ d.darkStart), ⟨6, 0x18, 0, 32⟩⟩]

/-- Some zone band exists (12 R257). -/
def Conf.anyBand (c : Conf) : Bool := c.zonesOn.any fun (e : Nat × ZoneEntry) => !e.2.bandsOn.isEmpty

/-- Zones (12 R256, R260). -/
def zoneChks (c : Conf) : List Chk :=
  (c.zonesOn.flatMap fun (e : Nat × ZoneEntry) =>
    (⟨decide (e.2.start + e.2.len ≤ c.probe.p), ⟨6, 0x19, 0, 12 + 32 * e.1⟩⟩ : Chk) ::
    e.2.bandsOn.map fun (b : Nat × ZoneBand) =>
      (⟨decide (b.2.low + 32 * e.2.hyst ≤ b.2.high), ⟨6, 0x19, 0, 8 + 32 * e.1 + 18 + 4 * b.1⟩⟩ : Chk)) ++
  [⟨!c.anyBand || decide (1 ≤ nZi c.zparams.ziMs c.probe c.dec), ⟨6, 0x1B, 0, 0⟩⟩]

/-- D_h (13 R271). -/
def ringDepthOf (c : Conf) : Nat := c.acq.histGib * 2 ^ 30 / (c.probe.nblocks * 4128)

/-- Trigger sources (13 R280). -/
def acqChks (c : Conf) : List Chk :=
  (c.acq.srcs.zipIdx.map fun (e : SrcRec × Nat) => (⟨decide (e.1.pre ≤ ringDepthOf c / 2), ⟨6, 0x1C, 0, 32 + 4 * e.2⟩⟩ : Chk)) ++
  [⟨decide (c.acq.pad.recStart + c.acq.pad.recLen ≤ c.probe.p), ⟨6, 0x1C, 0, 104⟩⟩,
   ⟨decide (c.acq.cmd.recStart + c.acq.cmd.recLen ≤ c.probe.p), ⟨6, 0x1C, 0, 108⟩⟩]

/-- Bank hashing masks and the timing record (14 R297, R300). -/
def dramChks (x : VCtx) (c : Conf) : List Chk :=
  ((c.dram.chmask ++ c.dram.bkmask).zipIdx.map fun (e : Nat × Nat) =>
    (⟨e.1 % 128 == 2 ^ e.2 && (x.order == 0 || !bit e.1 23), ⟨6, 0x1D, 0, 4 * e.2⟩⟩ : Chk)) ++
  [⟨c.dramTiming.order == x.order, ⟨6, 0x1E, 0, 0⟩⟩, ⟨c.dramTiming.substrate == x.substrate, ⟨6, 0x1E, 0, 1⟩⟩]

/-- Streams (15 R327, R330, R332). -/
def streamChks (x : VCtx) (c : Conf) : List Chk :=
  c.streams.zipIdx.flatMap fun (e : StreamRec × Nat) =>
    let raw (y : StreamRec) : Bool := y.en == 1 && y.stype == 7
    [⟨!raw e.1 || !((c.streams.take e.2).any raw), ⟨6, 0x20, e.2, 0⟩⟩,
     ⟨e.1.stype == 0 || e.1.auth != 0 || x.lifecycle == 0, ⟨6, 0x20, e.2, 8⟩⟩] ++
    if e.1.stype = 1 then e.1.ranges.zipIdx.map fun (r : (Nat × Nat) × Nat) =>
      (⟨decide (1 ≤ r.1.2 ∧ r.1.1 + r.1.2 ≤ c.probe.p), ⟨6, 0x20, e.2, 64 + 8 * r.2⟩⟩ : Chk)
    else []

/-- Channels of the effective mask (17 R363). -/
def maskCount (mask : Nat) : Nat := ((List.range 32).filter fun i => i == 16 || bit mask i).length

/-- Housekeeping (17 R363, R372). -/
def hkChks (c : HkRec) : List Chk :=
  ⟨c.period == 0 || decide (maskCount c.mask ≤ c.period), ⟨6, 0x22, 0, 4⟩⟩ ::
  c.cmps.zipIdx.map fun (e : CmpCfg × Nat) =>
    ⟨e.1.en != 1 || decide (e.1.low + 2 * e.1.hyst ≤ e.1.high), ⟨6, 0x22, 0, 12 + 28 * e.2 + 24⟩⟩

/-- Cascade (21 R454). -/
def cascadeChks (c : Conf) : List Chk :=
  let k := c.cascade
  if k.role = 0 then [] else
  [⟨c.time.refSel == 1 || c.time.refSel == 2, ⟨6, 0x21, 0, 0⟩⟩,
   ⟨if k.rank = 0 then decide (c.time.timeSrc ≤ 1) else c.time.timeSrc == 2, ⟨6, 0x21, 0, 4⟩⟩,
   ⟨c.time.tdc3Sel == 1, ⟨6, 0x21, 0, 12⟩⟩, ⟨c.dec.syncSrc == 1 || c.dec.syncSrc == 3, ⟨6, 0x15, 0, 20⟩⟩,
   ⟨k.role != 3 || c.probe.lmonEn == 1, ⟨6, 0x10, 0, 60⟩⟩, ⟨k.role != 3 || c.pair.present, ⟨6, 0x27, 0, 0⟩⟩]

/-- Step 6 (19 R411). -/
def consistency (x : VCtx) (c : Conf) : List Chk :=
  probeChks c ++ firChks c ++ [⟨!c.qs.present || decide (nWin c.qs c.probe ≤ 2 ^ 24), ⟨6, 0x17, 0, 8⟩⟩] ++ dtsChks c ++ zoneChks c ++
  acqChks c ++ dramChks x c ++ streamChks x c ++ hkChks c.hk ++ cascadeChks c

/-! ### Steps 7 to 9 -/

/-- Resource claims (19 R413). -/
def claims (c : Conf) : List Chk :=
  [⟨!c.dtsOn || (nth c.rtd c.dts.coilRtd {}).en == 1, ⟨7, 0x18, 0, 36⟩⟩,
   ⟨decide ((c.gpio.filter fun (n : Nat) => n == 3).length ≤ 1), ⟨7, 0x25, 0, ((c.gpio.zipIdx.filter fun (e : Nat × Nat) => e.1 == 3).map
     Prod.snd).getLastD 0⟩⟩,
   ⟨c.cascade.role == 0 || !c.pair.present || c.cascade.role == 3, ⟨7, 0x27, 0, 0⟩⟩,
   ⟨(c.cascade.role == 0 && !c.pair.present) || c.time.tdc3Sel == 1, ⟨7, 0x21, 0, 12⟩⟩,
   ⟨c.cascade.role == 0 || c.dec.syncSrc == 1 || c.dec.syncSrc == 3, ⟨7, 0x15, 0, 20⟩⟩,
   ⟨!(c.streams.any fun (y : StreamRec) => y.en == 1 && y.stype == 7) || c.acq.rawcapGib != 0, ⟨7, 0x1C, 0, 8⟩⟩]

/-- The limits of the ordering code, in increasing TYPE (00 R3). -/
def orderChks (x : VCtx) (c : Conf) : List Chk :=
  if x.order = 0 then [] else
  [⟨c.probe.plan != 0, ⟨7, 0x10, 0, 0⟩⟩, ⟨decide (c.acq.histGib ≤ 10), ⟨7, 0x1C, 0, 0⟩⟩, ⟨decide (c.acq.recStoreGib ≤ 12), ⟨7, 0x1C, 0, 4⟩⟩,
   ⟨decide (c.acq.rawcapGib ≤ 4), ⟨7, 0x1C, 0, 8⟩⟩]

/-- Σ LEN·B_z over the enabled zones (12 R257). -/
def Conf.zoneEntries (c : Conf) : Nat := (c.zonesOn.map fun (e : Nat × ZoneEntry) => e.2.len * e.2.bandsOn.length).sum

/-- Rate limits (01 R22, R25; 12 R257). -/
def rateChks (c : Conf) : List Chk :=
  let p := c.probe
  let (a, b) := fOut p c.dec
  [⟨decide (p.p * p.slots * 4 ≤ 16 * p.ttr), ⟨8, 0x10, 0, 16⟩⟩, ⟨!c.anyBand || decide (a ≤ 50000 * b), ⟨8, 0x15, 0, 0⟩⟩,
   ⟨!c.anyBand || decide (c.zoneEntries * a ≤ 2000000000 * b), { rejFree 8 1 with type := 0x19, inst := 0 }⟩]

/-- Usable DRAM in bytes (14 R295). -/
def usableBytes (order : Nat) : Nat := (if order = 0 then 28 else 14) * 2 ^ 30

/-- The streams of a configuration on which R337 fails: dual path with a port off, or a sum or a home port that does not fit. -/
def netOk (c : Conf) : Bool := c.budgetsOk && (c.net.path != 0 || (c.net.modeA != 0 && c.net.modeB != 0))

/-- Budgets (01 R24; 12 R257; 14 R299; 15 R337). -/
def budgetChks (x : VCtx) (c : Conf) : List Chk :=
  let p := c.probe
  let dts := if c.dtsOn then 16 * c.dts.pDts else 0
  [⟨decide (p.p * (2 * p.slots + 2 * c.dec.taps + 80) + dts ≤ 67108864), ⟨9, 0x15, 0, 8⟩⟩,
   ⟨!c.anyBand || decide (c.zoneEntries ≤ 524288), { rejFree 9 1 with type := 0x19, inst := 0 }⟩,
   ⟨decide (512 * 2 ^ 20 + ((regionsOf x.order c).map Prod.snd).sum ≤ usableBytes x.order), ⟨9, 0x1C, 0, 4⟩⟩,
   ⟨netOk c, { rejFree 9 2 with type := 0x20 }⟩]

/-- Steps 6 to 9 in order; in an amendment the claims are refused with CONFLICT, the rest with INVALID (19 R411). -/
def laterSteps (x : VCtx) (c : Conf) : Option Rej :=
  match firstRej (consistency x c) with
  | some r => some r
  | none => firstRej (claims c ++ orderChks x c ++ rateChks c ++ budgetChks x c)

/-- The claims of step 7 hold. -/
def claimsOk (c : Conf) : Bool := (claims c).all Chk.ok

/-! ### A whole image (19 R408 to R411) -/

/-- The header fields the module reads (19 R408). -/
structure ImgHead where
  version : Nat
  minFw : Nat
  serialBind : Nat
  orderBind : Nat
  recs : List RawRec
  deriving DecidableEq, Repr

/-- Step 1 (19 R408, R411): MAGIC, VER, LENGTH, NREC records ending exactly at LENGTH, CRC. The slot may hold further bytes. -/
def imgHead (img : List Byte) : Option ImgHead :=
  let len := fieldAt img 8 4
  if slice img 0 4 ≠ ascii "KT7I" ∨ fieldAt img 4 1 ≠ 1 ∨ 16 * 2 ^ 20 < len ∨ len < 64 ∨ img.length < len then none
  else
    let l := img.take len
    match takeRecs (fieldAt l 6 2) (l.drop 64) with
    | none => none
    | some rs =>
      let covered := l.take (sigStart rs)
      if crc32 (covered.take 12 ++ zeros 4 ++ covered.drop 16) ≠ fieldAt l 12 4 then none
      else some { version := fieldAt l 16 4, minFw := fieldAt l 20 4, serialBind := fieldAt l 24 8, orderBind := fieldAt l 32 1, recs := rs }

/-- Step 2 (19 R408). -/
def bindingOk (x : VCtx) (h : ImgHead) : Bool :=
  (h.serialBind == 0 || h.serialBind == x.serial) && (h.orderBind == 0xFF || h.orderBind == x.order) && decide (h.minFw ≤ x.fw)

/-- Step 3 (18 R381, R387): the slot is fused and not revoked, the public key has the fused hash, the signature verifies; an image
without a SIGNATURE record only in OPEN and PROVISIONED, and no image in SCRAPPED. -/
def signatureChks (x : VCtx) (img : List Byte) (h : ImgHead) : List Chk :=
  ⟨x.lifecycle != 3, rejFree 3 0⟩ ::
  match h.recs.find? fun r => r.type == 0xF0 with
  | none => [⟨decide (x.lifecycle < 2), rejFree 3 1⟩]
  | some r =>
    let slot := fieldAt r.body 0 1
    let pub := slice r.body 4 65
    let key := (nth x.keys slot none)
    [⟨key.isSome && !nth x.revoked slot false, ⟨3, 0xF0, 0, 0⟩⟩, ⟨key == some (sha256 pub), ⟨3, 0xF0, 0, 4⟩⟩,
     ⟨ecdsaOk pub (sha256 (img.take (sigStart h.recs))) (slice r.body 72 64), ⟨3, 0xF0, 0, 72⟩⟩]

/-- The record types an image must hold (19 R410). -/
def requiredTypes : List Nat := [0x10, 0x11, 0x14, 0x15, 0x1C, 0x1E, 0x1F, 0x21]

/-- Two parts name an entry in common. -/
def partsOverlap (a b : RawRec) : Bool :=
  let range (r : RawRec) : Nat × Nat :=
    if r.type = 0x19 then (fieldAt r.body 0 2, fieldAt r.body 2 2) else (fieldAt r.body 0 1, fieldAt r.body 1 1)
  let x := range a
  let y := range b
  decide (x.1 < y.1 + y.2 ∧ y.1 < x.1 + x.2)

/-- A record repeats an earlier one: the same TYPE and INST, but for ZONES and BAND_FILTERS parts that do not overlap (19 R411). -/
def repeats (a b : RawRec) : Bool :=
  a.type == b.type && a.inst == b.inst && ((a.type != 0x19 && a.type != 0x1A) || partsOverlap a b)

/-- The known records applied in order to `c`; the first whose LEN is not valid. -/
def putAll : List RawRec → Conf → Except RawRec Conf
  | [], c => .ok c
  | r :: rs, c =>
    if (instCount r.type).isNone then putAll rs c
    else match c.put r with
      | none => .error r
      | some c => putAll rs c

/-- Step 4 (19 R411): the settings the image holds, or the rejection. -/
def structureOf (rs : List RawRec) : Except Rej Conf :=
  let known (r : RawRec) : Bool := match instCount r.type with
    | some n => decide (r.inst < n)
    | none => bit r.flags 0
  let rec dup : List RawRec → List RawRec → Option RawRec
    | [], _ => none
    | r :: l, seen => if seen.any fun x => repeats x r then some r else dup l (r :: seen)
  match rs.find? fun r => !known r with
  | some r => .error (rejRec 4 r.type r.inst)
  | none => match dup rs [] with
    | some r => .error (rejRec 4 r.type r.inst)
    | none => match (rs.dropLast).find? fun r => r.type == 0xF0 with
      | some r => .error (rejRec 4 r.type r.inst)
      | none => match requiredTypes.find? fun t => !rs.any fun r => r.type == t with
        | some t => .error (rejRec 4 t 0)
        | none => match putAll rs {} with
          | .error r => .error (rejRec 4 r.type r.inst)
          | .ok c =>
            if c.dec.bankInit ≤ 2 ∧ !rs.any (fun r => r.type == 0x16 && r.inst == c.dec.bankInit) then .error (rejRec 4 0x16 c.dec.bankInit)
            else .ok c

/-- Records in increasing TYPE and INST (19 R411 step 7). -/
def sortRecs (rs : List RawRec) : List RawRec := rs.mergeSort fun a b => decide (a.type < b.type ∨ a.type = b.type ∧ a.inst ≤ b.inst)

/-- The OPTIONS of an image: WAKE_POLICY, OVERLAY, WAKE_S; without the record the defaults of R407. -/
def optionsOf (rs : List RawRec) : Nat × Nat × Nat :=
  match rs.find? fun r => r.type == 0x01 with
  | some r => (fieldAt r.body 0 1, fieldAt r.body 1 1, fieldAt r.body 4 4)
  | none => (0, 0, 0)

/-- KEY_SLOT of an image: 0xFF without a signature (18 R385). -/
def keySlotOf (rs : List RawRec) : Nat :=
  match rs.find? fun r => r.type == 0xF0 with
  | some r => fieldAt r.body 0 1
  | none => 0xFF

/-- An image that passes steps 1 to 9. -/
structure ImgOk where
  head : ImgHead
  conf : Conf
  deriving DecidableEq, Repr

/-- Steps 1 to 9 on an image (19 R411). -/
def validate (x : VCtx) (img : List Byte) : Except Rej ImgOk :=
  match imgHead img with
  | none => .error (rejFree 1 0)
  | some h =>
    if !bindingOk x h then .error (rejFree 2 0)
    else match firstRej (signatureChks x img h) with
      | some r => .error r
      | none => match structureOf h.recs with
        | .error r => .error r
        | .ok c => match firstRej ((sortRecs h.recs).flatMap (recRanges c)) with
          | some r => .error r
          | none => match laterSteps x c with
            | some r => .error r
            | none => .ok { head := h, conf := c }

/-- One record of an image alone: it passes step 4, LEN and INST, and step 5 (19 R415). -/
def recordAlone (img : List Byte) (type : Nat) : Option Conf :=
  match imgHead img with
  | none => none
  | some h => match h.recs.find? fun r => r.type == type && r.inst == 0 with
    | none => none
    | some r => match Conf.put {} r with
      | none => none
      | some c => if (firstRej (recRanges c r)).isNone then some c else none

end Sys2Proof.Machine
end

