-- ==== Sys2Proof/Machine/Tillers.lean ====
section
/-! DEFINITION. The tiller array: dealing, taking, stealing, commit, abort, the winnow, retirement, thinning and shedding
(05 R106 to R131). -/

namespace Sys2Proof.Machine

/-! ### Tillers and spikelets (05 R106, R107, R126) -/

/-- What tiller i does: a retired one stays so across resets (05 R126). -/
def State.tiller (s : State) (i : Nat) : TState :=
  if s.aos.tillers.contains i then .retired else smGet .idle s.til.tillers i

/-- Tiller i set. -/
def State.setTiller (s : State) (i : Nat) (t : TState) : State :=
  { s with til := { s.til with tillers := smSet .idle s.til.tillers i t } }

/-- Tiller i is healthy: not retired. -/
def State.healthy (s : State) (i : Nat) : Bool := !s.aos.tillers.contains i

/-- Healthy tillers of spikelet n. -/
def State.spkHealthy (s : State) (n : Nat) : Nat := ((List.range 16).filter fun t => s.healthy (16 * n + t)).length

/-- H (05 R126). -/
def State.healthyCount (s : State) : Nat := ((List.range 384).filter s.healthy).length

/-- The first spikelet from n on, in increasing order modulo 24, with a healthy tiller. -/
def State.spkFrom (s : State) (n : Nat) : Nat :=
  match (List.range 24).find? fun i => decide (0 < s.spkHealthy ((n + i) % 24)) with
  | some i => (n + i) % 24
  | none => n % 24

/-- The home spikelet of block b (05 R107). -/
def State.homeOf (s : State) (b : Nat) : Nat := s.spkFrom b

/-- Ring neighbours of spikelet n in the order ties are broken: distance 1 before 2, then the lower number (05 R114). -/
def neighbours (n : Nat) : List Nat :=
  let d1 := [(n + 23) % 24, (n + 1) % 24]
  let d2 := [(n + 22) % 24, (n + 2) % 24]
  let up (l : List Nat) : List Nat := orderBy (fun a b => decide (a ≤ b)) l
  up d1 ++ up d2

/-! ### Queues -/

/-- A sheaf is a shot sheaf. -/
def Sheaf.isShot : Sheaf → Bool
  | .shot _ _ => true
  | _ => false

/-- A sheaf is a block sheaf. -/
def Sheaf.isBlock : Sheaf → Bool
  | .block _ _ => true
  | _ => false

/-- Queue n. -/
def Til.queue (x : Til) (n : Nat) : List Sheaf := nth x.queues n []

/-- Queue n set; QHIGH follows. -/
def Til.setQueue (x : Til) (n : Nat) (q : List Sheaf) : Til :=
  { x with queues := modAt x.queues n fun _ => q, qhigh := modAt x.qhigh n fun h => max h q.length }

/-- A shot sheaf goes to the dispatcher, which deals in increasing r, then b (05 R110). -/
def Til.toDispatcher (x : Til) (r b : Nat) : Til :=
  { x with waiting := insertBy (fun a c => decide (a.1 < c.1 ∨ (a.1 = c.1 ∧ a.2 ≤ c.2))) (r, b) x.waiting }

/-- Queue n becomes `q` after a sheaf has been put in without a free entry being asked for. A queue holds 64 (05 R106): where it would
hold more, its tail-most shot sheaf goes back to the dispatcher, and in a queue of block sheaves only the last one's batch goes
back to the winnow (DESIGN CHOICE, log 82). -/
def Til.putIn (x : Til) (n : Nat) (q : List Sheaf) : Til :=
  if q.length ≤ 64 then x.setQueue n q
  else match q.reverse.find? Sheaf.isShot, q.getLast? with
    | some (.shot r b), _ => (x.setQueue n (q.reverse.erase (.shot r b)).reverse).toDispatcher r b
    | _, some (.block b batch) =>
      let w := smGet {} x.winnow b
      let x := x.setQueue n q.dropLast
      { x with winnow := smSet {} x.winnow b { w with held := batch ++ w.held, busy := false } }
    | _, _ => x.setQueue n q

/-- A block sheaf put ahead of every shot sheaf and behind the block sheaves queued (05 R112). -/
def placeBlock (q : List Sheaf) (h : Sheaf) : List Sheaf :=
  let n := (q.reverse.dropWhile fun x => !x.isBlock).length
  q.take n ++ h :: q.drop n

/-! ### Dealing (05 R109 to R112) -/

/-- The tick at which the input of shot sheaf (r, b) is complete (05 R109). -/
def inputDone (sh : Shot) (b : Nat) : Int :=
  sh.c0 + 1024 * ((b : Int) + 1) * sh.probe.pitch + sh.probe.nc - 1 + (pathOf sh.probe.plan).dp

/-- The launched shot of index r. -/
def Til.shot (x : Til) (r : Nat) : Option Shot := x.shots.find? fun sh => sh.r == r

/-- The spikelet the next shot sheaf goes to: the first after the last one with room and a healthy tiller. -/
def State.nextSpk (s : State) : Option Nat :=
  ((List.range 24).map fun i => (s.til.rr + 1 + i) % 24).find? fun n =>
    decide ((s.til.queue n).length < 64) && decide (0 < s.spkHealthy n)

/-- The waiting shot sheaves whose input was complete before the latest dispatch pass are dealt in order, while queues have room. -/
def dealShots (s : State) : List (Nat × Nat) → State
  | [] => s
  | (r, b) :: l =>
    match s.til.shot r, s.nextSpk with
    | some sh, some n =>
      if inputDone sh b < s.til.pass then
        let x := s.til.setQueue n (s.til.queue n ++ [.shot r b])
        dealShots { s with til := { x with
          rr := n, waiting := x.waiting.erase (r, b), shotDealt := wrapAdd 32 x.shotDealt 1 } } l
      else dealShots s l
    | _, _ => s

/-- A dispatch pass at tick t (05 R110). -/
def dispatchPass (s : State) (t : Nat) : State :=
  let s := { s with til := { s.til with pass := t } }
  dealShots s s.til.waiting

/-- Block b's winnow. -/
def Til.win (x : Til) (b : Nat) : WBlock := smGet {} x.winnow b

/-- Block b's winnow set. -/
def Til.setWin (x : Til) (b : Nat) (w : WBlock) : Til := { x with winnow := smSet {} x.winnow b w }

/-- A block sheaf of b is dealt when rows are held and none is queued or running (05 R112). -/
def dealBlock (s : State) (b : Nat) : State :=
  let w := s.til.win b
  let n := s.homeOf b
  if w.busy || w.held.isEmpty || decide (64 ≤ (s.til.queue n).length) then s else
  let batch := w.held.take 128
  let x := s.til.setWin b { w with held := w.held.drop 128, busy := true }
  let x := x.setQueue n (placeBlock (x.queue n) (.block b batch))
  { s with til := { x with blockDealt := wrapAdd 32 x.blockDealt 1 } }

/-- Space has come free: what waits is dealt. -/
def dealMore (s : State) : State :=
  let s := (s.til.winnow.map Prod.fst).foldl dealBlock s
  dealShots s s.til.waiting

/-! ### Tokens (05 R115, R116) -/

/-- Key of the slot token of (b, k). -/
def tokenKey (b k : Nat) : Nat := b * 128 + k

/-- The shot that is due on the slot token of (b, k): the first processed one the token has not passed and that has not been abandoned
(05 R116, R121). -/
def Til.dueShot (x : Til) (b k : Nat) : Option Nat :=
  let t := smGet 0 x.tokens (tokenKey b k)
  (x.shots.find? fun sh => sh.slot == k && !sh.muted && !sh.thinned && !x.gone.contains (sh.r, b) &&
    decide (b < sh.blocks ∧ t ≤ sh.r)).map Shot.r

/-- A shot sheaf of a queue may be taken: it is due on its slot token, which is free or was kept by this sheaf when it was
aborted (05 R116, R118). -/
def Til.takeable (x : Til) (h : Sheaf) : Bool :=
  match h with
  | .shot r b =>
    match x.shot r with
    | some sh => x.dueShot b sh.slot == some r
    | none => false
  | _ => false

/-- The slot token a shot sheaf takes. -/
def Til.grab (x : Til) (r b : Nat) : Til :=
  match x.shot r with
  | some sh => { x with held := addOnce x.held (tokenKey b sh.slot) }
  | none => x

/-! ### Taking and stealing (05 R113, R114) -/

/-- Tiller i starts a sheaf taken from queue n. -/
def startSheaf (s : State) (i n : Nat) (h : Sheaf) : State :=
  let x := s.til.setQueue n ((s.til.queue n).erase h)
  let x := match h with
    | .shot r b => x.grab r b
    | _ => x
  let s := ({ s with til := x } : State).setTiller i (.running h)
  dealMore (match h with
    | .block b _ => qsSheafTaken s b
    | _ => s)

/-- Shot sheaves queued at spikelet m. -/
def Til.shotCount (x : Til) (m : Nat) : Nat := ((x.queue m).filter Sheaf.isShot).length

/-- The ring neighbours of spikelet n in the steal order: the fullest first, ties by distance, then number (05 R114). -/
def Til.stealOrder (x : Til) (n : Nat) : List Nat := orderBy (fun a b => decide (x.shotCount b ≤ x.shotCount a)) (neighbours n)

/-- The neighbour a tiller of spikelet n steals from: the first in the steal order, with at least two shot sheaves (05 R114). -/
def Til.victim (x : Til) (n : Nat) : Option Nat := (x.stealOrder n).find? fun m => decide (2 ≤ x.shotCount m)

/-- The shot sheaves of a queue, in the order they are looked at, that are passed over before one may be taken are counted (05 R116). -/
def Til.passOver (x : Til) (q : List Sheaf) : Til :=
  { x with tokenWaits := satAdd 32 x.tokenWaits ((q.takeWhile fun h => !x.takeable h).filter Sheaf.isShot).length }

/-- A glean sheaf is due on tiller i: the management core that schedules gleans runs (22 R482; 01 R29). -/
def State.gleanDue (s : State) (i : Nat) : Bool :=
  s.coreRuns && decide (smGet 0 s.til.gleaned i + 8 * secTicks ≤ s.tim.tick)

/-- Tiller i starts its glean sheaf (22 R479, R482). -/
def startGlean (s : State) (i : Nat) : State :=
  let s := noteRun s 4 (some (smGet 0 s.til.gleaned i)) s.bgw.acqFrom (8 * secTicks)
  let s := { s with
    til := { s.til with gleaned := smSet 0 s.til.gleaned i s.tim.tick }
    bgw := { s.bgw with tasks := modAt s.bgw.tasks 4 fun x => { x with running := true, last := some s.tim.tick } } }
  s.setTiller i (.running (.glean i))

/-- Tiller i looks for work (05 R113). -/
def tillerTake (s : State) (i : Nat) : State :=
  if 384 ≤ i ∨ s.tiller i ≠ .idle ∨ s.til.running = false then s else
  let n := i / 16
  let q := s.til.queue n
  match q.find? Sheaf.isBlock with
  | some h => startSheaf s i n h
  | none =>
    let s := { s with til := s.til.passOver q }
    match q.find? s.til.takeable with
    | some h => startSheaf s i n h
    | none =>
      match s.til.victim n with
      | some m =>
        let tail := (s.til.queue m).reverse
        let s := { s with til := s.til.passOver tail }
        match tail.find? s.til.takeable with
        | some h => startSheaf { s with til := { s.til with steals := wrapAdd 32 s.til.steals 1 } } i m h
        | none => if s.gleanDue i ∧ q = [] then startGlean s i else s
      | none => if s.gleanDue i ∧ q = [] then startGlean s i else s

/-! ### Training state (08 R177, R191) -/

/-- Every slot of block b has finished training. -/
def State.blockFinished (s : State) (b slots : Nat) : Bool :=
  (List.range slots).all fun k => (smGet {} s.coh.slots (tokenKey b k)).finished s.coh.restarts b

/-- Block b has finished training with the commit of shot r: TRAINED_BLOCKS, ALL_TRAINED, and what waits for them (03 R83;
08 R191; 10 R222). -/
def noteTrained (s : State) (b r slots : Nat) : State :=
  if s.coh.trained.contains b ∨ s.blockFinished b slots = false then s else
  let l := b :: s.coh.trained
  let all := (List.range s.til.blocksRun).all fun c => l.contains c
  let s := { s with
    cas := if s.cas.pairRole = 1 ∧ s.cas.partner then { s.cas with seedAsk := addOnce s.cas.seedAsk b } else s.cas
    coh := { s.coh with trained := l, trainedAt := r, allTrained := all, phInt := s.coh.phInt.raiseIf (all && !s.coh.allTrained) 0 }
    rxf := if all ∧ s.coh.allTrained = false then { s.rxf with learn := some r } else s.rxf }
  qsTrained s b r

/-- The blocks processed have changed: ALL_TRAINED is looked at again (03 R83; 08 R191). -/
def reviewTrained (s : State) : State :=
  let all := (List.range s.til.blocksRun).all fun c => s.coh.trained.contains c
  let new := all && !s.coh.allTrained
  { s with
    coh := { s.coh with allTrained := all, phInt := s.coh.phInt.raiseIf new 0 }
    rxf := if new then { s.rxf with learn := some s.coh.trainedAt } else s.rxf }

/-! ### Committing a shot sheaf (05 R116, R117, R121; 08 R173) -/

/-- The stored baselines of (b, k). -/
def State.baseOf (s : State) (b k : Nat) : List Nat :=
  (List.range 1024).map fun j => smGet 0 s.coh.base (1024 * tokenKey b k + j)

/-- An uncorrectable word of position state memory: counted, and the block retrains at the next boundary (05 R125; 22 R484). -/
def posStateErr (s : State) (b words : Nat) : State :=
  if words = 0 then s
  else ({ s with bgw := { s.bgw with sramUe := satAdd 16 s.bgw.sramUe words } } : State).askRestart (some [b]) false 0

/-- Block b of a standby is COLD: its sheaves change no baseline, slot record or quasi-static sum (21 R463). -/
def State.coldBlock (s : State) (b : Nat) : Bool := s.standbyRole && !s.cas.hot.contains b

/-- The slot record and baselines of (b, slot) as the commit of shot r leaves them join the seed buffer (21 R471). -/
def seedCopy (s : State) (sh : Shot) (b : Nat) (o : ShotOut) : State :=
  match s.cas.seedR0 with
  | none => s
  | some r0 =>
    if r0 ≤ sh.r ∧ sh.r < r0 + sh.probe.slots ∧ s.cas.seedLeft.contains b then
      { s with cas := { s.cas with seedBuf := s.cas.seedBuf ++ [(tokenKey b sh.slot, o.sr, o.base)] } }
    else s

/-- The slot token of (b, slot) passes shot r and is free. -/
def Til.pass1 (x : Til) (sh : Shot) (b : Nat) : Til :=
  { x with tokens := smSet 0 x.tokens (tokenKey b sh.slot) (sh.r + 1), held := x.held.erase (tokenKey b sh.slot) }

/-- What a committed shot sheaf leaves in the slot record, baselines and quasi-static sums of its block (08 R173; 10 R219), unless
the block is COLD. -/
def shotEffects (s : State) (sh : Shot) (b : Nat) (o : ShotOut) : State :=
  let key := tokenKey b sh.slot
  let s := { s with coh := { s.coh with
      slots := smSet {} s.coh.slots key o.sr
      base := smSetAll 0 s.coh.base (o.base.mapIdx fun j v => (1024 * key + j, v)) } }
  noteTrained (qsContribute (seedCopy s sh b o) sh b o.pw) b sh.r sh.probe.slots

/-- Shot sheaf (r, b) commits. A shot muted after its launch by a takeover leaves nothing (21 R468). COH_FADED counts every FADED sample the
sheaf computes, those of a late sheaf, whose results are discarded, too (DESIGN CHOICE, log 81). -/
def commitShot (s : State) (sh : Shot) (b : Nat) (inp : SheafIn) : State :=
  if sh.muted then { s with til := s.til.pass1 sh b } else
  let cold := s.coldBlock b
  let sr := (smGet {} s.coh.slots (tokenKey b sh.slot)).enter s.coh.segs s.coh.restarts b sh.r sh.phase
  let o := shotSheaf sh b (pathInput s inp.first inp.samples) s.rxf.segs inp sr (s.baseOf b sh.slot)
  let raw := if cold then o.raw.map fun v => { v with fl := v.fl ||| qTraining } else o.raw
  let faded := (raw.filter fun v => hasFlag v.fl qFaded).length
  let w := s.til.win b
  let late := w.late.contains sh.r
  let w := if late then { w with late := w.late.erase sh.r }
    else { w with done := w.done ++ [{ r := sh.r, data := raw, fl := 0, placeholder := false, gap := false }] }
  let words := ((inp.ue.filter fun p => p / 1024 == b).map (· / 4)).eraseDups.length
  let s := { s with
    coh := { s.coh with
      rows := wrapAdd 32 s.coh.rows 1
      cmpSat := satAdd 32 s.coh.cmpSat o.sat
      int := s.coh.int.raiseIf (o.sat != 0) 3
      faded := satAdd 32 s.coh.faded faded }
    til := (s.til.setWin b w).pass1 sh b }
  let s := posStateErr s b words
  let s := if late then s else profileCommit s sh.r (binParts s.rxf.segs sh b o.pw raw)
  if cold then s else shotEffects s sh b o

/-! ### Committing a block sheaf (05 R115; 08 R182; 09 R197 to R211) -/

/-- What governs the raw value of index n of block b (08 R189; 09 R192, R203, R214). -/
def State.rowEnv (s : State) (g : Grid) (n : Nat) : RowEnv :=
  let fill := match s.dec.fills.find? fun e => decide (e.1 ≤ n) with
    | some e => e.2
    | none => s.conf.dec.fillPct
  { n := n, grid := g, scale := rawScaleAt s.coh.segs n, taps := s.conf.dec.taps, fill := fill,
    out := (g.outAt n).map fun q => (q, s.dec.use q, (s.dec.use q).coefs s.conf) }

/-- Output q is produced for the first time by some block: the crossfade schedule and a zone amendment move (09 R202; 12 R269). -/
def firstOfOutput (s : State) (q : Nat) : State :=
  if s.acq.outTs.any fun e => e.1 == q then s else zoneAmend (advanceXfade s q) q

/-- An output row leaves the block sheaf (09 R211): to the history ring, the zone engine and the streams. A shed block yields no
row: the ring slot says so (05 R130; 13 R272). -/
def outputRow (s : State) (b q : Nat) (g : Grid) (settling lost : Bool) (y : List Int) (fl : List Nat) : State :=
  let shed := s.shedAt q b
  let (words, xe, sat) := packRow settling y
  let ts := ((s.acq.outTs.find? fun e => e.1 == q).map Prod.snd).getD (s.outTs g q)
  let row : OutRow :=
    if shed then { q := q, ts := ts, block := b, xe := 0, lost := lost, shed := true, rowq := qCorrupt,
                   words := List.replicate 1024 0, flags := List.replicate 1024 qCorrupt }
    else { q := q, ts := ts, block := b, xe := xe, lost := lost, shed := false, rowq := orAll fl, words := words, flags := fl }
  let s := noteOutput s b q
  let s := historyRow s row
  let s := if shed then s
    else
      let s := { s with dec := { s.dec with outSat := satAdd 32 s.dec.outSat sat, int := s.dec.int.raiseIf (sat != 0) 5 } }
      dasRow (zoneRow s row) row
  resolveTriggers s

/-- One row of raw samples through the positions of block b; the raw values that leave have index r − 1 (08 R182). -/
def blockRow (s : State) (b : Nat) (inp : SheafIn) (row : Row) : State :=
  let n := row.r - 1
  match gridAt s.dec.grids n with
  | none =>
    -- before the first SYNC index of the acquisition nothing leaves
    let step := fun (m : SMap PosState) (e : Nat × Raw) =>
      smSet {} m e.1 (unwrapStep (rawScaleAt s.coh.segs n) (smGet {} m e.1) e.2.v e.2.fl).1
    { s with coh := { s.coh with pos := (row.samples.mapIdx fun j v => (1024 * b + j, v)).foldl step s.coh.pos } }
  | some g =>
    let s := match g.outAt n with
      | some q => if 0 < row.r then firstOfOutput s q else s
      | none => s
    let e := s.rowEnv g n
    let res := row.samples.mapIdx fun j v =>
      (1024 * b + j, posStep e (inp.recUe.any fun x => x.1 == 1024 * b + j) (smGet {} s.coh.pos (1024 * b + j)) v)
    let raws := res.filterMap fun x => x.2.2.raw
    let sat := (raws.filter RawOut.sat).length
    let s := { s with coh := { s.coh with
      pos := smSetAll {} s.coh.pos (res.map fun x => (x.1, x.2.1))
      fillHold := satAdd 32 s.coh.fillHold (raws.filter RawOut.fillHold).length
      rawSat := satAdd 32 s.coh.rawSat sat
      phInt := s.coh.phInt.raiseIf (sat != 0) 4 } }
    match e.out with
    | none => s
    | some (q, _, _) =>
      if raws = [] then s
      else outputRow s b q g (e.settling q) inp.histLost (res.map fun x => x.2.2.y) (res.map fun x => x.2.2.fl)

/-- Block sheaf of b commits: the words of position records read with an uncorrectable error are taken as 0 (05 R125). -/
def commitBlock (s : State) (b : Nat) (batch : List Row) (inp : SheafIn) : State :=
  let ue := (inp.recUe.filter fun e => e.1 / 1024 == b).eraseDups
  let s := { s with coh := { s.coh with
    pos := ue.foldl (fun m e => smSet {} m e.1 ((smGet {} m e.1).zeroWord s.conf.dec.taps e.2)) s.coh.pos } }
  let s := posStateErr s b ue.length
  let s := batch.foldl (fun s row => blockRow s b inp row) s
  let s := qsSheafCommit s b inp
  let s := { s with til := s.til.setWin b { s.til.win b with busy := false } }
  dealBlock s b

/-- Tiller i commits its sheaf (05 R117); a glean sheaf that matched ends (22 R482). -/
def commitSheaf (s : State) (i : Nat) (inp : SheafIn) : State :=
  match s.tiller i with
  | .running (.shot r b) =>
    match s.til.shot r with
    | some sh => commitShot (s.setTiller i .idle) sh b inp
    | none => s.setTiller i .idle
  | .running (.block b batch) => commitBlock (s.setTiller i .idle) b batch inp
  | .running (.glean _) =>
    let s := s.setTiller i .idle
    { s with bgw := { s.bgw with
        gleans := wrapAdd 32 s.bgw.gleans 1
        tasks := modAt s.bgw.tasks 4 fun x => { x with
          running := s.til.tillers.any fun e => match e.2 with | .running (.glean _) => true | _ => false } } }
  | _ => s

/-! ### The winnow (05 R120 to R123) -/

/-- Both polarisations are lost now (04 R102). -/
def State.bothPolsLost (s : State) : Bool :=
  s.adc.polXLost && s.adc.polYLost && decide (max s.adc.polXFrom s.adc.polYFrom ≤ s.tim.tick)

/-- The flags the winnow adds to a row it releases now (05 R123): BEYOND_END from its first position on, as it is in force (03 R85), and
CORRUPT while both polarisations are lost (04 R102). -/
def releaseRow (s : State) (b : Nat) (row : Row) : Row :=
  let all := if s.bothPolsLost then qCorrupt else 0
  match s.rxf.beyond.map Prod.fst with
  | none =>
    if all = 0 then row
    else { row with data := row.data.map fun v => { v with fl := v.fl ||| all }, fl := row.fl ||| all }
  | some p =>
    if 1024 * (b + 1) ≤ p then
      { row with data := row.data.map fun v => { v with fl := v.fl ||| all }, fl := row.fl ||| all }
    else { row with data := row.samples.mapIdx fun j v =>
        { v with fl := v.fl ||| all ||| if p ≤ 1024 * b + j then qBeyond else 0 } }

/-- With 512 rows held the data of the oldest is freed: it stays in the series with value 0 and GAP (05 R122). -/
def freeOldest : List Row → List Row
  | [] => []
  | r :: l =>
    if r.gap then r :: freeOldest l
    else { r with data := r.samples.map fun v => { v := 0, fl := v.fl ||| qGap }, gap := true } :: l

/-- Launches have ended and the input of (r, b) was not complete: the sheaf does not run and its row is not released (20 R429). -/
def Til.isCut (x : Til) (sh : Shot) (b : Nat) : Bool :=
  match x.cut with
  | some t => decide ((t : Int) ≤ inputDone sh b)
  | none => false

/-- Shots whose rows are all released and whose late sheaves have all ended are dropped. -/
def dropShots (s : State) : State :=
  let blocks := s.conf.probe.nblocks
  let keep (sh : Shot) : Bool :=
    (List.range blocks).any fun b =>
      (decide ((s.til.win b).nextR ≤ sh.r) && !s.til.isCut sh b) || (s.til.win b).late.contains sh.r
  let l := s.til.shots.filter keep
  { s with til := { s.til with shots := l, gone := s.til.gone.filter fun e => l.any fun sh => sh.r == e.1 } }

/-- A row of block b is released (05 R120, R122, R123). -/
def release (s : State) (b : Nat) (row : Row) : State :=
  let w := s.til.win b
  let full := decide (512 ≤ (w.held.filter fun x => !x.gap).length)
  let held := if full then freeOldest w.held else w.held
  let x := s.til.setWin b { w with
    nextR := row.r + 1, done := w.done.filter (fun d => d.r != row.r), held := held ++ [releaseRow s b row] }
  let s := { s with til := { x with
    wgaps := if full then satAdd 32 x.wgaps 1 else x.wgaps, int := x.int.raiseIf full 5 } }
  let s := profileRelease s row.r b row.placeholder
  dealBlock (dropShots s) b

/-- The winnow releases the next row of block b when it is committed or replaced (05 R120). -/
def winnowRelease (s : State) (b : Nat) : State :=
  let w := s.til.win b
  match w.done.find? fun d => d.r == w.nextR, s.til.shot w.nextR with
  | some row, some sh => if s.til.isCut sh b then s else release s b row
  | _, _ => s

/-- The release deadline of the next row of block b (05 R121): its sheaf is late. A commit of the deadline's cycle comes before it (01
R26). -/
def releaseDeadline (s : State) (b : Nat) : State :=
  let w := s.til.win b
  match w.done.find? fun d => d.r == w.nextR, s.til.shot w.nextR with
  | none, some sh =>
    if sh.muted || sh.thinned || decide (sh.blocks ≤ b) || s.til.isCut sh b then s else
    let s := s.expire (inputDone sh b + s.ttr).toNat
    let x := s.til.setWin b { w with late := sh.r :: w.late }
    let s := { s with til := { x with late := satAdd 32 x.late 1, int := x.int.raise 4 } }
    release s b { r := sh.r, data := [], fl := qDegraded, placeholder := true, gap := false }
  | _, _ => s

/-- A shot sheaf not started by 2·T_TR after its input was complete is abandoned (05 R121): the slot token passes it. -/
def abandon (s : State) (r b : Nat) : State :=
  match s.til.shot r with
  | none => s
  | some sh =>
    let waits := s.til.waiting.contains (r, b) || s.til.queues.any fun q => q.contains (.shot r b)
    let started := s.til.held.contains (tokenKey b sh.slot) && s.til.dueShot b sh.slot == some r
    if !waits || started then s else
    let s := s.expire (inputDone sh b + 2 * s.ttr).toNat
    let w := s.til.win b
    -- its row has been released at the deadline; a row of which no deadline has been seen is replaced here
    let w := if w.late.contains r then { w with late := w.late.erase r }
      else { w with done := w.done ++ [{ r := r, data := [], fl := qDegraded, placeholder := true, gap := false }] }
    let x := s.til.setWin b w
    let x := { x with
      waiting := x.waiting.erase (r, b), queues := x.queues.map fun q => q.erase (.shot r b)
      gone := x.gone ++ [(r, b)]
      abandoned := satAdd 16 x.abandoned 1, int := x.int.raise 4 }
    dealMore (dropShots (({ s with til := x } : State).askRestart (some [b]) false 0))

/-! ### Thinning and shedding (05 R128 to R130) -/

/-- X ≤ C, both times 88·T_TR/10⁹ (01 R22, R23): with `num/den` of X when some shots are left out. -/
def fitsCeiling (p slots ttr h num den : Nat) : Bool := decide (p * slots * 352 * num ≤ 4 * min 352 h * ttr * den)

/-- k, the blocks processed and shedding for H and X (05 R128, R130). -/
def State.thinFor (s : State) : Nat × Nat × Bool :=
  let c := s.conf.probe
  let h := s.healthyCount
  let fit := fitsCeiling c.p c.slots c.ttr h
  if fit 1 1 then (0, c.nblocks, false)
  else if fit 2 3 then
    -- the largest odd k from 3 to 255 that fits
    let k := ((List.range 127).map fun i => 255 - 2 * i).find? fun k => fit (k - 1) k
    (k.getD 3, c.nblocks, false)
  else
    let n := (List.range c.nblocks).foldl (fun n i => if fitsCeiling (1024 * (i + 1)) c.slots c.ttr h 2 3 then i + 1 else n) 0
    (3, n, true)

/-- H or X has changed: the new k waits for its boundary (05 R128, R129). -/
def evalThin (s : State) : State :=
  if !s.til.running then s else
  let v := s.thinFor
  { s with til := { s.til with kPend := if v = (s.til.k, s.til.blocksRun, s.til.shedding) then none else some v } }

/-- A k takes effect from raw-sample index r on (05 R129, R130): K_CHANGE, SHED, and a fault-log entry where blocks are shed; ALL_TRAINED
follows the blocks processed (08 R191). -/
def applyThin (s : State) (r : Nat) (v : Nat × Nat × Bool) : State :=
  let (k, n, shed) := v
  let shedNew := shed && (!s.til.shedding || s.til.blocksRun != n)
  let s := reviewTrained { s with til := { s.til with
    k := k, shedding := shed, blocksRun := n, kPend := none, origin := r, kSegs := (r, k, n) :: s.til.kSegs
    int := (s.til.int.raiseIf (s.til.k != k) 2).raiseIf shedNew 3 } }
  if shedNew then s.log 0x0402 2 n (leBytes 4 s.healthyCount ++ leBytes 4 k) else s

/-! ### Faults of tillers (05 R118, R126, R127; 22 R484, R486) -/

/-- Sheaf identity in a fault-log entry (22 R489; log 13). -/
def Sheaf.ident : Sheaf → List Byte
  | .shot r b => leBytes 8 r ++ leBytes 4 b
  | .block b batch => leBytes 8 ((batch.head?.map Row.r).getD 0) ++ leBytes 4 b
  | .glean i => zeros 8 ++ leBytes 4 i

/-- The queue of a spikelet without a healthy tiller moves (05 R127): block sheaves to their new homes, shot sheaves to the tails of its
neighbours' queues in the steal order as the move finds it, and where none has room back to the dispatcher, which deals them
anew: TIL_SHOT_DEALT counts such a sheaf again (DESIGN CHOICE, log 82). -/
def moveQueue (s : State) (n : Nat) : State :=
  if 0 < s.spkHealthy n then s else
  let q := s.til.queue n
  let order := s.til.stealOrder n
  let s := { s with til := s.til.setQueue n [] }
  q.foldl (fun s h =>
    match h with
    | .block b _ =>
      let m := s.homeOf b
      { s with til := s.til.putIn m (placeBlock (s.til.queue m) h) }
    | .shot r b =>
      match order.find? fun m => decide ((s.til.queue m).length < 64) && decide (0 < s.spkHealthy m) with
      | some m => { s with til := s.til.setQueue m (s.til.queue m ++ [h]) }
      | none => { s with til := s.til.toDispatcher r b }
    | .glean _ => s) s

/-- Tiller i is retired (05 R126): counted out of H, k is evaluated again. -/
def retireTiller (s : State) (i : Nat) : State :=
  let s := { s with
    aos := { s.aos with tillers := addOnce s.aos.tillers i }
    til := { s.til with tillers := smSet .idle s.til.tillers i .retired, int := s.til.int.raise 0 } }
  evalThin (moveQueue s (i / 16))

/-- Tiller i aborts its sheaf and leaves service for its targeted test (05 R118). The sheaf keeps its tokens and goes to the head of
its queue, a block sheaf to its home queue. A glean sheaf goes back nowhere and TIL_ABORTS does not count it (DESIGN CHOICE, log 82:
R118 speaks of sheaves that run again). -/
def abortSheaf (s : State) (i cause : Nat) : State :=
  match s.tiller i with
  | .running h =>
    let n := match h with
      | .block b _ => s.homeOf b
      | _ => i / 16
    let x := match h with
      | .glean _ => s.til
      | _ => s.til.putIn n (h :: s.til.queue n)
    let x := { x with aborts := match h with | .glean _ => x.aborts | _ => satAdd 16 x.aborts 1 }
    ({ s with til := x } : State).setTiller i (.test cause h.ident)
  | _ => s

/-- The targeted test of tiller i ends (05 R118; 22 R484, R486). -/
def katDone (s : State) (i : Nat) (pass : Bool) : State :=
  match s.tiller i with
  | .test cause ident =>
    if pass then
      let times := recentFaults (smGet [] s.til.faultTimes i) s.tim.tick
      let s := { s with til := { s.til with faultTimes := smSet [] s.til.faultTimes i times } }
      if 4 ≤ times.length then
        (retireTiller s i).lasting 0x0401 i (leBytes 4 4 ++ ident)
      else
        let s := s.setTiller i .idle
        let s := { s with til := { s.til with transient := satAdd 16 s.til.transient 1, int := s.til.int.raise 1 } }
        s.transient 0x0401 i (leBytes 4 cause ++ ident)
    else (retireTiller s i).lasting 0x0401 i (leBytes 4 cause ++ ident)
  | _ => s

end Sys2Proof.Machine
end

