-- ==== Sys2Proof/Machine/Ring.lean ====
section
/-! DEFINITION. What the ring and the pair do at a trace-period boundary: training restarts, realignment to the master's STATE,
seed installation, change of role (08 R179, R180; 21 R460 to R472). The messages and pads themselves are in
Machine/Cascade.lean. -/

namespace Sys2Proof.Machine

/-! ### Roles -/

/-- The module belongs to a redundant pair (21 R453). -/
def State.isPair (s : State) : Bool := s.conf.cascade.role == 3

/-- The module drives PRB_I, PRB_Q, GATE and GATE_DTS (02 R57; 21 R463). -/
def State.drives (s : State) : Bool := !s.isPair || s.cas.pairRole == 1

/-- Processed blocks. -/
def State.procBlocks (s : State) : Nat := if s.til.blocksRun = 0 then s.conf.probe.nblocks else s.til.blocksRun

/-- HOT_PCT (21 R472). -/
def State.hotPct (s : State) : Nat :=
  if s.procBlocks = 0 then 0 else 100 * (s.cas.hot.filter fun b => decide (b < s.procBlocks)).length / s.procBlocks

/-! ### Training restarts (08 R179, R180) -/

/-- Trace periods until n shots of every slot have been processed from raw-sample index r on, one in k being thinned (05 R131). -/
def trainPeriods (n k rk slots r : Nat) : Nat :=
  if k = 0 then n
  else
    let a := ((List.range k).find? fun i => (List.range slots).any fun j => decide ((r + slots * i + j - rk) % k = k - 1)).getD 0
    if n ≤ a then n else n + (n - 1 - a) / (k - 1) + 1

/-- TRAIN_END of a training that starts with the launch of index r at position j of trace period m (02 R59, R65; 05 R131). -/
def State.trainEndOf (s : State) (r m j : Nat) : Nat :=
  m + trainPeriods s.conf.phase.ntrain s.til.k s.til.origin s.conf.probe.slots r + if j = 0 then 0 else 1

/-- The block is covered by one of the restarts. -/
def coveredBy (l : List (Option (List Nat) × Bool)) (b : Nat) : Bool :=
  l.any fun e => match e.1 with
    | none => true
    | some bs => bs.contains b

/-- Training restarts, which count as one, from the launch of index r at position j of trace period m on (08 R179, R180); so
do those of the boundary on which launches begin. -/
def restartTraining (s : State) (r m j : Nat) (l : List (Option (List Nat) × Bool)) : State :=
  if l = [] then s else
  let new := l.mapIdx fun i e => ({ id := s.coh.restartId + 1 + i, fromR := r, blocks := e.1, clear := e.2 } : Restart)
  let all : Bool := l.any fun e => e.1.isNone
  let cov := (List.range s.procBlocks).filter (coveredBy l)
  let s := { s with
    coh := { s.coh with
      restarts := new.reverse ++ s.coh.restarts
      restartId := s.coh.restartId + l.length
      trained := s.coh.trained.filter fun b => !coveredBy l b
      allTrained := s.coh.allTrained && cov.isEmpty
      restartSeq := if all then r else s.coh.restartSeq
      trainRestarts := satAdd 16 s.coh.trainRestarts (if s.coh.restarts.any fun q => q.fromR == r then 0 else 1)
      phInt := s.coh.phInt.raise 1 }
    prb := if all then { s.prb with trainEnd := s.trainEndOf r m j } else s.prb
    cas := { s.cas with
      hot := if s.standbyRole then s.cas.hot.filter (fun b => !coveredBy l b) else s.cas.hot
      trainIdx := if all && (!s.cas.joined || s.cas.master) then r else s.cas.trainIdx } }
  cov.foldl (fun s b => qsRestartBlock s r b) s

/-! ### Realignment to STATE (21 R460) -/

/-- The tick at which T is the instant, in the segment of the time map that holds it. -/
def State.tickOf48 (s : State) (t : Nat) : Nat :=
  let g := ((s.tim.map :: s.tim.mapOld).find? fun g => decide (g.t ≤ t)).getD s.tim.map
  let step := (2 ^ 14 * ((2 ^ 32 : Nat) + g.rho)).toNat
  if step = 0 then 0 else ((g.xa : Int) + roundDiv ((t : Int) - g.t) step).toNat

/-- The launch schedule of the master from the present tick on (21 R456 step 4, R460): its epoch, and the first boundary still to come
as the next one. Averages stay aligned to trace periods (11 R242). -/
def takeSchedule (s : State) (st : StateBody) : State :=
  let e := s.tickOf48 st.epoch
  let m := if s.ttr = 0 ∨ s.tim.tick ≤ e then 0 else ceilDiv (s.tim.tick - e) s.ttr
  let n := s.conf.probe.slots
  let s := dtsRealign s m
  { s with
    prb := { s.prb with
      epoch := some e, m := m, nextR := m * n, j := 0, boundaryDone := false, segs := [{ r0 := m * n, m0 := m, s := n }] }
    cas := { s.cas with
      adopted := some st, trainIdx := st.trainIdx, master := s.cas.master || s.conf.cascade.rank == 0 } }

/-- The master's output grid from raw-sample index r on (09 R192; 21 R460): the first output that starts at or after it. -/
def gridOnMaster (s : State) (ns r : Nat) : State :=
  let step := s.conf.dec.cicR * s.conf.dec.firDf
  let n := if step = 0 ∨ r ≤ ns then max ns r else ns + ceilDiv (r - ns) step * step
  restartGrid s n

/-- Launches move to the master's schedule (21 R460): what was in flight on the old indices is dropped, training restarts in all
blocks, and the decimators make an internal restart. -/
def epochRealign (s : State) (st : StateBody) : State :=
  let q := s.dec.blockQ.foldl (fun m e => max m e.2) 0
  let s := takeSchedule s st
  let r := s.prb.nextR
  let x := s.til
  let win := (List.range s.conf.probe.nblocks).foldl (fun w b =>
    smSet {} w b { nextR := r, done := [], held := [], late := [], busy := (x.win b).busy }) ([] : SMap WBlock)
  let s := { s with
    til := { x with
      waiting := [], shots := [], tokens := [], held := [], gone := [], winnow := win, origin := r, kSegs := [(r, x.k, x.blocksRun)]
      queues := x.queues.map fun q => q.filter fun h => !h.isShot }
    rxf := { s.rxf with profiles := [], judged := [], learn := none }
    coh := { s.coh with
      restarts := [], segs := [{ r0 := r, phase := s.conf.phase, probe := s.conf.probe }]
      restartPend := (none, false, 0) :: s.coh.restartPend }
    dec := { s.dec with
      fills := [(r, s.conf.dec.fillPct)]
      grids := [{ ns := r, q0 := q, cicR := s.conf.dec.cicR, firDf := s.conf.dec.firDf }] } }
  let s := qsResetWindows s r s.prb.m false
  internalRestart s r

/-- The state of the master differs from the one in force in its epoch. -/
def State.epochDiffers (s : State) : Option StateBody :=
  match s.cas.stateSeen with
  | none => none
  | some st =>
    if s.cas.joined && !s.cas.master && (match s.cas.adopted with | none => true | some a => a.epoch != st.epoch) then some st
    else none

/-- The SYNC index and the training of the master, at the boundary with first launch r (21 R460): the state, and whether training
restarts. -/
def realignBoundary (s : State) (r : Nat) : State × Bool :=
  match s.cas.stateSeen with
  | none => (s, false)
  | some st =>
    if !s.cas.joined || s.cas.master then (s, false)
    else
      let own := (s.dec.grids.head?.map Grid.ns).getD 0
      let known := (s.cas.adopted.map StateBody.ns).getD own
      let s := if st.ns = own ∨ st.ns = known ∨ s.dec.syncPend = some st.ns then s else gridOnMaster s st.ns r
      let again := st.trainIdx != s.cas.trainIdx && st.trainIdx != s.coh.restartSeq
      ({ s with cas := { s.cas with
          adopted := some st, trainIdx := st.trainIdx, master := s.conf.cascade.rank == 0 } }, again)

/-! ### Seeds (21 R472) -/

/-- A chunk received whole is installed at the boundary with first launch r: the block becomes HOT. -/
def installChunk (s : State) (r : Nat) (c : SeedChunk) : State :=
  let b := c.block
  let rec' (x : SlotRec) : SlotRec :=
    { x with restart := s.coh.restartId, fs := s.conf.phase.fadeShift, fsR := r - 1,
             ntrain := if x.tvalid && x.tcount == 2 ^ x.ntl then x.tcount else s.conf.phase.ntrain }
  let s := { s with
    coh := { s.coh with
      slots := c.slots.foldl (fun m e => smSet {} m (tokenKey b e.1) (rec' e.2)) s.coh.slots
      base := c.base.foldl (fun m e => smSet 0 m (1024 * tokenKey b 0 + e.1) e.2) s.coh.base }
    qss := { s.qss with refs := c.refs.foldl (fun m e => smSet none m e.1 (some e.2)) s.qss.refs }
    cas := { s.cas with
      hot := addOnce s.cas.hot b, strainRezero := s.cas.strainRezero || s.conf.phase.quantity == 1 } }
  (noteTrained s b (r - 1) s.conf.probe.slots).sendRing (.seedCommit b)

/-- Chunks received are installed at the boundary (21 R472). -/
def installSeeds (s : State) (r : Nat) : State :=
  let l := s.cas.seedRx
  let s := l.foldl (fun s c => installChunk s r c) s
  { s with cas := { s.cas with seedRx := [] } }

/-! ### Change of role (21 R466 to R469) -/

/-- The shots of indices lo … hi − 1 become muted after their launch (21 R468): their rows not yet released carry HELD. -/
def muteShots (s : State) (lo hi : Nat) : State :=
  let sel (r : Nat) : Bool := decide (lo ≤ r ∧ r < hi)
  let x := s.til
  let rs := (x.shots.filter fun sh => sel sh.r && !sh.muted).map Shot.r
  let held (w : WBlock) : WBlock :=
    let out := rs.filter fun r => decide (w.nextR ≤ r)
    { w with done := (w.done.filter fun d => !(out.contains d.r)) ++
        out.map fun r => { r := r, data := [], fl := qHeld, placeholder := true, gap := false } }
  let win := (List.range s.conf.probe.nblocks).foldl (fun m b => smSet {} m b (held (smGet {} m b))) x.winnow
  { s with til := { x with
      shots := x.shots.map fun sh => if sel sh.r then { sh with muted := true } else sh
      waiting := x.waiting.filter fun e => !sel e.1
      queues := x.queues.map fun q => q.filter fun h => match h with | .shot r _ => !sel r | _ => true
      winnow := win } }

/-- A lane has lost all its slices (04 R101). -/
def State.laneLost (s : State) : Bool := s.adc.lanes.any fun l => l.lost

/-- The module may hold the active role (21 R464). -/
def State.eligible (s : State) : Bool :=
  s.isPair && (s.cas.joined || !s.cas.partner) && !s.faultHeld && !s.laneLost && !(s.cas.pairRole == 2 && s.prb.lmonFrozen)

/-- The partner as its heartbeats show it. -/
def State.partnerMem (s : State) : Member := nth s.cas.members s.partnerRank {}

/-- The role this module is to take at its next trace-period boundary, if another than the one it holds (21 R466, R467). -/
def State.roleWanted (s : State) : Option Nat :=
  let c := s.cas
  let partnerActive : Bool := s.partnerMem.present && s.partnerMem.pairRole == 1
  let t5 : Bool := s.conf.pair.arbMode == 1
  if !s.isPair then none
  else if c.pairRole = 1 then
    if (if t5 then !s.eligible || c.switchPending || (s.conf.cascade.rank == 1 && partnerActive) else !s.pads.granted) then some 2 else none
  else if s.eligible && (if t5 then
      c.released.isSome || (c.partnerLost && c.hbLost) ||
        (c.pairRole == 0 && s.conf.cascade.rank == 0 && c.joined && !partnerActive)
    else s.pads.granted && (c.released.isSome || c.partnerLost || !partnerActive)) then some 1
  else if c.pairRole = 0 ∧ c.joined then some 2
  else none

/-- A seeding ends without SEED_END (21 R472). -/
def abortSeeding (s : State) : State :=
  if !s.cas.seeding then s
  else { s with cas := { s.cas with
      seeding := false, seedR0 := none, seedLeft := [], seedBuf := [], seedAborts := satAdd 16 s.cas.seedAborts 1
      int := s.cas.int.raise 5 } }

/-- The member joins (21 R456 step 4): the time it takes has come within 20 ns and the master's state is known. -/
def joinNow (s : State) : State :=
  if !s.cas.timed || s.cas.joined || s.cas.stateSeen.isNone then s
  else
    let s := s.holdFlags
    { s with cas := { s.cas with
        joined := true, acked := false, timed := false, lost0 := false, excluded := false, refuse := 0, int := s.cas.int.raise 0 } }

/-- The pair role changes at the boundary with first launch r of trace period m (21 R466 to R469): the one that releases names its last
launch index and becomes a standby with every block HOT; the one that takes over mutes the positions from r_sw on, and answers the
restarts of its COLD blocks. -/
def roleBoundary (s : State) (r : Nat) : State × List (Option (List Nat) × Bool) :=
  match s.roleWanted with
  | none => (s, [])
  | some role =>
    let s := abortSeeding s.holdFlags
    let c := { s.cas with switchPending := false, releaseReq := false }
    if role = 1 then
      let rsw := min r (s.cas.takeover.getD r)
      let cold := (List.range s.procBlocks).filter fun b => !s.cas.hot.contains b
      let first : Bool := s.cas.pairRole == 0
      let s := if first then s else muteShots s rsw r
      ({ s with
        cas := { c with
          pairRole := 1, takeover := none, released := none, switchIdx := rsw, takebackReq := false, hot := []
          roleSegs := (rsw, false) :: c.roleSegs, switches := if first then c.switches else satAdd 16 c.switches 1
          int := c.int.raise 3 } },
        if first ∨ cold = [] then [] else [(some cold, false)])
    else
      let wasActive : Bool := s.cas.pairRole == 1
      let s := { s with
        pads := { s.pads with muted := true, gate := false, gateDts := false, chirp := none }
        cas := { c with
          pairRole := 2, hot := if s.cas.pairRole = 1 then List.range s.procBlocks else c.hot
          roleSegs := (r, true) :: c.roleSegs, int := c.int.raise 3 } }
      (if wasActive then s.sendRing (.release (r - 1)) else s, [])

/-- While no launch schedule runs, a role change takes effect at once (21 R466, R467). -/
def settleRole (s : State) : State :=
  if s.prb.epoch.isSome then s
  else match s.roleWanted with
    | none => s
    | some role =>
      let was := s.cas.pairRole
      let s := abortSeeding s.holdFlags
      let s := { s with cas := { s.cas with
          pairRole := role, switchPending := false, releaseReq := false, released := none, takeover := none
          takebackReq := s.cas.takebackReq && role != 1
          switches := if role = 1 ∧ was = 2 then satAdd 16 s.cas.switches 1 else s.cas.switches
          hot := if role = 2 ∧ was = 1 then List.range s.procBlocks else s.cas.hot, int := s.cas.int.raise 3 } }
      if was = 1 then s.sendRing (.release s.prb.lastLaunch) else s

end Sys2Proof.Machine
end

