-- ==== Sys2Proof/Machine/Laser.lean ====
section
/-! DEFINITION. The laser chain and its interlock, the launch schedule, the launch monitor, trace-period boundaries with the
amendments that wait for them, and the start of an acquisition (02 R38 to R65, R520; 05 R128, R129; 20 R428, R429). -/

namespace Sys2Proof.Machine

/-! ### The laser chain (02 R51 to R55, R520) -/

/-- The laser-chain record permits emission (02 R51). -/
def State.emits (s : State) : Bool := s.conf.laser.emit == 1 && s.fuses.lifecycle != 3

/-- Arming starts, or starts again (02 R54, R520): step 1 at once where no emission is permitted or ILK_N is qualified. The floor
is measured again (03 R81). -/
def armStart (s : State) (again : Bool) : State :=
  let s := { s with rxf := { s.rxf with floorValid := false } }
  if !s.emits then { s with prb := { s.prb with arm := .ampDelay, rearm := again } }
  else if s.prb.ilkOk then
    { s with prb := { s.prb with arm := .ampDelay, rearm := again }, pads := { s.pads with ldEn := true } }
  else { s with prb := { s.prb with arm := .waitIlk, rearm := again } }

/-- The enables and the probe outputs fall (02 R50, R53, R64). -/
def Pads.dark (p : Pads) : Pads :=
  { p with ldEn := false, ampEn := false, gate := false, gateDts := false, muted := true, chirp := none, gateWin := none,
           gateDtsWin := none }

/-- What the arming becomes at a trip (02 R53, R55): it starts again by itself where the record says so; without emission nothing is
armed and the timing of R520 goes on. -/
def armTripped (s : State) : Arm :=
  if !s.emits then s.prb.arm
  else match s.prb.arm with
    | .off => .off
    | _ => if s.conf.laser.autoResume = 1 then .waitIlk else .tripped

/-- A low on ILK_N that passes the filter (02 R52, R53). -/
def ilkLow (s : State) : State :=
  if !s.prb.ilkOk then { s with pads := { s.pads with ilkN := false } }
  else
    let s := { s with
      pads := { s.pads.dark with ilkN := false }
      rxf := s.rxf.suspend
      prb := { s.prb with
        ilkOk := false, ilkTripped := true, launching := false, arm := armTripped s, rearm := s.prb.epoch.isSome
        int := s.prb.int.raise 0 } }
    s.log 0x0201 0 0 (leBytes 8 s.prb.lastLaunch)

/-- ILK_N has been high for 10 ms (02 R52; 20 R440): it qualifies from the first configured state on, and step 1 of an arming that
waits follows. -/
def ilkQualify (s : State) : State :=
  if s.prb.ilkOk || !s.isConfigured then s else
  let s := { s with
    pads := { s.pads with ilkN := true }
    prb := { s.prb with ilkOk := true, ilkTripped := false, int := s.prb.int.raiseIf s.prb.ilkTripped 1 } }
  if s.prb.arm = .waitIlk then armStart s s.prb.rearm else s

/-- LD_AMP_DELAY has passed (02 R54, R520). -/
def ampOn (s : State) : State :=
  if s.prb.arm ≠ .ampDelay then s else
  { s with prb := { s.prb with arm := .settle, settleFrom := s.tim.tick }, pads := { s.pads with ampEn := s.emits } }

/-- AMP_SETTLE has passed (02 R41, R54, R520; 21 R456, R460): the epoch is set, or the first launch instant of the running schedule is
awaited. -/
def settleEnd (s : State) : State :=
  if s.prb.arm ≠ .settle then s else
  let s := { s with prb := { s.prb with arm := if s.emits then .waitLaunch else .off } }
  if s.prb.epoch.isSome then s
  else match s.cas.stateSeen with
    | some st =>
      if s.cas.joined && !s.cas.master then
        let s := takeSchedule s st
        gridOnMaster s st.ns s.prb.nextR
      else s
    | none => s

/-- Outside a cascade, and on the master, E is the first multiple of 16 at or after the end of AMP_SETTLE (02 R41); another member
waits for STATE (21 R460). -/
def setEpoch (s : State) : State :=
  if s.prb.epoch.isSome || (s.conf.cascade.role != 0 && s.cas.joined && !s.cas.master) then s
  else { s with prb := { s.prb with
      epoch := some (alignUp s.tim.tick 16), m := 0, nextR := 0, j := 0, boundaryDone := false
      segs := [{ r0 := 0, m0 := 0, s := s.conf.probe.slots }] } }

/-- AMP_SETTLE_END. -/
def ampSettleEnd (s : State) : State := if s.prb.arm ≠ .settle then s else setEpoch (settleEnd s)

/-- LASER_ARM (02 R55). -/
def laserArm (s : State) : State × Response :=
  if !s.emits then (s, plain .denied)
  else if s.prb.arm = .tripped ∧ s.acquiring then (armStart s s.prb.epoch.isSome, plain .deferred)
  else (s, plain .ok)

/-! ### The launch monitor (02 R46) -/

/-- 64 ticks in ps. -/
def lmonLimit : Int := 16000

/-- round_half_even of the mean of the measurements (02 R46). -/
def lmonMean (l : List Nat) : Int := roundEven (l.sum : Nat) l.length

/-- A valid measurement of D ps (02 R46). -/
def lmonMeasure (s : State) (d : Nat) : State :=
  let p := { s.prb with lmonD := d, lmonMissRun := 0, lmonOpen := false }
  let ref : Int := s.conf.probe.lmonRef
  if p.lmonFrozen then
    let good := if within ((d : Int) - ref) lmonLimit then d :: p.lmonGood else []
    if 16 ≤ good.length then
      { s with prb := { p with lmonFrozen := false, lmonGood := [], lmonSet := good.take 16, lmonDrift := lmonMean (good.take 16) - ref } }
    else { s with prb := { p with lmonGood := good } }
  else
    let l := (d :: p.lmonSet).take 16
    let drift := lmonMean l - ref
    if within drift lmonLimit then { s with prb := { p with lmonSet := l, lmonDrift := drift } }
    else { s with prb := { p with lmonFrozen := true, lmonGood := [], int := p.int.raise 6 } }

/-- A rising edge on LAUNCH_MON (02 R46; 16 R355): D = C·4,000 ps + f_start − f_stop, in whole ps (log 12). An
edge that the channel does not measure (16 R357) is no miss and gives no D (DESIGN CHOICE, log 83). -/
def launchMonEdge (s : State) (m : TdcIn) : State :=
  if !s.prb.lmonOpen then s else
  let (s, e) := s.tdcEdge 0 m
  match e with
  | .measured _ f c =>
    let x := s.prb.lmonTick
    let num : Int := ((c : Int) * 4000 + (16 - (x % 16 : Nat)) * 250) * f.2 - f.1
    let d := if f.2 = 0 then 0 else roundDiv num f.2
    if c < 2 ^ 28 ∧ 0 ≤ d ∧ d ≤ 4095 * 250 then lmonMeasure s d.toNat else s
  | .coarse _ =>
    if s.tim.tick ≤ s.prb.lmonTick + 4095 then
      { s with prb := { s.prb with lmonOpen := false, lmonMissRun := 0, lmonGood := [] } } else s
  | .skipped => s

/-- The window of 4,095 ticks closes without an edge (02 R46; 01 R26). -/
def lmonWindowEnd (s : State) : State :=
  if !s.prb.lmonOpen then s else
  let s := s.expire (s.prb.lmonTick + 4095)
  let run := s.prb.lmonMissRun + 1
  let stop : Bool := run == 16
  { s with prb := { s.prb with
      lmonOpen := false, lmonMissRun := run, lmonMisses := satAdd 16 s.prb.lmonMisses 1, lmonGood := []
      lmonFrozen := s.prb.lmonFrozen || stop, int := s.prb.int.raiseIf stop 5 } }

/-- The shift of the capture windows moves by at most one tick at a boundary (02 R46). -/
def lmonShift (s : State) : State :=
  let p := s.prb
  let want := roundEven p.lmonDrift 250
  let off := p.lmonDrift - 250 * p.lmonApplied
  if s.conf.probe.lmonEn = 0 ∨ p.lmonFrozen = true ∨ want = p.lmonApplied ∨ (-750 < 4 * off ∧ 4 * off < 750) then s
  else { s with prb := { p with lmonApplied := p.lmonApplied + if p.lmonApplied < want then 1 else -1 } }

/-! ### Amendments at a boundary (02 R58, R59; 07 R167; 08 R189; 09 R214; 10 R236; 11 R253; 19 R421) -/

/-- An amendment has taken effect: counted, its request applied at the index. -/
def amendDone (s : State) (req index : Nat) : State :=
  ({ s with cfg := { s.cfg with amends := satAdd 16 s.cfg.amends 1 } } : State).setReq req .applied index

/-- TIL_X, in position-samples/s (05 R132). -/
def ProbeRec.throughput (p : ProbeRec) : Nat := if p.ttr = 0 then 0 else p.p * p.slots * 4000000000 / p.ttr

/-- GATE_DTS rises so many ticks after its trace-period boundary (02 R48). -/
def ProbeRec.gateDts (p : ProbeRec) : Nat := p.dtsPos * p.interval + p.dtsDelay

/-- The average in progress is discarded at the boundary of trace period m; accumulation resumes with the next aligned one (11 R244). -/
def dtsDiscardAt (s : State) (m : Nat) : State := dtsDiscard s (nAvg s.conf.dts) (ceilDiv m (nAvg s.conf.dts))

/-- The probe-comb settings change from launch index r of trace period m on, apart from training (02 R58, R59). -/
def applyProbe (s : State) (q : ProbeRec) (r m : Nat) : State :=
  let p := s.conf.probe
  let plan : Bool := q.plan != p.plan
  let pitch : Bool := q.pitchLog2 != p.pitchLog2
  let chirp : Bool := q.nc != p.nc || q.dir != p.dir || q.taper != p.taper
  let s := { s with
    conf := { s.conf with probe := q }
    prb := { s.prb with
      segs := if plan then { r0 := r, m0 := m, s := q.slots } :: s.prb.segs else s.prb.segs
      int := s.prb.int.raise 3 }
    til := { s.til with x := q.throughput }
    coh := { s.coh with segs := { r0 := r, phase := s.conf.phase, probe := q } :: s.coh.segs }
    rxf := { s.rxf with beyond := s.rxf.beyond.map fun e => (ceilDiv e.2 q.pitch, e.2) }
    dts := { s.dts with phi := dtsPhase (q.gateDts + s.conf.dts.offset) } }
  let s := if plan || pitch || chirp then qsClearRefs s else s
  let s := if plan || pitch || q.ng != p.ng then internalRestart s r else s
  let s := if q.dtsPos ≠ p.dtsPos ∨ q.dtsDelay ≠ p.dtsDelay ∨ q.dtsWidth ≠ p.dtsWidth ∨ q.gateDts ≠ p.gateDts
    then dtsDiscardAt s m else s
  if plan then
    let s := if s.qsWanted then s else qsResetWindows s r m false
    evalThin { s with qss := { s.qss with running := s.qsWanted } }
  else s

/-- The training restart a probe-comb amendment brings (02 R58; 08 R179): none, or whether thresholds are cleared. -/
def probeRestart (p q : ProbeRec) : List (Option (List Nat) × Bool) :=
  if q.plan ≠ p.plan ∨ q.pitchLog2 ≠ p.pitchLog2 ∨ q.nc ≠ p.nc ∨ q.dir ≠ p.dir ∨ q.taper ≠ p.taper then [(none, true)]
  else if q.lotTable ≠ p.lotTable ∨ q.offset ≠ p.offset then [(none, false)]
  else []

/-- The probe-comb amendment at a boundary: the state, whether it was applied, and the restarts it brings. -/
def probeBoundary (s : State) (r m : Nat) : State × Bool × List (Option (List Nat) × Bool) :=
  match s.prb.pend with
  | none => (s, false, [])
  | some a =>
    if !a.ready then (s, false, [])
    else
      let l := probeRestart s.conf.probe a.conf.probe
      let s := applyProbe { s with prb := { s.prb with pend := none } } a.conf.probe r m
      (amendDone s a.req r, true, l)

/-- An amendment whose own 2 ms have passed at tick `t` (08 R189). -/
def PendAmend.due (a : PendAmend) (t : Nat) : Bool := decide (a.tick + 2 * msTicks ≤ t)

/-- The WINDOW amendment at a boundary (07 R167). -/
def windowBoundary (s : State) (t r : Nat) (withProbe : Bool) : State × Bool :=
  match s.coh.winPend with
  | none => (s, false)
  | some a =>
    if (a.ready && a.due t) || (!a.ready && (withProbe || s.prb.pend.isNone)) then
      let s := { s with
        conf := { s.conf with window := a.conf.window }
        coh := { s.coh with
          winPend := none, refBuilds := if withProbe then s.coh.refBuilds else satAdd 16 s.coh.refBuilds 1
          int := (s.coh.int.raise 1).raiseIf (!withProbe) 0 } }
      (amendDone (qsClearRefs s) a.req r, true)
    else (s, false)

/-- The PHASE amendment at a boundary (08 R189): the state, and whether GAUGE changed. -/
def phaseBoundary (s : State) (t r : Nat) (joined : Bool) : State × Bool :=
  match s.coh.phPend with
  | none => (s, false)
  | some a =>
    if (a.ready && a.due t) || (!a.ready && (joined || (s.prb.pend.isNone && s.coh.winPend.isNone))) then
      let p := s.conf.phase
      let q := a.conf.phase
      let s := { s with
        conf := { s.conf with phase := q }
        coh := { s.coh with
          phPend := none, segs := { r0 := r, phase := q, probe := s.conf.probe } :: s.coh.segs, phInt := s.coh.phInt.raise 2 } }
      let s := if q.quantity ≠ p.quantity ∨ q.rawLsb ≠ p.rawLsb ∨ q.ss ≠ p.ss ∨ q.lambda ≠ p.lambda then internalRestart s r else s
      (amendDone s a.req r, q.gauge != p.gauge)
    else (s, false)

/-- A DECIMATION amendment takes effect at index r (09 R214). -/
def decApply (s : State) (r : Nat) (a : PendAmend) : State :=
  let p := s.conf.dec
  let q := a.conf.dec
  let s := { s with
    conf := { s.conf with dec := q }
    dec := { s.dec with fills := if q.fillPct = p.fillPct then s.dec.fills else (r, q.fillPct) :: s.dec.fills } }
  let s := if q.cicR ≠ p.cicR ∨ q.firDf ≠ p.firDf then internalRestart s r else s
  amendDone s a.req r

/-- The DECIMATION amendments due at a boundary, in the order of their acceptance (09 R214; 19 R421). -/
def decBoundary (s : State) (t r : Nat) : State :=
  let l := s.dec.pend.filter fun a => a.due t
  let s := { s with dec := { s.dec with pend := s.dec.pend.filter fun a => !a.due t } }
  l.foldl (fun s a => decApply s r a) s

/-- The QS amendment at a boundary (10 R223, R236). -/
def qsBoundary (s : State) (t r m : Nat) : State :=
  match s.qss.pend with
  | none => s
  | some a =>
    if !a.due t then s
    else
      let p := s.conf.qs
      let q := a.conf.qs
      let s := { s with conf := { s.conf with qs := q }, qss := { s.qss with pend := none } }
      let s := if q.en = p.en ∧ q.nSd = p.nSd ∧ q.window = p.window then s
        else qsResetWindows { s with qss := { s.qss with running := s.qsWanted } } r m s.qsWanted
      amendDone s a.req r

/-- The DTS amendment at a boundary (11 R244, R253). -/
def dtsBoundary (s : State) (t r m : Nat) : State :=
  match s.dts.pend with
  | none => s
  | some a =>
    if !a.due t then s
    else
      let p := s.conf.dts
      let q := a.conf.dts
      let s := { s with conf := { s.conf with dts := q }, dts := { s.dts with pend := none } }
      let s := if q.en = p.en ∧ q.gain = p.gain ∧ q.nAvgLog2 = p.nAvgLog2 then s
        else
          let j := ceilDiv m (nAvg q)
          let s := if s.dts.running then dtsDiscard s (nAvg p) j else { s with dts := s.dts.nextAvg j }
          { s with dts := { s.dts with running := q.present && q.en == 1 } }
      amendDone s a.req r

/-- Every amendment due at a boundary at tick t with first launch r of trace period m; the restarts they bring. -/
def amendBoundary (s : State) (t r m : Nat) : State × List (Option (List Nat) × Bool) :=
  let (s, withProbe, l) := probeBoundary s r m
  let (s, withWin) := windowBoundary s t r withProbe
  let (s, gauge) := phaseBoundary s t r (withProbe || withWin)
  let s := decBoundary s t r
  let s := qsBoundary s t r m
  let s := dtsBoundary s t r m
  (rxfBoundary s t, l ++ (if withWin then [(none, true)] else []) ++ (if gauge then [(none, false)] else []))

/-- Outside acquisition every deferred amendment takes effect at the next acquisition start, with reported index 0 (19 R422): the
settings in force change. -/
def amendAtStart (s : State) : State :=
  let c := s.conf
  let probe := (s.prb.pend.map fun a => a.conf.probe).getD c.probe
  let window := (s.coh.winPend.map fun a => a.conf.window).getD c.window
  let phase := (s.coh.phPend.map fun a => a.conf.phase).getD c.phase
  let dec := (s.dec.pend.getLast?.map fun a => a.conf.dec).getD c.dec
  let qs := (s.qss.pend.map fun a => a.conf.qs).getD c.qs
  let dts := (s.dts.pend.map fun a => a.conf.dts).getD c.dts
  let zon := s.zon.pend.map PendAmend.conf
  let reqs := (([s.prb.pend, s.coh.winPend, s.coh.phPend, s.qss.pend, s.dts.pend, s.zon.pend].filterMap id) ++ s.dec.pend).map
    PendAmend.req
  let restart := probeRestart c.probe probe
  let clear : Bool := restart.any (·.2) || s.coh.winPend.isSome
  let ready := match s.prb.pend with | some a => !a.ready | none => s.coh.winPend.isSome
  let s := { s with
    conf := { c with
      probe := probe, window := window, phase := phase, dec := dec, qs := qs, dts := dts
      zones := (zon.map Conf.zones).getD c.zones, filters := (zon.map Conf.filters).getD c.filters
      zparams := (zon.map Conf.zparams).getD c.zparams }
    prb := { s.prb with pend := none, int := s.prb.int.raiseIf s.prb.pend.isSome 3 }
    coh := { s.coh with
      winPend := none, phPend := none, refBuilds := if ready then satAdd 16 s.coh.refBuilds 1 else s.coh.refBuilds
      int := (s.coh.int.raiseIf s.coh.winPend.isSome 1).raiseIf ready 0, phInt := s.coh.phInt.raiseIf s.coh.phPend.isSome 2 }
    dec := { s.dec with pend := [] }
    qss := { s.qss with pend := none }
    dts := { s.dts with pend := none }
    zon := { s.zon with pend := none, int := s.zon.int.raiseIf s.zon.pend.isSome 3 } }
  let s := reqs.foldl (fun s q => amendDone s q 0) s
  let s := rxfBoundary s s.tim.tick
  if clear then qsClearRefs s else s

/-- The shadow waveform tables of the pending probe-comb amendment are built (02 R59; 07 R167). -/
def tablesReady (s : State) : State :=
  match s.prb.pend with
  | none => s
  | some a =>
    if a.ready then s
    else { s with
      prb := { s.prb with pend := some { a with ready := true } }
      coh := { s.coh with refBuilds := satAdd 16 s.coh.refBuilds 1, int := s.coh.int.raise 0 } }

/-! ### The end of launches (20 R429) -/

/-- Launches end at the boundary at tick t: the pads fall, and what was not complete before it does not run. -/
def endLaunches (s : State) (t : Nat) : State :=
  let s := dispatchPass s t
  let x := { s.til with cut := some t }
  let runs (e : Nat × Nat) : Bool :=
    match x.shot e.1 with
    | some sh => !x.isCut sh e.2
    | none => false
  let x := { x with waiting := x.waiting.filter runs }
  dropShots { s with
    pads := s.pads.dark
    rxf := s.rxf.suspend
    til := x
    prb := { s.prb with launching := false, arm := .off, lmonOpen := false }
    pwr := { s.pwr with stopped := true, draining := s.pwr.stopTo == .survey } }

/-! ### Launch positions (02 R39 to R50; 05 R109, R110, R123) -/

/-- The shot of index r enters the tiller array: its sheaves wait for their input, or its rows are replaced (05 R109, R123, R130). -/
def addShot (s : State) (sh : Shot) : State :=
  let n := s.conf.probe.nblocks
  let place (fl : Nat) : Row := { r := sh.r, data := [], fl := fl, placeholder := true, gap := false }
  let put (x : Til) (b : Nat) (fl : Nat) : Til :=
    let w := x.win b
    x.setWin b { w with done := w.done ++ [place fl] }
  let x := { s.til with shots := s.til.shots ++ [sh] }
  let x := (List.range n).foldl (fun x b =>
    if sh.muted then put x b qHeld
    else if sh.blocks ≤ b then put x b qCorrupt
    else if sh.thinned then put x b qDegraded
    else { x with waiting := x.waiting ++ [(sh.r, b)] }) x
  { s with
    til := x
    rxf := { s.rxf with profiles := s.rxf.profiles ++
      [{ r := sh.r, blocks := sh.blocks, bins := [], released := 0, bad := false }] } }

/-- Light is launched at this position, or resumes or begins there (02 R54 step 4, R56; 03 R76; 08 R179). -/
def lightOn (s : State) (r m j t : Nat) : State :=
  if s.prb.arm ≠ .waitLaunch then s else
  let first := !s.prb.launched
  let s := { s with prb := { s.prb with
      arm := .armed, launching := true, launched := true, int := s.prb.int.raiseIf s.drives 2 } }
  let s := rxfLaunchBegin s t
  if s.standbyRole then { s with cas := { s.cas with hot := if first then s.cas.hot else [] } }
  else restartTraining s r m j [(none, first)]

/-- The launch position of raw-sample index r: position j of trace period m, at tick t. -/
def launchAt (s : State) (r m j t : Nat) (raman : List (Nat × Nat)) : State :=
  let s := s.advance t
  let s := lightOn (dispatchPass s t) r m j t
  let p := s.conf.probe
  let lit := s.prb.arm == .armed
  let out := lit && s.drives
  let slot := nth p.lotTable j 0
  let sh : Shot := {
    r := r, tick := t, c0 := (t : Int) + p.launchOffset + s.prb.lmonApplied, m := m, j := j, slot := slot,
    muted := !lit, thinned := s.til.thins r, blocks := s.til.blocksAt r, probe := p, phase := s.conf.phase,
    window := s.conf.window, beyond := s.rxf.beyond.map Prod.fst }
  let s := addShot s sh
  let measured := p.lmonEn == 1 && j == 0 && (out || (s.standbyRole && s.prb.ilkOk))
  let dts := out && s.dts.running && j == p.dtsPos
  let last := decide (p.slots ≤ j + 1)
  let s := { s with
    pads := { s.pads with
      muted := !out, gate := out, chirp := if out then some (chirpOf p r slot t) else none
      gateWin := if out then some (-(p.gateLead : Int), (p.nc : Int) + p.gateTrail) else none
      gateDts := if j = 0 then dts else s.pads.gateDts || dts
      gateDtsWin := if dts then some (p.gateDts, p.gateDts + p.dtsWidth) else if j = 0 then none else s.pads.gateDtsWin }
    prb := { s.prb with
      rawIdx := r, nextR := r + 1, m := if last then m + 1 else m, j := if last then 0 else j + 1
      boundaryDone := !last, lastLaunch := if out then r else s.prb.lastLaunch
      lmonOpen := if j = 0 then measured else s.prb.lmonOpen
      lmonTick := if measured then t else s.prb.lmonTick } }
  if dts then dtsTrace s m r (t + p.dtsDelay) raman else s

end Sys2Proof.Machine
end

