-- ==== Sys2Proof/Machine/Amend.lean ====
section
/-! DEFINITION. Amendments of the settings in force: groups, validation, acceptance, superseding (19 R420 to R422), with the
amendment rule of every record, and the fingerprint a cascade compares (21 R455). -/

namespace Sys2Proof.Machine

/-! ### The fingerprint (21 R455) -/

/-- A zone entry as its 32 bytes (12 R255). -/
def ZoneEntry.bytes (z : ZoneEntry) : List Byte :=
  let bs := z.bands
  let filt := (bs.map fun (e : Nat × ZoneBand) => e.2.filt * 2 ^ (4 * e.1)).sum
  let act := (bs.map fun (e : Nat × ZoneBand) =>
    (b2n e.2.en + 2 * b2n e.2.event + 4 * b2n e.2.record + 8 * b2n e.2.trigout) * 2 ^ (4 * e.1)).sum
  leBytes 3 z.start ++ leBytes 1 (b2n z.en + 2 * b2n z.reduce + 4 * b2n z.reportRearm) ++ leBytes 3 z.len ++ leBytes 1 z.hyst ++
  leBytes 2 filt ++ leBytes 2 act ++ leBytes 1 z.persist ++ zeros 1 ++ leBytes 2 z.tag ++
  bs.flatMap fun (e : Nat × ZoneBand) => leBytes 2 e.2.low ++ leBytes 2 e.2.high

/-- The body of a loaded FIR record. -/
def FirRec.bytes (f : FirRec) : List Byte :=
  if f.loaded then leBytes 2 f.gd ++ leBytes 2 f.h.length ++ f.h.flatMap fun x => leBytes 2 (ofInt 16 x) else []

/-- What the fingerprint of a role is the SHA-256 of (21 R455); nothing outside a cascade. A zone or filter table stands as one part
from entry 0 on (log 25). -/
def fingerBytes (c : Conf) : List Byte :=
  let p := c.probe
  let nat (l : List Nat) : List Byte := l.flatMap fun n => leBytes 4 n
  let wide := nat ([p.plan, p.pitchLog2, p.ttr] ++ p.lotTable ++
    [c.time.refSel, c.time.tdc3Sel, c.dec.syncSrc, c.dec.cicR, c.dec.firDf, c.cascade.members])
  match c.cascade.role with
  | 0 => []
  | 1 => wide
  | 2 => wide ++ nat [c.dts.pDts, c.dts.nAvgLog2, c.dts.deEn, c.dts.loopSpan]
  | _ =>
    wordBytes p.words ++ (p.amp.flatMap fun a => leBytes 2 a) ++ (p.lot.flatMap fun a => leBytes 1 a) ++
    (leBytes 1 c.laser.emit ++ leBytes 1 c.laser.autoResume ++ leBytes 2 c.laser.ldAmpDelay ++ leBytes 2 c.laser.ampSettle ++ zeros 2) ++
    wordBytes c.receiver.words ++ leBytes 4 c.window ++ wordBytes c.phase.words ++ wordBytes c.dec.words ++ c.firA.bytes ++
    c.firB.bytes ++ c.firM.bytes ++ (if c.qs.present then wordBytes c.qs.words else []) ++
    (if c.dts.present then wordBytes c.dts.words else []) ++
    (leBytes 2 0 ++ leBytes 2 4096 ++ zeros 4 ++ (List.range 4096).flatMap fun z => (smGet {} c.zones z).bytes) ++
    (leBytes 1 0 ++ leBytes 1 16 ++ zeros 6 ++ (List.range 16).flatMap fun n => wordBytes (smGet [0, 0, 0, 0, 0] c.filters n)) ++
    wordBytes c.zparams.words ++ wordBytes c.acq.words ++
    nat ([c.time.refSel, c.time.ppsPol, c.time.tdc3Sel] ++ c.time.presc) ++ wordBytes c.pair.words ++ nat [c.cascade.members]

/-- The fingerprint (21 R455). -/
def fingerprint (c : Conf) : List Byte := sha256 (fingerBytes c)

/-! ### The settings with what is pending (19 R411) -/

/-- The settings once every pending amendment has taken effect; of a zone amendment only when `zones` asks for it. -/
def State.pendConf (s : State) (zones : Bool) : Conf :=
  let c := s.conf
  let put (a : Option PendAmend) (c : Conf) (f : Conf → Conf → Conf) : Conf := match a with
    | some a => f c a.conf
    | none => c
  let c := put s.prb.pend c fun c d => { c with probe := d.probe }
  let c := put s.coh.winPend c fun c d => { c with window := d.window }
  let c := put s.coh.phPend c fun c d => { c with phase := d.phase }
  let c := put s.dec.pend.getLast? c fun c d => { c with dec := d.dec }
  let c := put s.qss.pend c fun c d => { c with qs := d.qs }
  let c := put s.dts.pend c fun c d => { c with dts := d.dts }
  let c := if zones then put s.zon.pend c fun c d => { c with zones := d.zones, filters := d.filters, zparams := d.zparams } else c
  let c := match s.rxf.pend.getLast? with
    | some a => { c with receiver := a.cfg }
    | none => c
  let c := match s.hka.lenNew with
    | some (_, n) => { c with hk := { c.hk with len := n, cmps := s.cmpsDue } }
    | none => { c with hk := { c.hk with cmps := s.cmpsDue } }
  let streams := (List.range 16).map fun n => match (s.stream n).pend.getLast? with
    | some (_, x) => x
    | none => nth c.streams n {}
  let c := { c with streams := streams }
  let recs := s.cas.commits.flatMap Committed.recs
  recs.foldl (fun c r => (c.put { type := r.type, inst := r.inst, flags := 0, body := r.body }).getD c) c

/-- AMENDED: the settings in force differ from the active image's (19 R422). -/
def State.amended (s : State) : Bool := match s.cfg.image with
  | some c => s.conf != c
  | none => false

/-! ### Validation of an amendment (19 R411, R421) -/

/-- A record type with an amendment rule (19 R410). -/
def amendable (type : Nat) : Bool :=
  [0x10, 0x12, 0x13, 0x14, 0x15, 0x16, 0x17, 0x18, 0x19, 0x1A, 0x1B, 0x1C, 0x1D, 0x20, 0x22, 0x23, 0x25, 0x26, 0x28].contains type

/-- The three records one zone amendment may hold together (19 R420). -/
def zoneType (type : Nat) : Bool := type == 0x19 || type == 0x1A || type == 0x1B

/-- The fields of a record that cannot be amended equal those in force (02 R58; 09 R214; 10 R233; 11 R253; 13 R292; 14 R314; 15 R339;
21 R476). -/
def fixedSame (a b : Conf) (type inst : Nat) : Bool :=
  match type with
  | 0x10 =>
    a.probe.ttr == b.probe.ttr && a.probe.p == b.probe.p && a.probe.launchOffset == b.probe.launchOffset &&
    a.probe.qInv == b.probe.qInv && a.probe.lmonRef == b.probe.lmonRef && a.probe.lmonEn == b.probe.lmonEn
  | 0x15 => a.dec.taps == b.dec.taps && a.dec.bankInit == b.dec.bankInit && a.dec.syncSrc == b.dec.syncSrc
  | 0x17 => a.qs.present
  | 0x18 =>
    a.dts.present && a.dts.pDts == b.dts.pDts && a.dts.offset == b.dts.offset && a.dts.coilRtd == b.dts.coilRtd &&
    a.dts.deEn == b.dts.deEn && a.dts.loopSpan == b.dts.loopSpan
  | 0x1C => a.acq.histGib == b.acq.histGib && a.acq.recStoreGib == b.acq.recStoreGib && a.acq.rawcapGib == b.acq.rawcapGib
  | 0x1D => a.dram.chmask == b.dram.chmask && a.dram.bkmask == b.dram.bkmask
  | 0x20 => (nth a.streams inst {}).stype == (nth b.streams inst {}).stype && (nth a.streams inst {}).auth == (nth b.streams inst {}).auth
  | 0x28 => a.pair.arbMode == b.pair.arbMode
  | _ => true

/-- The response data of a rejection after REQ_ID, laid out as the words of CFG_REJ (19 R412, R423). -/
def Rej.bytes (r : Rej) : List Byte := leBytes 1 (r.step % 16) ++ leBytes 1 r.inst ++ leBytes 2 r.type ++ leBytes 4 r.ofs

/-- Outside acquisition no bank is in force before the first acquisition (09 R201). -/
def State.firBusy (s : State) (b : Nat) : Bool :=
  (if s.dec.bankSet || s.acquiring then s.dec else { s.dec with bank := 3 }).bankBusy b s.conf.probe.nblocks

/-- What validation makes of an amendment. -/
inductive Verdict where
  /-- Refused, with the result and the data after REQ_ID. -/
  | refuse (r : Result) (data : List Byte)
  /-- Valid: the settings with everything pending and the amendment in place. -/
  | valid (c : Conf)
  deriving DecidableEq, Repr

/-- Refused with INVALID and the rejection. -/
def invalidFor (r : Rej) : Verdict := .refuse .invalid r.bytes

/-- Validation of the records of a group (19 R411 from step 4 on, R421). -/
def amendVerdict (s : State) (recs : List RawRec) : Verdict :=
  match recs.find? fun r => match instCount r.type with | some n => decide (n ≤ r.inst) | none => true with
  | some r => invalidFor (rejRec 4 r.type r.inst)
  | none =>
    if !recs.all fun r => amendable r.type then .refuse .unsupported []
    else match putAll recs (s.pendConf (!recs.any fun r => zoneType r.type)) with
      | .error r => invalidFor (rejRec 4 r.type r.inst)
      | .ok c =>
        match recs.find? fun r => !fixedSame s.conf c r.type r.inst with
        | some r => invalidFor { rejFree 4 r.type with type := r.type, inst := r.inst }
        | none =>
          if recs.any fun r => r.type == 0x16 && s.firBusy r.inst then .refuse .busy []
          else match firstRej (recs.flatMap (recRanges c)) with
            | some r => invalidFor r
            | none => match laterSteps s.vctx c with
              | some r => if r.step = 7 ∧ claimsOk c = false then .refuse .conflict r.bytes else invalidFor r
              | none => .valid c

/-! ### Acceptance -/

/-- A replaced request is reported as SUPERSEDED (18 R401). -/
def State.supersede (s : State) (a : Option PendAmend) : State := match a with
  | some a => s.setReq a.req .superseded 0
  | none => s

/-- The tick at which a WINDOW or PHASE amendment accepted now may take effect: its own 2 ms, or with the one already pending. -/
def State.probeReport (s : State) : Nat := match s.prb.pend with
  | some a => if a.ready then s.boundaryReport s.tim.tick else s.boundaryReport (max s.tim.tick (a.tick + 2 * msTicks))
  | none => s.boundaryReport (s.tim.tick + 2 * msTicks)

/-- The amendment of one record accepted (19 R421): the state, whether it waits for a boundary, and the index reported. `c` holds the
settings with it in place. -/
def acceptRec (s : State) (req : Nat) (c : Conf) (type inst : Nat) : State × Bool × Nat :=
  let tick := s.tim.tick
  let own := s.boundaryReport (tick + 2 * msTicks)
  let new (ready : Bool) : Option PendAmend := some { req := req, conf := c, tick := tick, ready := ready }
  let now (conf : Conf) : State × Bool × Nat := (amendDone { s with conf := conf } req 0, false, 0)
  match type with
  | 0x10 =>
    let t := s.supersede s.prb.pend
    ({ t with prb := { t.prb with pend := new false, int := t.prb.int.raiseIf s.prb.pend.isSome 4 } }, true, own)
  | 0x12 =>
    ({ s with rxf := { s.rxf with pend := s.rxf.pend ++ [{ req := req, cfg := c.receiver }] } }, true, s.boundaryReport tick)
  | 0x13 =>
    let t := s.supersede s.coh.winPend
    ({ t with coh := { t.coh with winPend := new s.prb.pend.isNone, int := t.coh.int.raiseIf s.coh.winPend.isSome 2 } }, true,
      if s.prb.pend.isSome then s.probeReport else own)
  | 0x14 =>
    let t := s.supersede s.coh.phPend
    let alone : Bool := s.prb.pend.isNone && s.coh.winPend.isNone
    ({ t with coh := { t.coh with phPend := new alone, phInt := t.coh.phInt.raiseIf s.coh.phPend.isSome 3 } }, true,
      if s.prb.pend.isSome then s.probeReport
      else match s.coh.winPend with
        | some a => s.boundaryReport (max tick (a.tick + 2 * msTicks))
        | none => own)
  | 0x15 => ({ s with dec := { s.dec with pend := s.dec.pend ++ (new true).toList } }, true, own)
  | 0x16 =>
    let t := { s with dec := { s.dec with loads := modAt s.dec.loads inst fun n => satAdd 16 n 1 } }
    (amendDone { t with conf := match inst with
      | 0 => { s.conf with firA := c.firA }
      | 1 => { s.conf with firB := c.firB }
      | _ => { s.conf with firM := c.firM } } req 0, false, 0)
  | 0x17 =>
    let t := s.supersede s.qss.pend
    ({ t with qss := { t.qss with pend := new true, int := t.qss.int.raiseIf s.qss.pend.isSome 5 } }, true, own)
  | 0x18 =>
    let t := s.supersede s.dts.pend
    ({ t with dts := { t.dts with pend := new true, int := t.dts.int.raiseIf s.dts.pend.isSome 5 } }, true, own)
  | 0x1C => now { s.conf with acq := c.acq }
  | 0x1D => now { s.conf with dram := c.dram }
  | 0x20 =>
    let x := nth c.streams inst {}
    if (s.net.running ∧ (s.strCfg inst).en = 1) ∨ (s.stream inst).part.isSome then
      (s.modStream inst fun y => { y with pend := y.pend ++ [(req, x)] }, false, 0)
    else (applyStream s inst req x, false, 0)
  | 0x22 =>
    let old := s.conf.hk
    let t := match s.hka.lenNew with
      | some (q, _) => s.setReq q .superseded 0
      | none => s
    let t := t.cmpAmend c.hk.cmps
    let t := { t with
      conf := { t.conf with hk := { c.hk with len := old.len, cmps := old.cmps } }
      hka := { t.hka with
        lenNew := if c.hk.len = t.hka.len then none else some (req, c.hk.len)
        int := t.hka.int.raiseIf s.hka.lenNew.isSome 4 } }
    if c.hk.len = t.hka.len then (amendDone t req 0, false, 0) else (t, true, 0)
  | 0x23 => now { s.conf with rtd := modAt s.conf.rtd inst fun _ => nth c.rtd inst {} }
  | 0x25 => now { s.conf with gpio := c.gpio }
  | 0x26 => now { s.conf with power := c.power }
  | 0x28 => now { s.conf with pair := c.pair }
  | _ => (s, false, 0)

/-- The first output whose interval begins at least 2 ms after now, as far as it is known (12 R269). -/
def State.zoneReport (s : State) : Nat := match s.zon.pend with
  | some a => (s.zoneAmendQ a).getD 0
  | none => 0

/-- A zone amendment accepted: it replaces a pending one whole (12 R269). -/
def acceptZones (s : State) (req : Nat) (c : Conf) : State × Bool × Nat :=
  let t := s.supersede s.zon.pend
  let t := { t with zon := { t.zon with
      pend := some { req := req, conf := c, tick := s.tim.tick, ready := true }, int := t.zon.int.raiseIf s.zon.pend.isSome 4 } }
  (t, true, if s.prb.epoch.isSome then t.zoneReport else 0)

/-- A valid amendment accepted (19 R421): its records in order; DEFERRED when one of them waits. -/
def acceptGroup (s : State) (req : Nat) (c : Conf) (recs : List RawRec) : State × Bool × Nat :=
  if recs.any fun r => zoneType r.type then acceptZones s req c
  else recs.foldl (fun (a : State × Bool × Nat) r =>
    let (t, w, i) := acceptRec a.1 req c r.type r.inst
    (t, a.2.1 || w, max a.2.2 i)) (s, false, 0)

/-- An amendment refused: counted, its request marked (19 R423; 18 R401). -/
def refuseAmend (s : State) (req : Nat) (r : Result) (data : List Byte) : State × Response :=
  let s := { s with cfg := { s.cfg with refused := satAdd 16 s.cfg.refused 1, int := s.cfg.int.raise 5 } }
  (s.setReq req .refused 0, withData r (leBytes 4 req ++ data))

/-- The records of a group as raw records. -/
def GroupRec.raw (g : GroupRec) : RawRec := { type := g.type, inst := g.inst, flags := 0, body := g.body }

/-- Members that have joined, other than this one (21 R456). -/
def State.joinedRanks (s : State) : List Nat :=
  (List.range 16).filter fun n => n != s.conf.cascade.rank && (nth s.cas.members n {}).present && (nth s.cas.members n {}).joined

/-- A committed amendment takes effect at the boundary of trace period `period`; outside acquisition at the next acquisition start, or
at once where its rule says so (21 R461; 19 R422). -/
def commitAmend (s : State) (c : Committed) : State :=
  if s.prb.epoch.isSome then { s with cas := { s.cas with commits := s.cas.commits ++ [c] } }
  else match amendVerdict s (c.recs.map GroupRec.raw) with
    | .valid d => (acceptGroup s c.req d (c.recs.map GroupRec.raw)).1
    | .refuse _ _ => s.setReq c.req .refused 0

/-- The first trace-period boundary at least 5 ms ahead (21 R461). -/
def State.commitPeriod (s : State) : Nat := s.boundaryFrom (s.tim.tick + 5 * msTicks)

/-- JOIN_REQ to the master (21 R456 step 2). -/
def sendJoin (s : State) : State :=
  let f := fingerprint s.conf
  ({ s with cas := { s.cas with sentFinger := f } } : State).sendRing (.joinReq {
    serial := s.fact.serial, fw := s.fact.fwVersion, rank := s.conf.cascade.rank, role := s.conf.cascade.role, fingerprint := f })

/-- A refused member repeats JOIN_REQ at once after a change of its fingerprint (21 R457). -/
def rejoin (s : State) : State :=
  if s.conf.cascade.role = 0 ∨ s.cas.refuse = 0 ∨ s.cas.joined ∨ fingerprint s.conf = s.cas.sentFinger then s else sendJoin s

/-- The master sends AMEND_COMMIT and answers DEFERRED (21 R461). -/
def commitOwn (s : State) (req : Nat) (recs : List GroupRec) : State × Response :=
  let m := s.commitPeriod
  let idx := s.boundaryReport (s.tim.tick + 5 * msTicks)
  let s := commitAmend (s.sendRing (.amendCommit m)) { req := req, recs := recs, period := m }
  (s, withData .deferred (reqData req idx))

/-- A complete group: refused, accepted, or proposed to the members of a cascade (19 R421; 21 R461; 02 R62). -/
def submitGroup (s : State) (x : Session) (seq req : Nat) (recs : List GroupRec) : State × Option Response :=
  let raw := recs.map GroupRec.raw
  let some' (r : State × Response) : State × Option Response := (r.1, some r.2)
  if s.cfg.activeSlot = 2 then some' (refuseAmend s req .denied [])
  else if !s.isConfigured then some' (refuseAmend s req .busy [])
  else match amendVerdict s raw with
    | .refuse r d => some' (refuseAmend s req r d)
    | .valid c =>
      let shared : Bool := s.conf.cascade.role != 0 && fingerBytes c != fingerBytes (s.pendConf true)
      if shared && s.cas.joined && !s.cas.master then some' (refuseAmend s req .conflict [])
      else if shared && s.cas.joined then
        if s.cas.proposal.isSome then some' (refuseAmend s req .busy [])
        else
          let s := recs.foldl (fun s g => s.sendRing (.amendProp g.type g.inst g.body)) s
          if s.joinedRanks = [] then some' (commitOwn s req recs)
          else ({ s with cas := { s.cas with
                    proposal := some { req := req, tick := s.tim.tick, sid := x.sid, seq := seq, recs := recs, waiting := recs.flatMap fun _ => s.joinedRanks } } }, none)
      else
        let (s, wait, idx) := acceptGroup s req c raw
        (rejoin s, some (withData (if wait then .deferred else .ok) (reqData req idx)))

/-- A part joins the parts of its TYPE and INST (19 R420). -/
def addPart (l : List GroupRec) (type inst : Nat) (body : List Byte) : List GroupRec :=
  if l.any fun g => g.type == type && g.inst == inst then
    l.map fun g => if g.type = type ∧ g.inst = inst then { g with body := g.body ++ body } else g
  else l ++ [{ type := type, inst := inst, body := body }]

/-- A part fits the open group: one row of the record table or the three zone records, at most 1 MiB (19 R420). -/
def fitsGroup (l : List GroupRec) (type : Nat) (body : List Byte) : Bool :=
  (l.all fun g => g.type == type || (zoneType g.type && zoneType type)) &&
  decide ((l.map fun g => g.body.length).sum + body.length ≤ 2 ^ 20)

/-- One part of an AMEND (19 R420). -/
def amendPart (s : State) (x : Session) (seq type inst : Nat) (more : Bool) (group : Nat) (body : List Byte) : State × Option Response :=
  let step (s : State) (req : Nat) (parts : List GroupRec) : State × Option Response :=
    if !fitsGroup parts type body then (s, some (plain .invalid))
    else
      let parts := addPart parts type inst body
      if more then
        (s.modSession x.sid fun y => { y with group := some { req := req, parts := parts } }, some (withData .ok (reqData req 0)))
      else submitGroup (s.modSession x.sid fun y => { y with group := none }) x seq req parts
  match x.group with
  | none =>
    if group ≠ 0 ∨ 2 ^ 20 < body.length then (s, some (plain .invalid))
    else
      let (req, s) := s.newReq
      step s req []
  | some g => if group = g.req then step s g.req g.parts else (s, some (plain .invalid))

/-- AMEND, role OPERATOR (18 R400). -/
def execAmend (h : Hdr) (type inst : Nat) (more : Bool) (group : Nat) (body : List Byte) (s : State) :
    Host.Outcome State Fault Refusal :=
  s.done (s.command h 0x0003 1 fun s x => amendPart s x h.seq type inst more group body)

/-- The status of a request: STATE and index; 4 unknown (18 R401). -/
def reqStatus (s : State) (id : Nat) : List Byte :=
  match s.sec.reqs.find? fun q => q.id == id with
  | some q => leBytes 1 q.state.code ++ leBytes 8 q.index
  | none => leBytes 1 4 ++ leBytes 8 0

/-- AMEND_STATUS, role MONITOR (18 R400, R401). -/
def execAmendStatus (h : Hdr) (reqId : Nat) (s : State) : Host.Outcome State Fault Refusal :=
  s.done (s.command1 h 0x0004 0 fun s _ => (s, withData .ok (reqStatus s reqId)))

/-! ### Pending amendments dropped at image activation (19 R419) -/

/-- Every pending amendment is dropped and reported as SUPERSEDED. -/
def dropPending (s : State) : State :=
  let opts := [s.prb.pend, s.coh.winPend, s.coh.phPend, s.qss.pend, s.dts.pend, s.zon.pend].filterMap id ++ s.dec.pend
  let reqs := opts.map PendAmend.req ++ s.rxf.pend.map PendRx.req ++ (s.hka.lenNew.toList.map Prod.fst) ++
    (s.net.streams.flatMap fun x => x.pend.map Prod.fst) ++ s.cas.commits.map Committed.req
  let t := { s with
    prb := { s.prb with pend := none, int := s.prb.int.raiseIf s.prb.pend.isSome 4 }
    coh := { s.coh with
      winPend := none, phPend := none, int := s.coh.int.raiseIf s.coh.winPend.isSome 2
      phInt := s.coh.phInt.raiseIf s.coh.phPend.isSome 3 }
    dec := { s.dec with pend := [] }
    qss := { s.qss with pend := none, int := s.qss.int.raiseIf s.qss.pend.isSome 5 }
    dts := { s.dts with pend := none, int := s.dts.int.raiseIf s.dts.pend.isSome 5 }
    zon := { s.zon with pend := none, int := s.zon.int.raiseIf s.zon.pend.isSome 4 }
    rxf := { s.rxf with pend := [] }
    hka := { s.hka with lenNew := none, int := s.hka.int.raiseIf s.hka.lenNew.isSome 4 }
    net := { s.net with streams := s.net.streams.map fun (x : Stream) => { x with pend := [] } }
    cas := { s.cas with commits := [] } }
  let t := match t.dec.heldSwap with
    | some h => supersedeSwap { t with dec := { t.dec with heldSwap := none } } h.req
    | none => t
  reqs.foldl (fun s q => s.setReq q .superseded 0) t

end Sys2Proof.Machine
end

