-- ==== Sys2Proof/Machine/Launch.lean ====
section
/-! DEFINITION. Trace-period boundaries, launch positions and the start of an acquisition: what the launch schedule does (02 R39 to
R59; 20 R428, R440). -/

namespace Sys2Proof.Machine

/-! ### Committed amendments of a cascade (21 R461) -/

/-- The amendment with request `req` made due at tick t. -/
def PendAmend.dueAt (t : Nat) (a : Option PendAmend) (req : Nat) : Option PendAmend :=
  a.map fun x => if x.req = req then { x with tick := t - 2 * msTicks, ready := true } else x

/-- A committed amendment is accepted at its boundary, at tick t, and takes effect there (21 R461); one of zones at the first interval
boundary at or after it (12 R269; DEDUCED, log 79). -/
def commitOne (t : Nat) (s : State) (c : Committed) : State :=
  let recs := c.recs.map GroupRec.raw
  match amendVerdict s recs with
  | .refuse _ _ => s.setReq c.req .refused 0
  | .valid d =>
    let built : Bool := recs.any fun r => r.type == 0x10
    let s := (acceptGroup s c.req d recs).1
    { s with
      prb := { s.prb with pend := PendAmend.dueAt t s.prb.pend c.req }
      coh := { s.coh with
        winPend := PendAmend.dueAt t s.coh.winPend c.req, phPend := PendAmend.dueAt t s.coh.phPend c.req
        refBuilds := if built then satAdd 16 s.coh.refBuilds 1 else s.coh.refBuilds, int := s.coh.int.raiseIf built 0 }
      dec := { s.dec with pend := s.dec.pend.map fun x => if x.req = c.req then { x with tick := t - 2 * msTicks } else x }
      qss := { s.qss with pend := PendAmend.dueAt t s.qss.pend c.req }
      dts := { s.dts with pend := PendAmend.dueAt t s.dts.pend c.req }
      zon := { s.zon with pend := PendAmend.dueAt t s.zon.pend c.req } }

/-- The committed amendments of trace period m or earlier, in the order of their commits, at the boundary at tick t. -/
def commitBoundary (s : State) (t m : Nat) : State :=
  let l := s.cas.commits.filter fun c => decide (c.period ≤ m)
  let s := { s with cas := { s.cas with commits := s.cas.commits.filter fun c => !decide (c.period ≤ m) } }
  l.foldl (commitOne t) s

/-! ### Trace-period boundaries (02 R39) -/

/-- A change of k moves the expected end of a training in progress (05 R131). -/
def moveTrainEnd (s : State) (r m k : Nat) : State :=
  if s.coh.allTrained || s.prb.trainEnd ≤ m || s.til.k == k then s else
  let left := s.prb.trainEnd - m
  let n := if s.til.k = 0 then left else left - left / s.til.k
  { s with prb := { s.prb with trainEnd := m + trainPeriods n k r s.conf.probe.slots r } }

/-- A new k takes effect (05 R129); at the epoch k is set in any case. -/
def thinBoundary (s : State) (r m : Nat) : State :=
  match s.til.kPend with
  | some v => applyThin (moveTrainEnd s r m v.1) r v
  | none => if s.til.kSegs = [] then applyThin s r (s.til.k, s.til.blocksRun, s.til.shedding) else s

/-- The restarts asked for that are due at tick t (08 R179). -/
def restartsDue (s : State) (t : Nat) : State × List (Option (List Nat) × Bool) :=
  let due := s.coh.restartPend.filter fun e => decide (e.2.2 ≤ t)
  ({ s with coh := { s.coh with restartPend := s.coh.restartPend.filter fun e => !decide (e.2.2 ≤ t) } },
    due.map fun e => (e.1, e.2.1))

/-- The references are cleared at the boundary after the loss of a polarisation (10 R230). -/
def clearLost (s : State) : State :=
  if s.qss.clearAsked then qsClearRefs { s with qss := { s.qss with clearAsked := false } } else s

/-- STATE, which the master sends at every boundary (21 R450, R460). -/
def sendState (s : State) (m : Nat) : State :=
  if s.conf.cascade.role = 0 ∨ s.cas.master = false then s
  else
    let active :=
      match s.cas.members.findIdx? fun x => x.pairRole == 1 with
      | some i => if s.cas.pairRole = 1 then s.conf.cascade.rank else i
      | none => s.conf.cascade.rank
    s.sendRing (.state {
      epoch := s.t48 s.epochTick, period := m, ns := (s.dec.grids.head?.map Grid.ns).getD 0, trainIdx := s.cas.trainIdx,
      activeRank := active })

/-- The boundary of trace period m at tick t with first launch r, while launches go on (02 R39, R58; 03 R77, R85; 05 R129; 08 R179;
09 R194; 21 R460 to R472). -/
def boundaryGo (s : State) (t r m : Nat) : State :=
  let s := dtsBoundaryClose { s with prb := { s.prb with boundaryDone := true, nextR := r } } m
  let s := installSeeds s r
  let (s, cold) := roleBoundary s r
  let (s, again) := realignBoundary s r
  let s := thinBoundary s r m
  let s := commitBoundary s t m
  let (s, amended) := amendBoundary s t r m
  let (s, asked) := restartsDue (clearLost s) t
  let s := restartTraining s r m 0 (amended ++ asked ++ cold ++ if again then [(none, false)] else [])
  let s := lmonShift (beyondBoundary s)
  let s := zonGridSync (syncBoundary s r)
  qsStartAll (rejoin (sendState s m))

/-- TRACE_PERIOD_BOUNDARY. Launches move to the master's schedule, end, or go on. -/
def boundary (s : State) : State :=
  match s.prb.epoch with
  | none => s
  | some _ =>
    if s.prb.boundaryDone || s.pwr.stopped || (s.pwr.phase != .acquisition && s.pwr.phase != .stopping) then s
    else
      let t := s.boundaryTick s.prb.m
      let s := joinNow (s.advance t)
      if s.pwr.phase = .stopping then endLaunches s t
      else match s.epochDiffers with
        | some st => epochRealign s st
        | none => boundaryGo s t (boundaryIdx s.planSegs s.prb.m) s.prb.m

/-- LAUNCH_POSITION: the next launch position of the schedule, with the boundary it lies on where that has not come yet. -/
def launchPosition (s : State) (raman : List (Nat × Nat)) : State :=
  let s := if s.prb.j = 0 then boundary s else s
  if s.prb.epoch.isNone || !s.prb.boundaryDone || s.pwr.stopped ||
    (s.pwr.phase != .acquisition && s.pwr.phase != .stopping) then s
  else
    let r := s.prb.nextR
    launchAt s r s.prb.m s.prb.j (s.launchTick r) raman

/-! ### Acquisition start (20 R428, R440; 02 R54) -/

/-- The data path as an acquisition finds it (05 R129; 08 R182; 02 R46). The round-robin of R110 begins again at spikelet 0 (DESIGN
CHOICE, log 81: the spec does not say whether its position survives). -/
def pathStart (s : State) : State :=
  let n := s.conf.probe.nblocks
  let frozen := s.aos.tdcs.contains 0
  evalThin { s with
    til := { s.til with
      running := true, k := 0, shedding := false, kPend := none, blocksRun := n, kSegs := [], origin := 0, x := s.conf.probe.throughput
      queues := List.replicate 24 [], rr := 23, pass := 0, waiting := [], shots := [], tokens := [], held := [], gone := [], winnow := [], cut := none
      tillers := s.til.tillers.filter fun e => match e.2 with | .running _ => false | _ => true }
    coh := { s.coh with
      pos := [], segs := [{ r0 := 0, phase := s.conf.phase, probe := s.conf.probe }], restarts := [], restartPend := [], restartSeq := 0
      allTrained := false, trained := [] }
    prb := { s.prb with
      launching := false, launched := false, epoch := none, nextR := 0, m := 0, j := 0, boundaryDone := false, segs := [], rawIdx := 0
      lmonSet := [], lmonDrift := 0, lmonApplied := 0, lmonMissRun := 0, lmonGood := [], lmonOpen := false, lmonFrozen := frozen }
    rxf := { s.rxf with
      profiles := [], judged := [], breakRun := [], restoreRun := 0, learn := none, lowRun := 0, frame := s.tim.tick / 256 }
    cas := { s.cas with
      hot := [], roleSegs := [(0, s.standbyRole)], seedR0 := none, seedLeft := [], seedBuf := [], seedRx := [], adopted := none, stateSeen := none
      trainIdx := 0 } }

/-- An acquisition starts from sleep (20 R428, R440 step 8): the sample PLL drives the timing clock (01 R17), deferred amendments first
(19 R422), then every part. -/
def acqBegin (s : State) : State :=
  let s := s.clockFrom true
  let l := s.cas.commits
  let s := amendAtStart (l.foldl (commitOne s.tim.tick) { s with cas := { s.cas with commits := [] } })
  let s := { s with
    pwr := { s.pwr with phase := .acquisition, stopped := false, draining := false, stopTo := .sleep }
    bgw := { s.bgw with acqFrom := s.tim.tick } }
  let s := adcAcqStart (hkAcqStart (timeAcqStart s))
  let s := pathStart s
  let s := zonAcqStart (dtsAcqStart (qsAcqStart (decAcqStart s)))
  let s := netAcqStart (acqStartRing s)
  rejoin (armStart s false)

end Sys2Proof.Machine
end

