-- ==== Sys2Proof/Machine/Cascade.lean ====
section
/-! DEFINITION. The Dzirak ring, joining, time and state in a cascade, the redundant pair and its seeding, and SYNC (21 R449 to R474;
09 R193 to R195). -/

namespace Sys2Proof.Machine

/-! ### The ring (21 R449 to R452) -/

/-- CAS fields changed. -/
def State.modCas (s : State) (f : Cas → Cas) : State := { s with cas := f s.cas }

/-- LANES: the lanes in service of the direction that has fewer (21 R451). -/
def State.ringLanes (s : State) : Nat :=
  let n (d : RingDir) : Nat := (d.lanes.filter id).length
  if s.cas.link then min (n s.cas.rxDir) (n s.cas.txDir) else 0

/-- The direction with code 0, receiving, or 1, transmitting (log 61). -/
def Cas.dir (c : Cas) (d : Nat) : RingDir := if d = 0 then c.rxDir else c.txDir

/-- A direction set. -/
def Cas.setDir (c : Cas) (d : Nat) (x : RingDir) : Cas := if d = 0 then { c with rxDir := x } else { c with txDir := x }

/-- The block lock and the BIST of the lanes have brought the link up (21 R456 step 1); degraded lanes stay out (22 R487). With one lane
it is lane 0 unless that is degraded (log 61). -/
def linkComesUp (s : State) (lanes : Nat) : State :=
  if s.conf.cascade.role = 0 ∨ !s.isConfigured ∨ s.cas.link then s
  else
    let good (d : Nat) : List Bool := [!s.aos.lanes.contains (2 * d), !s.aos.lanes.contains (2 * d + 1)]
    let take (l : List Bool) : List Bool := if lanes = 1 ∧ l = [true, true] then [true, false] else l
    let rx := take (good 0)
    let tx := take (good 1)
    if lanes = 0 ∨ !rx.any id ∨ !tx.any id then s
    else
      let s := s.modCas fun c => { c with
        link := true, rxDir := { c.rxDir with lanes := rx }, txDir := { c.txDir with lanes := tx } }
      if s.conf.cascade.rank = 0 then
        settleRole (s.holdFlags.modCas fun c => { c with joined := true, master := true, int := c.int.raise 0 })
      else sendJoin s

/-- A lane with more than 16 CRC errors in 1 ms leaves service for its BIST (21 R451). -/
def laneExcess (s : State) (dir lane n : Nat) : State :=
  let d := s.cas.dir dir
  if dir ≤ 1 ∧ lane ≤ 1 ∧ 16 < n ∧ nth d.lanes lane false ∧ s.cas.link then
    s.modCas fun c => c.setDir dir { d with
      lanes := modAt d.lanes lane fun _ => false, testing := modAt d.testing lane fun _ => some n }
  else s

/-- The lane is degraded for good (21 R451; 22 R486): LANE_DEGRADE, and with both lanes of its direction gone the link is down. -/
def degradeLane (s : State) (dir lane n : Nat) : State :=
  let s := { s with aos := { s.aos with lanes := addOnce s.aos.lanes (2 * dir + lane) } }
  let s := s.modCas fun c => { c with int := c.int.raise 8 }
  let gone : Bool := s.aos.lanes.contains (2 * dir) && s.aos.lanes.contains (2 * dir + 1)
  let s := if gone then s.modCas fun c => { c with link := false } else s
  s.lasting 0x0801 (2 * dir + lane) (leBytes 4 n)

/-- The BIST of a lane ends (21 R451; 22 R486): back into service, or degraded; a fourth transient fault within 1 h degrades it too. -/
def bistDone (s : State) (dir lane : Nat) (pass : Bool) : State :=
  let d := s.cas.dir dir
  match nth d.testing lane none with
  | none => s
  | some n =>
    let d := { d with testing := modAt d.testing lane fun _ => none }
    if !pass then degradeLane (s.modCas fun c => c.setDir dir d) dir lane n
    else
      let times := recentFaults (nth d.faults lane []) s.tim.tick
      let d := { d with faults := modAt d.faults lane fun _ => times }
      if 4 ≤ times.length then degradeLane (s.modCas fun c => c.setDir dir d) dir lane n
      else
        let d := { d with lanes := modAt d.lanes lane fun _ => true }
        (s.modCas fun c => c.setDir dir d).transient 0x0801 (2 * dir + lane) (leBytes 4 n)

/-- TYPE of a message (21 R450). -/
def RingMsg.type : RingMsg → Nat
  | .heartbeat _ => 0x01
  | .joinReq _ => 0x02
  | .joinAck _ | .joinRefuse _ _ => 0x03
  | .time _ _ _ => 0x04
  | .slew _ _ => 0x05
  | .state _ => 0x06
  | .syncIdx _ => 0x07
  | .amendProp _ _ _ | .amendVote _ | .amendCommit _ => 0x08
  | .seedBegin | .seedChunk _ _ | .seedCommit _ | .seedEnd => 0x10
  | .release _ | .takeReq => 0x18
  | .dtsTrace _ _ => 0x20
  | .syncInstant _ => Config.instantType

/-- A message as it leaves with the bytes of its body (21 R450): header, body and CRC-32. The spec lays out no body but that of a chunk
(log 85). -/
def RingSend.bytes (x : RingSend) (body : List Byte) : List Byte :=
  let l := leBytes 1 x.msg.type ++ leBytes 1 x.src ++ leBytes 1 x.dst ++ leBytes 1 x.hops ++ leBytes 4 x.seq ++ leBytes 4 body.length ++
    zeros 4 ++ body
  l ++ leBytes 4 (crc32 l)

/-! ### Heartbeats and losses (21 R450, R452, R464, R467) -/

/-- The HEARTBEAT this module sends (21 R450). -/
def State.beat (s : State) : BeatBody :=
  { rank := s.conf.cascade.rank, role := s.conf.cascade.role, pairRole := s.cas.pairRole, joined := s.cas.joined, hotPct := s.hotPct
    eligible := s.eligible, takebackReq := s.cas.takebackReq, fw := s.fact.fwVersion }

/-- What a soak needs (21 R473): the preferred module is standby, eligible and wholly HOT. -/
def State.soakable (s : State) : Bool :=
  s.isPair && s.conf.pair.takeback == 1 && s.conf.pair.preferred == s.conf.cascade.rank && s.cas.pairRole == 2 && s.eligible &&
  s.hotPct == 100

/-- The soak starts when its conditions hold, and stops when they cease (21 R473). -/
def soakCheck (s : State) : State :=
  if s.soakable then
    if s.cas.soaking || s.cas.soakSkip || s.cas.switchPending || s.cas.takebackReq then s
    else s.modCas fun c => { c with
      soaking := true, soakLen := s.conf.pair.soakS, soakEndTick := s.tim.tick + s.conf.pair.soakS * secTicks }
  else s.modCas fun c => { c with soaking := false, soakSkip := false }

/-- HEARTBEAT_SEND, every 100 µs (21 R450, R464): ARB_HB follows the eligibility. -/
def beatSend (s : State) : State :=
  if !s.inRing then s
  else
    let s := soakCheck s
    let s := { s with pads := { s.pads with arbHb := s.eligible && s.alive && !s.cas.releaseReq } }
    settleRole (s.sendRing (.heartbeat s.beat))

/-- All processed blocks are to be seeded (21 R470). -/
def askSeeds (s : State) : State := s.modCas fun c => { c with seedAsk := List.range s.procBlocks }

/-- A HEARTBEAT of another member is received (21 R450, R452, R457 to R467). -/
def beatReceived (s : State) (b : BeatBody) : State :=
  let own := s.conf.cascade.rank
  if b.rank = own ∨ 16 ≤ b.rank then s
  else
    let old := nth s.cas.members b.rank {}
    let m : Member := { old with
      present := true, joined := b.joined, excluded := old.excluded && !b.joined, pairRole := b.pairRole
      reason := if b.joined then 0 else old.reason, hotPct := b.hotPct, fw := b.fw, eligible := b.eligible, takebackReq := b.takebackReq
      beat := s.tim.tick }
    let s := if s.cas.lost0 ∧ b.rank = 0 ∧ b.joined then (s.holdFlags).modCas fun c => { c with lost0 := false } else s
    let s := s.modCas fun c => { c with
      members := modAt c.members b.rank fun _ => m
      int := c.int.raiseIf (b.joined && !old.joined) 0
      master := c.master && !(b.joined && decide (b.rank < own) && s.prb.epoch.isNone) }
    if !s.isPair then s
    else
      let s := s.modCas fun c => { c with
        partner := true, partnerLost := false, hbLost := c.hbLost && !b.eligible
        released := if b.pairRole = 1 then none else c.released
        int := c.int.raiseIf (s.conf.pair.arbMode == 1 && own == 1 && c.pairRole == 1 && b.pairRole == 1) 7 }
      let comes : Bool := b.joined && b.pairRole == 2 && !(old.joined && old.pairRole == 2)
      settleRole (if comes && s.cas.pairRole == 1 then askSeeds s else s)

/-- The launch index that follows the last one the partner is known to have made, when it is lost now (21 R468). -/
def State.lostFrom (s : State) : Nat :=
  let seen := match s.cas.stateSeen with
    | some st => boundaryIdx s.planSegs st.period + 1
    | none => 0
  max (s.idxFrom (s.tim.tick - msTicks)) seen

/-- MEMBER_LOST (21 R452, R458, R460, R466 to R472; 16 R348), 1 ms after its latest HEARTBEAT; one that passes its CRC check in the
cycle of the expiry comes first (01 R26, R27). The partner of a pair may be lost before it has been heard (log 62). -/
def memberLost (s : State) (rank : Nat) : State :=
  let own := s.conf.cascade.rank
  let old := nth s.cas.members rank {}
  let first : Bool := s.isPair && rank == s.partnerRank && !s.cas.partnerLost
  if s.conf.cascade.role = 0 ∨ rank = own ∨ 16 ≤ rank ∨ !s.isConfigured ∨ !(old.present || first) then s
  else
    let s := if old.present then s.expire (old.beat + msTicks) else s
    let s := s.modCas fun c => { c with
      members := modAt c.members rank fun m => { m with present := false, joined := false }
      losses := satAdd 16 c.losses 1, int := c.int.raise 2
      lost0 := c.lost0 || (rank == 0 && s.conf.cascade.role != 3) }
    let lower := (List.range own).any fun n => (nth s.cas.members n {}).present && (nth s.cas.members n {}).joined
    let leads : Bool := s.cas.joined && !lower
    let s := if rank < own ∧ leads ∧ !s.cas.master ∧ s.conf.time.timeSrc = 2 then holdTime s else s
    let s := s.modCas fun c => { c with master := c.master || leads }
    if !s.isPair then s
    else
      let s := abortSeeding s
      settleRole (s.modCas fun c => { c with
        partnerLost := true, partner := false, seedAsk := []
        takeover := if c.pairRole = 2 ∧ c.released = none then some s.lostFrom else c.takeover
        switchPending := false })

/-! ### Joining (21 R456, R457) -/

/-- The reason for which the master refuses a join; 0 none (21 R457). -/
def State.joinReason (s : State) (b : JoinBody) : Nat :=
  let own := s.conf.cascade.rank
  if b.fw ≠ s.fact.fwVersion then 1
  else if b.fingerprint ≠ fingerprint s.conf then 2
  else if b.rank = 0 ∧ own = 0 then 3
  else if b.rank = own ∨ (nth s.cas.members b.rank {}).joined then 4
  else if b.role ≠ s.conf.cascade.role then 5
  else 0

/-- A join refused or a member excluded, with its reason (21 R457, R459). -/
def refuseMember (s : State) (rank reason : Nat) : State :=
  let s := s.modCas fun c => { c with
    members := if rank = s.conf.cascade.rank then c.members else modAt c.members rank fun m =>
      if m.joined ∧ reason ≠ 6 then m else { m with joined := false, excluded := true, reason := reason }
    refusals := satAdd 16 c.refusals 1, int := c.int.raise 1 }
  s.sendRing (.joinRefuse rank reason)

/-- The master receives JOIN_REQ (21 R457). -/
def joinAsked (s : State) (b : JoinBody) : State :=
  if !s.cas.master then s
  else match s.joinReason b with
    | 0 => s.sendRing (.joinAck b.rank)
    | n => refuseMember s b.rank n

/-- JOIN_ACK (21 R456 step 3). -/
def joinAcked (s : State) : State :=
  if s.conf.cascade.rank = 0 ∨ s.cas.joined then s
  else s.modCas fun c => { c with acked := true, timed := false, excluded := false, refuse := 0 }

/-- This module is refused or excluded, and runs isolated (21 R457, R459). -/
def refusedHere (s : State) (reason : Nat) : State :=
  settleRole (s.modCas fun c => { c with
    joined := false, acked := false, timed := false, slewing := false, refuse := reason, excluded := c.excluded || reason == 6
    refusals := satAdd 16 c.refusals 1, int := c.int.raise 1 })

/-- JOIN_REFUSE (21 R457, R459). -/
def joinRefused (s : State) (reason : Nat) : State :=
  if s.conf.cascade.rank = 0 ∨ reason = 0 ∨ 6 < reason ∨ (s.cas.joined ∧ reason ≠ 6) then s else refusedHere s reason

/-- A refused member repeats JOIN_REQ every 10 s (21 R457). -/
def joinAgain (s : State) : State :=
  if !s.inRing ∨ s.cas.joined ∨ s.cas.refuse = 0 then s else sendJoin s

/-! ### Time (21 R459; 16 R346 to R348) -/

/-- 20 ns in ps (21 R459). -/
def slewLimit : Int := 20000

/-- e_c as CAS_TERR shows it: ps, int32, saturating (21 R477). -/
def terrOf (e : Int) : Int := clampInt (-2147483648) 2147483647 (roundDiv (e * 1000) (2 ^ 48))

/-- The master sends TIME every 10 ms (21 R459). -/
def timeSend (s : State) : State := if s.inRing ∧ s.cas.master then s.sendRing (.time s.tim.tick s.now 0) else s

/-- The time state of a member whose time source is the cascade (16 R346 to R348): a step outside acquisition, LOCKED after 10 s of
messages within 100 ns. -/
def timeSteer (s : State) (e : Int) : State :=
  let starts : Bool := s.tim.st != .locking && s.tim.st != .locked
  let big : Bool := decide (e > (1000000 * 2 ^ 48 : Nat) ∨ e < -(1000000 * 2 ^ 48 : Nat))
  if starts ∧ big ∧ s.mayStep then
    let s := s.stepMap ((s.t48 s.tim.tick : Int) - e).toNat (rhoLimit s.tim.rhoF)
    { s with tim := { s.tim with st := .locking, lockRun := 0, secMismatch := false, stepOwed := none } }
  else
    let w := roundDiv e sec48
    let mismatch : Bool := w != 0
    let small : Bool := decide (-(100 * 2 ^ 48 : Nat) ≤ e ∧ e ≤ (100 * 2 ^ 48 : Nat))
    let run := if starts ∨ !small then b2n small else s.tim.lockRun + 1
    let locks : Bool := s.tim.st != .locked && decide (1000 ≤ run)
    let s := { s with tim := { s.tim with
        lockRun := run
        st := if locks then .locked else if small && s.tim.st == .locked then .locked else .locking
        secMismatch := mismatch, stepOwed := if mismatch then some (-w * sec48) else none
        int := (s.tim.int.raiseIf (mismatch && !s.tim.secMismatch) 3).raiseIf locks 1 } }
    if locks then s.reloadRtc else s

/-- TIME is received (21 R459): e_c, and what joining and slewing make of it. -/
def timeTake (s : State) (mark masterTime delayPs : Nat) : State :=
  if s.cas.master then s
  else
    let e : Int := (s.t48 mark : Int) - (masterTime * 2 ^ 32 : Nat) - ps48 delayPs 1
    let ps := terrOf e
    let near : Bool := decide (-slewLimit ≤ ps ∧ ps ≤ slewLimit)
    let done : Bool := decide (-1000 ≤ ps ∧ ps ≤ 1000)
    let joining : Bool := s.cas.acked && !s.cas.joined
    let s := s.modCas fun c => { c with
      terr := ps, timed := c.timed || (joining && near), slewing := (c.slewing || (joining && !near)) && !done }
    if s.conf.time.timeSrc = 2 then timeSteer s e else s

/-- The TIME message as this member forwards it: its hop is added to the delay (21 R459). -/
def State.timeOn (s : State) (mark masterTime delayPs : Nat) : RingMsg :=
  .time mark masterTime (delayPs + s.conf.cascade.hopDly + s.fact.throughPs)

/-- SLEW: the member named slews (21 R459). -/
def slewTake (s : State) (target : Nat) (ec : Int) : State :=
  if target = s.conf.cascade.rank then
    s.modCas fun c => { c with slewing := true, slewTick := s.tim.tick, slews := satAdd 16 c.slews 1, terr := clampInt (-2147483648) 2147483647 ec }
  else s

/-- 1 s after a SLEW the member named is excluded unless its time has come within 20 ns (21 R459; 01 R26). -/
def slewOver (s : State) (rank : Nat) : State :=
  let m := nth s.cas.members rank {}
  if !s.inRing then s
  else if rank = s.conf.cascade.rank then
    if s.cas.slewing ∧ (s.cas.terr < -slewLimit ∨ slewLimit < s.cas.terr)
    then refusedHere (s.expire (s.cas.slewTick + secTicks)) 6 else s
  else if s.cas.master ∧ 200 < m.terr then refuseMember (s.expire (m.slewTick + secTicks)) rank 6
  else s

/-- The master receives the instant of a member's SYNC_P/N edge, 2⁻⁴⁸ ns: a second measure of e_c (21 R459). -/
def syncInstant (s : State) (rank instant : Nat) : State :=
  if !s.cas.master ∨ 16 ≤ rank ∨ rank = s.conf.cascade.rank then s
  else
    let e : Int := (instant : Int) - s.cas.syncInst
    let ps := roundDiv (e * 1000) (2 ^ 48)
    let tenths := (roundDiv (e.natAbs * 10 : Nat) (2 ^ 48)).toNat
    let s := s.modCas fun c => { c with members := modAt c.members rank fun m => { m with terr := min tenths 65535 } }
    if ps < -slewLimit ∨ slewLimit < ps then
      (s.sendRing (.slew rank ps)).modCas fun c => { c with
        slews := satAdd 16 c.slews 1, members := modAt c.members rank fun m => { m with slewTick := s.tim.tick } }
    else s

/-! ### State of the master (21 R456 step 4, R460) -/

/-- STATE is received from the member that performs the master duties (21 R460). -/
def stateTake (s : State) (st : StateBody) : State :=
  let s := s.modCas fun c => { c with stateSeen := some st, master := false }
  let s := if s.prb.epoch.isNone then joinNow s else s
  let s :=
    if s.acquiring ∧ s.prb.epoch = none ∧ s.prb.arm = .waitLaunch ∧ s.cas.joined then
      let s := takeSchedule s st
      gridOnMaster s st.ns s.prb.nextR
    else s
  settleRole s

/-! ### SYNC (09 R193 to R195; 21 R461) -/

/-- SYNC_SRC admits SYNC commands. -/
def State.syncByCmd (s : State) : Bool := s.conf.dec.syncSrc == 2 || s.conf.dec.syncSrc == 3

/-- SYNC_SRC admits SYNC_P/N. -/
def State.syncByPad (s : State) : Bool := s.conf.dec.syncSrc == 1 || s.conf.dec.syncSrc == 3

/-- n_s of a SYNC seen now whose boundary lies at least `d` ticks later; before the epoch it is index 0 (log 63). -/
def State.syncAfter (s : State) (d : Nat) : Nat := s.boundaryReport (s.tim.tick + d)

/-- The SYNC index n_s is taken, and sent to the members of a cascade (21 R461). -/
def chooseSync (s : State) (ns : Nat) : State :=
  let s := takeSync s ns
  if s.cas.joined ∧ s.cas.master then s.sendRing (.syncIdx ns) else s

/-- SYNC (09 R193, R194; 18 R400; 21 R461). -/
def syncCmd (s : State) : State × Response :=
  if !s.syncByCmd then (ignoreSync s, plain .denied)
  else if s.conf.cascade.role ≠ 0 ∧ s.cas.joined ∧ !s.cas.master then (s, plain .conflict)
  else if !s.acquiring then (ignoreSync s, plain .busy)
  else
    let ns := s.syncAfter msTicks
    (chooseSync s ns, withData .deferred (leBytes 8 ns))

/-- A pad SYNC (09 R193, R194; 21 R461). -/
def syncPad (s : State) : State :=
  if !s.syncByPad ∨ !s.acquiring then ignoreSync s
  else if s.conf.cascade.role ≠ 0 ∧ s.cas.joined then
    if s.cas.master then chooseSync s (s.syncAfter (2 * msTicks)) else s
  else takeSync s (s.syncAfter msTicks)

/-- SYNC_IDX (21 R461). -/
def syncIdxTake (s : State) (ns : Nat) : State :=
  if !s.cas.joined ∨ s.cas.master then s
  else if s.acquiring then takeSync s ns
  else ignoreSync s

/-! ### Shared amendments (21 R461) -/

/-- A record joins the proposal; one proposed more than 2 ms before has been refused (21 R461). -/
def State.proposedWith (s : State) (g : GroupRec) : List GroupRec :=
  let old := if s.tim.tick ≤ s.cas.proposedTick + 2 * msTicks then s.cas.proposed else []
  (old.filter fun x => !(x.type == g.type && x.inst == g.inst)) ++ [g]

/-- AMEND_PROP: a joined member validates the amendment and votes, 0 for OK (21 R461). -/
def propTake (s : State) (type inst : Nat) (body : List Byte) : State :=
  if !s.cas.joined ∨ s.cas.master then s
  else
    let recs := s.proposedWith { type := type, inst := inst, body := body }
    let ok : Bool := match amendVerdict s (recs.map GroupRec.raw) with
      | .valid _ => true
      | .refuse _ _ => false
    let s := s.modCas fun c => { c with proposed := if ok then recs else [], proposedTick := s.tim.tick }
    s.sendRing (.amendVote (if ok then 0 else 1))

/-- The proposal fails: the amendment is refused with CONFLICT (21 R461). -/
def proposalFails (s : State) (p : Proposal) : State :=
  let s := s.modCas fun c => { c with proposal := none }
  let (s, r) := refuseAmend s p.req .conflict []
  s.answer p.sid p.seq r

/-- AMEND_VOTE: the last OK commits (21 R461). -/
def voteTake (s : State) (rank result : Nat) : State :=
  match s.cas.proposal with
  | none => s
  | some p =>
    if !p.waiting.contains rank then s
    else if result ≠ 0 then proposalFails s p
    else
      let w := p.waiting.erase rank
      if w = [] then
        let s := s.modCas fun c => { c with proposal := none }
        let (s, r) := commitOwn s p.req p.recs
        s.answer p.sid p.seq r
      else s.modCas fun c => { c with proposal := some { p with waiting := w } }

/-- A vote is missing after 2 ms (21 R461). -/
def voteTimeout (s : State) : State :=
  match s.cas.proposal with
  | none => s
  | some p => proposalFails (s.expire (p.tick + 2 * msTicks)) p

/-- AMEND_COMMIT (21 R461). -/
def commitTake (s : State) (period : Nat) : State :=
  if s.cas.master ∨ s.cas.proposed = [] then s
  else
    let recs := s.cas.proposed
    let s := s.modCas fun c => { c with proposed := [] }
    commitAmend s { req := 0, recs := recs, period := period }

/-! ### Seeding (21 R470 to R472) -/

/-- A slot record as its 16 bytes (08 R176). -/
def SlotRec.bytes (x : SlotRec) : List Byte :=
  leBytes 2 x.tcount ++ leBytes 1 (b2n x.tvalid + 2 * x.ntl) ++ leBytes 1 0 ++ leBytes 6 (ofInt 48 x.psum) ++ leBytes 6 (ofInt 48 x.fthr)

/-- The slot record its 16 bytes hold. -/
def slotRecOf (l : List Byte) : SlotRec :=
  { tcount := fieldAt l 0 2, tvalid := bit (fieldAt l 2 1) 0, ntl := bits (fieldAt l 2 1) 4 1, psum := toInt 48 (fieldAt l 4 6)
    fthr := toInt 48 (fieldAt l 10 6) }

/-- The quasi-static reference state of block b (10 R233): the references of its 1,024 positions, then their reference state. -/
def refBytes (s : State) (b : Nat) : List Byte :=
  let at_ (i : Nat) : Option QsRef := smGet none s.qss.refs (1024 * b + i)
  let n := slotsMax s.fuses.order
  ((List.range 1024).flatMap fun i => match at_ i with
    | some q => (List.range n).flatMap fun k => leBytes 2 (ofInt 16 (nth q.ref k 0))
    | none => zeros (2 * n)) ++
  (List.range 1024).flatMap fun i => match at_ i with
    | some q => leBytes 4 (ofInt 32 q.base) ++ leBytes 2 (ofInt 16 q.offset) ++ leBytes 2 0
    | none => zeros 6 ++ leBytes 2 1

/-- Chunk b (21 R471): the copies of its slots, and where a slot was thinned throughout the seeding its present contents. -/
def seedChunkBytes (s : State) (b : Nat) : List Byte :=
  let slots := List.range s.conf.probe.slots
  let copy (k : Nat) : SlotRec × List Nat :=
    match s.cas.seedBuf.find? fun e => e.1 == tokenKey b k with
    | some e => e.2
    | none => (smGet {} s.coh.slots (tokenKey b k), s.baseOf b k)
  (slots.flatMap fun k => (copy k).1.bytes) ++ (slots.flatMap fun k => (copy k).2.flatMap fun v => leBytes 2 v) ++
  if s.conf.qs.present then refBytes s b else []

/-- Bytes of a chunk (21 R471). -/
def chunkLen (order : Nat) (c : Conf) : Nat :=
  c.probe.slots * 16 + c.probe.slots * 2048 + if c.qs.present then 1024 * (2 * slotsMax order + 8) else 0

/-- The contents of a received chunk. -/
def chunkOf (s : State) (b : Nat) (l : List Byte) : SeedChunk :=
  let n := s.conf.probe.slots
  let base := l.drop (16 * n)
  let qs := base.drop (2048 * n)
  let m := slotsMax s.fuses.order
  let st := qs.drop (2048 * m)
  { block := b
    slots := (List.range n).map fun k => (k, slotRecOf (slice l (16 * k) 16))
    base := (List.range (1024 * n)).map fun i => (i, fieldAt base (2 * i) 2)
    refs := if s.conf.qs.present then (List.range 1024).filterMap fun i =>
        if bit (fieldAt st (8 * i + 6) 2) 0 then none
        else some (1024 * b + i, {
          ref := (List.range n).map fun k => toInt 16 (fieldAt qs (2 * (m * i + k)) 2)
          base := toInt 32 (fieldAt st (8 * i) 4), offset := toInt 16 (fieldAt st (8 * i + 4) 2) })
      else [] }

/-- The partner is joined in the standby role. -/
def State.partnerStandby (s : State) : Bool := s.partnerMem.present && s.partnerMem.joined && s.partnerMem.pairRole == 2

/-- On the active the seeding of the blocks asked for begins, with the first launch of the next trace period as r_0 (21 R470, R471). -/
def seedStart (s : State) : State :=
  let l := (List.range s.procBlocks).filter fun b => s.cas.seedAsk.contains b
  if !s.isPair ∨ s.cas.seeding ∨ s.cas.pairRole ≠ 1 ∨ l = [] ∨ !s.partnerStandby ∨ s.prb.epoch.isNone then s
  else
    (s.sendRing .seedBegin).modCas fun c => { c with
      seeding := true, seedAsk := [], seedAcked := [], seedLeft := l, seedBuf := [], seedR0 := some (boundaryIdx s.planSegs s.nextM) }

/-- On the standby a seeding begins with its message (21 R471). -/
def seedBegun (s : State) : State :=
  if s.isPair ∧ !s.cas.seeding ∧ s.cas.pairRole = 2 then s.modCas fun c => { c with seeding := true } else s

/-- Every slot of the block has been copied, or has no shot left in the seeding (21 R471). -/
def State.chunkReady (s : State) (b r0 : Nat) : Bool :=
  let n := s.conf.probe.slots
  (List.range n).all fun k =>
    (s.cas.seedBuf.any fun e => e.1 == tokenKey b k) || decide (r0 + n ≤ smGet 0 s.til.tokens (tokenKey b k))

/-- SEED_CHUNK_READY (21 R471): the chunk of the lowest block left is sent; SEED_END follows the last. -/
def chunkSend (s : State) (b : Nat) : State :=
  match s.cas.seedR0, s.cas.seedLeft with
  | some r0, b' :: rest =>
    if b ≠ b' ∨ !s.cas.seeding ∨ s.cas.pairRole ≠ 1 ∨ !s.chunkReady b r0 then s
    else
      let s := (s.sendRing (.seedChunk b (seedChunkBytes s b))).modCas fun c => { c with
        seedLeft := rest, seedBuf := c.seedBuf.filter fun e => e.1 / 128 != b }
      if rest ≠ [] then s
      else (s.sendRing .seedEnd).modCas fun c => { c with
        seeding := false, seedR0 := none, seedBuf := [], seeds := satAdd 16 c.seeds 1, int := c.int.raise 4 }
  | _, _ => s

/-- SEED_CHUNK on the standby (21 R472): a chunk received whole waits for the next trace-period boundary. -/
def chunkTake (s : State) (b : Nat) (data : List Byte) : State :=
  if !s.isPair then s
  else if s.cas.pairRole ≠ 2 ∨ s.procBlocks ≤ b ∨ data.length ≠ chunkLen s.fuses.order s.conf then s
  else s.modCas fun c => { c with seedRx := (c.seedRx.filter fun x => x.block != b) ++ [chunkOf s b data] }

/-- SEED_COMMIT on the active (21 R472). -/
def seedCommitted (s : State) (b : Nat) : State :=
  if s.isPair ∧ s.cas.pairRole = 1 then s.modCas fun c => { c with seedAcked := addOnce c.seedAcked b } else s

/-- SEED_END on the standby (21 R471, R472). -/
def seedEnded (s : State) : State :=
  if s.isPair ∧ s.cas.pairRole = 2 ∧ s.cas.seeding then
    s.modCas fun c => { c with seeding := false, seeds := satAdd 16 c.seeds 1, int := c.int.raise 4 }
  else s

/-- Every RESEED_S (21 R470). -/
def reseed (s : State) : State :=
  if s.isPair ∧ s.cas.pairRole = 1 ∧ s.partnerStandby ∧ s.conf.pair.reseedS ≠ 0 then askSeeds s else s

/-! ### Taking and giving the role (21 R465 to R474) -/

/-- RELEASE of the old active, naming its last launch index (21 R466 to R468). -/
def releaseTake (s : State) (last : Nat) : State :=
  if !s.isPair ∨ s.cas.pairRole = 1 then s
  else settleRole (s.modCas fun c => { c with released := some last, takeover := some (last + 1) })

/-- TAKE_REQ makes the active release its role (21 R467, R473). -/
def takeAsked (s : State) : State :=
  if s.isPair ∧ s.cas.pairRole = 1 ∧ s.conf.pair.arbMode = 1 then settleRole (s.modCas fun c => { c with switchPending := true }) else s

/-- A change of ARB_GRANT_N has qualified (21 R465, R466). -/
def grantChange (s : State) (low : Bool) : State :=
  if s.isPair ∧ s.conf.pair.arbMode = 0 then settleRole { s with pads := { s.pads with granted := low } } else s

/-- No edge of the partner's ARB_HB for 300 µs (21 R465, R467). -/
def arbLost (s : State) : State :=
  if s.isPair ∧ s.conf.pair.arbMode = 1 then settleRole (s.modCas fun c => { c with hbLost := true }) else s

/-- The preferred module asks for the role (21 R473): TAKE_REQ, or TAKEBACK_REQ towards the arbiter. -/
def askRole (s : State) : State :=
  if s.conf.pair.arbMode = 1 then (s.sendRing .takeReq).modCas fun c => { c with switchPending := true }
  else s.modCas fun c => { c with takebackReq := true }

/-- The soak ends (21 R473). -/
def soakOver (s : State) : State :=
  if !s.cas.soaking ∨ !s.soakable then s
  else
    let s := s.advance s.cas.soakEndTick
    askRole (s.modCas fun c => { c with soaking := false, int := c.int.raise 6 })

/-- The active is to release its role (21 R467, R474). -/
def giveRole (s : State) : State :=
  if s.conf.pair.arbMode = 1 then s.modCas fun c => { c with switchPending := true }
  else
    { s with
      pads := { s.pads with arbHb := false }
      cas := { s.cas with switchPending := true, releaseReq := true } }

/-- The trace-period index of the release (21 R474); 0 without a launch schedule. -/
def State.releaseIndex (s : State) : Nat := if s.prb.epoch.isSome then s.nextM else 0

/-- Action 0 on the active, which hands the role to its partner (21 R474): the state with the switch pending, or why not. -/
def switchAway (s : State) (force : Nat) : Except Result State :=
  if s.cas.seeding ∨ s.cas.switchPending then .error .busy
  else if !s.isPair ∨ s.cas.pairRole ≠ 1 ∨ !s.partnerMem.present ∨ !s.partnerMem.eligible ∨
    (force = 0 ∧ s.partnerMem.hotPct < 100) then .error .denied
  else .ok (giveRole s)

/-- The preferred standby takes back at once (21 R474 action 1). -/
def takeBack (s : State) (force : Nat) : Except Result State :=
  if s.cas.seeding ∨ s.cas.switchPending then .error .busy
  else if s.cas.pairRole ≠ 2 ∨ !s.eligible ∨ (force = 0 ∧ s.hotPct < 100) then .error .denied
  else .ok (askRole (s.modCas fun c => { c with soaking := false }))

/-- PAIR_SWITCH (21 R474). -/
def pairSwitch (s : State) (action force : Nat) : State × Response :=
  if 2 < action ∨ 1 < force then (s, plain .invalid)
  else if !s.isPair then (s, plain .denied)
  else if action = 2 then (s.modCas fun c => { c with soaking := false, soakSkip := c.soaking || c.soakSkip }, plain .ok)
  else
    let own : Bool := s.conf.pair.preferred == s.conf.cascade.rank
    let r := if action = 0 ∨ !own then switchAway s force else takeBack s force
    match r with
    | .error e => (s, plain e)
    | .ok t => (settleRole t, withData .deferred (leBytes 8 s.releaseIndex))

/-! ### Meanings -/

/-- DZIRAK_LINK_UP (21 R456). -/
def execDzirakLinkUp (lanes : Nat) (s : State) : Host.Outcome State Fault Refusal := s.done (linkComesUp s lanes)

/-- LANE_CRC_EXCESS (21 R451). -/
def execLaneCrcExcess (dir lane crcErrors : Nat) (s : State) : Host.Outcome State Fault Refusal :=
  s.done (laneExcess s dir lane crcErrors)

/-- LANE_BIST_DONE (21 R451). -/
def execLaneBistDone (dir lane : Nat) (pass : Bool) (s : State) : Host.Outcome State Fault Refusal := s.done (bistDone s dir lane pass)

/-- HEARTBEAT (21 R450). -/
def execHeartbeat (rh : RingHdr) (body : BeatBody) (s : State) : Host.Outcome State Fault Refusal :=
  s.done (s.ringIn rh (.heartbeat body) fun s => beatReceived s body)

/-- MEMBER_LOST (21 R452). -/
def execMemberLost (rank : Nat) (s : State) : Host.Outcome State Fault Refusal := s.done (memberLost s rank)

/-- JOIN_REQ (21 R457). -/
def execJoinReq (rh : RingHdr) (body : JoinBody) (s : State) : Host.Outcome State Fault Refusal :=
  s.done (s.ringIn rh (.joinReq body) fun s => joinAsked s body)

/-- JOIN_ACK (21 R456). -/
def execJoinAck (rh : RingHdr) (s : State) : Host.Outcome State Fault Refusal := s.done (s.ringIn rh (.joinAck rh.dst) joinAcked)

/-- JOIN_REFUSE (21 R457). -/
def execJoinRefuse (rh : RingHdr) (reason : Nat) (s : State) : Host.Outcome State Fault Refusal :=
  s.done (s.ringIn rh (.joinRefuse rh.dst reason) fun s => joinRefused s reason)

/-- JOIN_RETRY (21 R457). -/
def execJoinRetry (s : State) : Host.Outcome State Fault Refusal := s.done (joinAgain s)

/-- TIME_SEND (21 R459). -/
def execTimeSend (s : State) : Host.Outcome State Fault Refusal := s.done (timeSend s)

/-- TIME (21 R459). -/
def execTime (rh : RingHdr) (markTick masterTime delayPs : Nat) (s : State) : Host.Outcome State Fault Refusal :=
  s.done (s.ringIn rh (s.timeOn markTick masterTime delayPs) fun s => timeTake s markTick masterTime delayPs)

/-- SLEW (21 R459). -/
def execSlew (rh : RingHdr) (target : Nat) (ec : Int) (s : State) : Host.Outcome State Fault Refusal :=
  s.done (s.ringIn rh (.slew target ec) fun s => slewTake s target ec)

/-- SLEW_TIMEOUT (21 R459). -/
def execSlewTimeout (rank : Nat) (s : State) : Host.Outcome State Fault Refusal := s.done (slewOver s rank)

/-- STATE (21 R460). -/
def execState (rh : RingHdr) (body : StateBody) (s : State) : Host.Outcome State Fault Refusal :=
  s.done (s.ringIn rh (.state body) fun s => stateTake s body)

/-- SYNC_IDX (21 R461). -/
def execSyncIdx (rh : RingHdr) (ns : Nat) (s : State) : Host.Outcome State Fault Refusal :=
  s.done (s.ringIn rh (.syncIdx ns) fun s => syncIdxTake s ns)

/-- AMEND_PROP (21 R461). -/
def execAmendProp (rh : RingHdr) (type inst : Nat) (body : List Byte) (s : State) : Host.Outcome State Fault Refusal :=
  s.done (s.ringIn rh (.amendProp type inst body) fun s => propTake s type inst body)

/-- AMEND_VOTE (21 R461). -/
def execAmendVote (rh : RingHdr) (result : Nat) (s : State) : Host.Outcome State Fault Refusal :=
  s.done (s.ringIn rh (.amendVote result) fun s => voteTake s rh.src result)

/-- AMEND_VOTE_TIMEOUT (21 R461). -/
def execAmendVoteTimeout (s : State) : Host.Outcome State Fault Refusal := s.done (voteTimeout s)

/-- AMEND_COMMIT (21 R461). -/
def execAmendCommit (rh : RingHdr) (period : Nat) (s : State) : Host.Outcome State Fault Refusal :=
  s.done (s.ringIn rh (.amendCommit period) fun s => commitTake s period)

/-- SEED_BEGIN (21 R471): received, or begun by the active itself. -/
def execSeedBegin (rh : Option RingHdr) (s : State) : Host.Outcome State Fault Refusal :=
  s.done (match rh with
    | some h => s.ringIn h .seedBegin seedBegun
    | none => seedStart s)

/-- SEED_CHUNK_READY (21 R471). -/
def execSeedChunkReady (block : Nat) (s : State) : Host.Outcome State Fault Refusal := s.done (chunkSend s block)

/-- SEED_CHUNK (21 R472). -/
def execSeedChunk (rh : RingHdr) (block : Nat) (data : List Byte) (s : State) : Host.Outcome State Fault Refusal :=
  s.done (s.ringIn rh (.seedChunk block data) fun s => chunkTake s block data)

/-- SEED_COMMIT (21 R472). -/
def execSeedCommit (rh : RingHdr) (block : Nat) (s : State) : Host.Outcome State Fault Refusal :=
  s.done (s.ringIn rh (.seedCommit block) fun s => seedCommitted s block)

/-- SEED_END (21 R472). -/
def execSeedEnd (rh : RingHdr) (s : State) : Host.Outcome State Fault Refusal := s.done (s.ringIn rh .seedEnd seedEnded)

/-- RESEED_TIMER (21 R470). -/
def execReseedTimer (s : State) : Host.Outcome State Fault Refusal := s.done (reseed s)

/-- RELEASE (21 R467). -/
def execRelease (rh : RingHdr) (lastIdx : Nat) (s : State) : Host.Outcome State Fault Refusal :=
  s.done (s.ringIn rh (.release lastIdx) fun s => releaseTake s lastIdx)

/-- TAKE_REQ (21 R473). -/
def execTakeReq (rh : RingHdr) (s : State) : Host.Outcome State Fault Refusal := s.done (s.ringIn rh .takeReq takeAsked)

/-- ARB_HB_LOST (21 R465). -/
def execArbHbLost (s : State) : Host.Outcome State Fault Refusal := s.done (arbLost s)

/-- SOAK_END (21 R473). -/
def execSoakEnd (s : State) : Host.Outcome State Fault Refusal := s.done (soakOver s)

/-- PAIR_SWITCH, role OPERATOR (21 R474). -/
def execPairSwitch (h : Hdr) (action force : Nat) (s : State) : Host.Outcome State Fault Refusal :=
  s.done (s.command1 h 0x0071 1 fun s _ => pairSwitch s action force)

/-- SYNC_EDGE_INSTANT (21 R459). -/
def execSyncEdgeInstant (rh : RingHdr) (instant : Nat) (s : State) : Host.Outcome State Fault Refusal :=
  s.done (s.ringIn rh (.syncInstant instant) fun s => syncInstant s rh.src instant)

/-- SYNC, role OPERATOR (18 R400). -/
def execSync (h : Hdr) (s : State) : Host.Outcome State Fault Refusal := s.done (s.command1 h 0x0015 1 fun s _ => syncCmd s)

/-- SYNC_PAD_EDGE (09 R193). -/
def execSyncPadEdge (s : State) : Host.Outcome State Fault Refusal := s.done (syncPad s)

end Sys2Proof.Machine
end

