-- ==== Sys2Proof/Machine/Background.lean ====
section
/-! DEFINITION. Background work: the scrubbers, TIA trim, TDC self-check, SRAM row tests and the fault log in flash (22 R478 to
R491; 05 R124, R125). -/

namespace Sys2Proof.Machine

/-- BGW fields changed. -/
def State.modBgw (s : State) (f : Bgw → Bgw) : State := { s with bgw := f s.bgw }

/-- A run of task t starts now (22 R478, R479). -/
def startTask (s : State) (t held interval : Nat) : State :=
  let s := noteRun s t (nth s.bgw.tasks t {}).last held interval
  s.modBgw fun b => { b with tasks := modAt b.tasks t fun x => { x with running := true, last := some s.tim.tick } }

/-- A run of task t has ended. -/
def endTask (s : State) (t : Nat) : State := s.modBgw fun b => { b with tasks := modAt b.tasks t fun x => { x with running := false } }

/-! ### SRAM (22 R480, R484, R485) -/

/-- The block whose position records or baselines a byte of position state memory belongs to; none for a DTS accumulator
(01 R24; 05 R124). -/
def State.blockOfByte (s : State) (a : Nat) : Option Nat :=
  let c := s.conf
  let size := 1024 * (2 * c.probe.slots + 2 * c.dec.taps + 80)
  if a / size < c.probe.nblocks then some (a / size) else none

/-- A row test of the row begins, or the error joins the one under way (22 R484, R485). -/
def startSramTest (s : State) (t : SramTest) : State :=
  if s.bgw.sramTests.any fun x => x.bank == t.bank && x.row == t.row then s
  else s.modBgw fun b => { b with sramTests := b.sramTests ++ [t] }

/-- An uncorrectable word of position state memory found by the scrubber takes effect under 05 R125. -/
def badWord (s : State) (bank row word : Nat) : State :=
  if 64 ≤ bank then s
  else match s.blockOfByte (2 ^ 20 * bank + 1024 * row + 8 * word) with
    | some b => s.askRestart (some [b]) false 0
    | none => s

/-- SRAM_SCRUB (22 R478 to R480): one word; the word at bank 0, row 0, word 0 begins a pass and ends the one before it (log 64). -/
def sramScrub (s : State) (bank row word : Nat) (err : EccResult) : State :=
  if !s.coreRuns then s
  else
    let first : Bool := bank == 0 && row == 0 && word == 0
    let s := if first ∨ s.bgw.sramPos = 0 then
        (startTask s 0 0 (20 * secTicks)).modBgw fun b => { b with
          sramPasses := if b.sramPos = 0 then b.sramPasses else wrapAdd 32 b.sramPasses 1, sramPos := 1 }
      else s.modBgw fun b => { b with sramPos := b.sramPos + 1 }
    match err with
    | .clean => s
    | .corrected syn =>
      startSramTest (s.modBgw fun b => { b with sramCe := satAdd 32 b.sramCe 1 })
        { bank := bank, row := row, syndrome := syn, requester := 6 }
    | .uncorrectable syn =>
      let s := s.modBgw fun b => { b with sramUe := satAdd 16 b.sramUe 1 }
      badWord (startSramTest s { bank := bank, row := row, syndrome := syn, requester := 6 }) bank row word

/-- The test of an error that a sheaf or the zone engine found: its syndrome is not stated (log 6), its requester is 0 (log 64). -/
def State.sramTestOf (s : State) (bank row : Nat) : SramTest × State :=
  match s.bgw.sramTests.find? fun x => x.bank == bank && x.row == row with
  | some t => (t, s.modBgw fun b => { b with sramTests := b.sramTests.erase t })
  | none => ({ bank := bank, row := row, syndrome := Config.freeNat s.free, requester := 0 }, { s with free := s.free + 1 })

/-- DATA of an SRAM row entry: row, syndrome, requester (22 R489; log 13). -/
def SramTest.data (t : SramTest) : List Byte := leBytes 4 t.row ++ leBytes 4 t.syndrome ++ leBytes 4 t.requester

/-- SRAM_ROW_TEST_DONE (22 R484): transient, or spared from the bank's 4 spare rows, or left in service with none free. Only position
state memory has spare rows. -/
def sramRowTest (s : State) (bank row : Nat) (bad : Bool) : State :=
  let (t, s) := s.sramTestOf bank row
  if !bad then s.transient 0x0501 bank t.data
  else
    let s := s.lasting 0x0501 bank t.data
    if 64 ≤ bank then s
    else if (s.aos.sram.filter fun e => e.1 == bank).length < 4 then
      { s with aos := { s.aos with sram := s.aos.sram ++ [(bank, row)] } }
    else
      let s := { s with aos := { s.aos with sramSpareOut := true } }
      (s.modBgw fun b => { b with int := b.int.raise 5 }).log 0x0502 2 bank (leBytes 4 row)

/-! ### DRAM (22 R481) -/

/-- The end of the usable map (14 R299). -/
def State.mapEnd (s : State) : Nat := ((regionsOf s.fuses.order s.conf).map fun e => e.1 + e.2).foldl max 0

/-- The channel of a usable address is in self-refresh. -/
def State.asleepAt (s : State) (a : Nat) : Bool := (nth s.mem.chans (s.dramAt a).channel {}).selfRef

/-- The scrubber's request for the unit at address a, class 6. -/
def scrubUnit (s : State) (a : Nat) (ecc : EccResult) : State := dramArrive s { addr := a, code := 6, write := none } ecc 0

/-- The pass is complete once every unit has been read. -/
def scrubPass (s : State) : State :=
  if s.bgw.dramPos < s.mapEnd ∨ s.bgw.dramSkipped ≠ [] then s
  else endTask (s.modBgw fun b => { b with dramPos := 0, dramPasses := wrapAdd 16 b.dramPasses 1 }) 1

/-- DRAM_SCRUB (22 R478, R479, R481): a unit passed over whose channel is awake again, else the next one; one on a channel in
self-refresh is passed over. -/
def dramScrub (s : State) (ecc : EccResult) : State :=
  if !s.coreRuns ∨ s.mapEnd = 0 then s
  else
    let s := if s.bgw.dramPos = 0 ∧ s.bgw.dramSkipped = [] then startTask s 1 s.bgw.acqFrom (8 * 3600 * secTicks) else s
    match s.bgw.dramSkipped.find? fun a => !s.asleepAt a with
    | some a => scrubPass (scrubUnit (s.modBgw fun b => { b with dramSkipped := b.dramSkipped.erase a }) a ecc)
    | none =>
      let a := s.bgw.dramPos
      if s.mapEnd ≤ a then s
      else
        let t := s.modBgw fun b => { b with dramPos := a + 8 }
        scrubPass (if s.asleepAt a then t.modBgw fun b => { b with dramSkipped := b.dramSkipped ++ [a] } else scrubUnit t a ecc)

/-! ### TIA trim and TDC check (03 R70; 22 R478, R483) -/

/-- TIA_TRIM: one step per lane, at most 0.25 LSB each way, at the next 256-tick frame boundary of an acquisition (03 R70); the core
schedules it (01 R29). -/
def tiaTrim (s : State) (step : List Int) : State :=
  if !s.acquiring || !s.coreRuns then s
  else
    let s := s.advance (alignUp s.tim.tick 256)
    let s := endTask (startTask s 2 s.bgw.acqFrom msTicks) 2
    { s with rxf := { s.rxf with tiaTrim := s.rxf.tiaTrim.mapIdx fun i v => v + clampInt (-1) 1 (nth step i 0) } }

/-- The self-check may run on channel ch now (22 R483, R485). -/
def State.checkFits (s : State) (ch : Nat) : Bool :=
  let d := s.tim.tdc ch
  let afterLaunch : Bool := match s.prb.epoch with
    | some e => s.prb.launching && decide ((s.tim.tick - e) % s.ttr ≤ 4096)
    | none => false
  let nearPps : Bool := match s.tim.ppsLast with
    | some t =>
      let d := (s.t48 s.tim.tick : Int) - (t + sec48 : Nat)
      decide (-(10000000 * 2 ^ 48 : Nat) < d ∧ d < (10000000 * 2 ^ 48 : Nat))
    | none => false
  !d.busy && d.testing.isNone && !(ch == 0 && afterLaunch) && !(ch == 1 && nearPps)

/-- TDC_CHECK on the next channel; a failure is a calibration failure (16 R356; 22 R478, R483). A retired channel is passed over. -/
def tdcCheck (s : State) (pass : Bool) : State :=
  let ch := s.bgw.tdcNext % 4
  if !s.coreRuns then s
  else if s.aos.tdcs.contains ch then s.modBgw fun b => { b with tdcNext := (ch + 1) % 4 }
  else if !s.checkFits ch then s
  else
    let s := (endTask (startTask s 3 0 secTicks) 3).modBgw fun b => { b with tdcNext := (ch + 1) % 4 }
    if pass then s
    else
      let d := s.tim.tdc ch
      { s with tim := s.tim.setTdc ch { d with
          calBad := satAdd 16 d.calBad 1, busy := true, testing := some (d.lsb, 2 * (d.n1 : Int) - d.n2) } }

/-! ### The log in flash (22 R490) -/

/-- The token bucket at the present tick: 5 tokens a second, at most 4,096. -/
def refillBucket (s : State) : State :=
  let n := (s.tim.tick - s.bgw.bucketTick) * 5 / secTicks
  s.modBgw fun b => { b with bucket := min 4096 (b.bucket + n), bucketTick := b.bucketTick + n * (secTicks / 5) }

/-- One entry written at the head of the ring; the sector ahead of the head is erased before it is reached (log 65). -/
def writeEntry (s : State) (e : LogEntry) : State :=
  let f := s.flash
  let ring := modAt f.ring f.head fun g => { g with entries := g.entries ++ [e] }
  if (nth ring f.head {}).entries.length < 1023 then { s with flash := { f with ring := ring } }
  else
    let h := (f.head + 1) % 32
    let n := (h + 1) % 32
    let x := nth ring n {}
    let ring := if x.entries = [] then ring else modAt ring n fun g => { erases := g.erases + 1, entries := [] }
    let worn : Bool := ring.any fun g => decide (90000 < g.erases)
    { s with
      flash := { f with ring := ring, head := h }
      bgw := { s.bgw with logWorn := worn, int := s.bgw.int.raiseIf (worn && !s.bgw.logWorn) 4 } }

/-- FLASH, every 250 ms: queued entries within the bucket; lost ones are reported once space has freed. -/
def flashRun (s : State) : State :=
  if !s.coreRuns then s
  else
    let s := refillBucket (endTask (startTask s 5 0 (secTicks / 4)) 5)
    let n := min s.bgw.bucket s.bgw.queue.length
    let l := s.bgw.queue.take n
    let s := l.foldl writeEntry (s.modBgw fun b => { b with queue := b.queue.drop n, bucket := b.bucket - n })
    match s.bgw.dropped with
    | some (count, first) =>
      if s.bgw.queue.length < 256 then
        (s.modBgw fun b => { b with dropped := none }).logNew 0x0B01 0 0 (leBytes 4 count ++ leBytes 4 first)
      else s
    | none => s

/-! ### Meanings -/

/-- SRAM_SCRUB (22 R480). -/
def execSramScrub (bank row : Nat) (word : Nat) (err : EccResult) (s : State) : Host.Outcome State Fault Refusal :=
  s.done (sramScrub s bank row word err)

/-- DRAM_SCRUB (22 R481). -/
def execDramScrub (ecc : EccResult) (s : State) : Host.Outcome State Fault Refusal := s.done (dramScrub s ecc)

/-- TIA_TRIM (22 R478). -/
def execTiaTrim (step : List Int) (s : State) : Host.Outcome State Fault Refusal := s.done (tiaTrim s step)

/-- TDC_CHECK (22 R483). -/
def execTdcCheck (pass : Bool) (s : State) : Host.Outcome State Fault Refusal := s.done (tdcCheck s pass)

/-- SRAM_ROW_TEST_DONE (22 R484). -/
def execSramRowTestDone (bank row : Nat) (lasting : Bool) (s : State) : Host.Outcome State Fault Refusal :=
  s.done (sramRowTest s bank row lasting)

/-- FLASH (22 R490). -/
def execFlash (s : State) : Host.Outcome State Fault Refusal := s.done (flashRun s)

end Sys2Proof.Machine
end

