-- ==== Sys2Proof/Machine/Power.lean ====
section
/-! DEFINITION. Resets, the stop procedure, the modes, supply monitors, wake and survey campaigns, block resets (20 R425 to R447). -/

namespace Sys2Proof.Machine

/-- PWR fields changed. -/
def State.modPwr (s : State) (f : Pwr → Pwr) : State := { s with pwr := f s.pwr }

/-! ### Resets (20 R432 to R436) -/

/-- A fault-log entry of a supply: by the AOS while the main domain does not run (22 R488). -/
def State.logAny (s : State) (code cls unit : Nat) (data : List Byte) : State :=
  if s.tim.counting then s.log code cls unit data else s.logAos code cls unit data

/-- The main domain restarts (20 R432 reach B and C, R436): its state takes its reset values and DRAM is lost; kept are the AOS, fuses,
flash and factory data. An ACTIVATE of mode 1 that has waited is applied. `hold` says that what lasts to the next reset of reach B stays (04 R102; 14 R313). -/
def mainReset (s : State) (phase : Phase) (rails hold : Bool) : State :=
  { pending := s.pending, free := s.free, flash := s.flash, fuses := s.fuses, fact := s.fact
    aos := { s.aos with rtc := s.rtcSec, rtcTick := 0 }
    pads := { ilkN := s.pads.ilkN, gpioIn := s.pads.gpioIn }
    pwr := {
      phase := phase, rails := rails, feedAOk := s.pwr.feedAOk, feedBOk := s.pwr.feedBOk, vwarnMon := s.pwr.vwarnMon
      warn := s.pwr.warn, vrst := s.pwr.vrst, vao := s.pwr.vao, rstHeld := s.pwr.rstHeld, busSeen := s.pwr.busSeen
      causeVao := s.pwr.causeVao, causeMain := s.pwr.causeMain, causeVrst := s.pwr.causeVrst, causeRst := s.pwr.causeRst
      causeActivate := s.pwr.causeActivate || s.cfg.actNext, causeWake := s.pwr.causeWake, wakeCause := s.pwr.wakeCause, woken := s.pwr.woken
      wakeKept := s.pwr.wakeKept, bootCount := s.pwr.bootCount, surveyCycles := s.pwr.surveyCycles }
    adc := adcFresh s.fact s.aos (hold && s.adc.polHold)
    mem := { spareOut := hold && s.mem.spareOut, spareHold := hold && s.mem.spareHold }
    cfg := { wakePolicy := s.cfg.wakePolicy, overlay := s.cfg.overlay, wakeS := s.cfg.wakeS } }

/-- A reset of reach C (20 R432, R433): to step 2 with the rails up; without effect on the step while the rails are off. -/
def reachC (s : State) : State :=
  match s.pwr.phase with
  | .rails => s
  | _ => mainReset (s.modPwr fun p => { p with woken := false }) .pll true true

/-- A reset of reach B (20 R432, R433): the rails go off, start-up waits at step 1. In standby the module stays in standby (R431). -/
def reachB (s : State) : State :=
  match s.pwr.phase with
  | .standby => s
  | _ => mainReset (s.modPwr fun p => { p with woken := false }) .rails false false

/-- A reset of reach A (20 R432, R435): everything but fuses, flash and factory data. -/
def reachA (s : State) : State :=
  { pending := s.pending, free := s.free, flash := s.flash, fuses := s.fuses, fact := s.fact
    pads := { ilkN := s.pads.ilkN, gpioIn := s.pads.gpioIn }
    pwr := { rstHeld := s.pwr.rstHeld }
    adc := adcFresh s.fact {} false }

/-! ### Standby and sleep (20 R428 to R430) -/

/-- Standby is entered (20 R430): sessions closed, rails off, DRAM lost; the wake timer counts from here, 0 leaving it disarmed. -/
def enterStandby (s : State) (wakeS : Nat) : State :=
  (mainReset s.closeAll .standby false false).modPwr fun p => { p with wakeTimer := if wakeS = 0 then none else some wakeS, woken := false }

/-- Sleep is entered from an acquisition (14 R310); in a survey campaign the wake timer runs from here (20 R447). -/
def enterSleep (s : State) : State :=
  (memSleep s).modPwr fun p => { p with
    phase := .sleep, stopTo := .sleep, wakeTimer := if p.survey ∧ s.cfg.wakeS ≠ 0 then some s.cfg.wakeS else none }

/-- The data path at rest after an acquisition (05 R129, R131; 20 R429); the timing clock comes from the system PLL again (01 R17). -/
def pathEnd (s : State) : State :=
  let s := acqEndRing s
  let s := netAcqEnd (zonAcqEnd (dtsAcqEnd (qsAcqEnd (decAcqEnd s))))
  let s := abortSeeding (s.clockFrom false)
  settleRole { s with
    rxf := s.rxf.suspend
    til := { s.til with running := false, k := 0, shedding := false, kPend := none, blocksRun := s.conf.probe.nblocks }
    adc := { s.adc with running := false }
    pads := s.pads.dark
    prb := { s.prb with epoch := none, launching := false, arm := .off }
    bgw := { s.bgw with tasks := s.bgw.tasks.mapIdx fun i x => if i = 2 ∨ i = 4 ∨ i = 6 then { x with running := false } else x } }

/-- A survey cycle has completed step 5 (20 R447). -/
def surveyDone (s : State) : State :=
  let s := s.modPwr fun p => { p with surveyCycles := wrapAdd 32 p.surveyCycles 1, int := p.int.raise 6 }
  if s.pwr.cycle.surveyEnd = 0 then enterSleep s else enterStandby s s.cfg.wakeS

/-- The ENDING heartbeat of a stream has left every port it waited on (15 R335). -/
def State.endingSent (s : State) (n : Nat) : Bool :=
  (s.stream n).ending && (s.net.portA.beats ++ s.net.portB.beats).all fun f => f.stream != n

/-- The stop procedure ends once every sheaf has finished and every enabled stream has sent its ENDING heartbeat (20 R429). -/
def stopCheck (s : State) : State :=
  let over_ := s.pwr.phase == .stopping && s.pwr.stopped && !s.pwr.draining && s.til.quiet &&
    (List.range 16).all fun n => (s.strCfg n).en != 1 || s.endingSent n
  if !over_ then s
  else
    let s := pathEnd s
    match s.pwr.stopTo with
    | .sleep => enterSleep s
    | .standby w => enterStandby s w
    | .survey => surveyDone s

/-- The stop procedure begins (20 R429); before an epoch exists there is no boundary to wait for. -/
def beginStop (s : State) (dest : StopTo) : State :=
  match s.pwr.phase with
  | .acquisition =>
    let s := s.modPwr fun p => { p with phase := .stopping, stopTo := dest, stopped := false, draining := false }
    stopCheck (if s.prb.epoch.isNone then endLaunches s s.tim.tick else s)
  | .stopping => s.modPwr fun p => { p with stopTo := dest, draining := p.draining && dest == .survey }
  | _ => s

/-- An acquisition starts from sleep (20 R428, R447): with SURVEY_EN it is that of a survey cycle. -/
def startAcq (s : State) : State :=
  let on : Bool := s.conf.power.surveyEn == 1
  acqBegin (s.modPwr fun p => { p with survey := on, cycle := s.conf.power, wakeTimer := none })

/-! ### Mode commands (18 R400; 20 R428 to R430) -/

/-- ACQ_START (19 R415; 20 R428, R429). -/
def acqStartCmd (s : State) : State × Response :=
  match s.pwr.phase with
  | .golden => (s, plain .denied)
  | .sleep => if s.pwr.standbyWait.isSome then (s, plain .busy) else (startAcq s, plain .deferred)
  | .acquisition => (s, plain .ok)
  | _ => (s, plain .busy)

/-- ACQ_STOP (20 R428, R429): in a survey acquisition the campaign goes on with its end action. -/
def acqStopCmd (s : State) : State × Response :=
  match s.pwr.phase with
  | .acquisition => (beginStop s (if s.pwr.survey then .survey else .sleep), plain .ok)
  | _ => (s, plain .ok)

/-- SLEEP (20 R428, R429): the campaign is suspended. -/
def sleepCmd (s : State) : State × Response :=
  let s := s.modPwr fun p => { p with survey := false, wakeTimer := none }
  (stopCheck (beginStop s .sleep), plain .ok)

/-- STANDBY (20 R430): answered at once, carried out after 100 ms. -/
def standbyCmd (s : State) (wakeS : Nat) : State × Response :=
  if s.mode = 0 then (s, plain (if s.pwr.phase = .golden then .denied else .busy))
  else (s.modPwr fun p => { p with standbyWait := some wakeS, standbyTick := s.tim.tick }, plain .ok)

/-- STANDBY_ENTRY: the 100 ms are over (20 R430). -/
def standbyEntry (s : State) : State :=
  match s.pwr.standbyWait with
  | none => s
  | some w =>
    let s := (s.advance (s.pwr.standbyTick + 100 * msTicks)).modPwr fun p => { p with standbyWait := none, survey := false }
    match s.pwr.phase with
    | .sleep => enterStandby s w
    | _ => stopCheck (beginStop s (.standby w))

/-! ### Survey campaigns (20 R447) -/

/-- SURVEY_ACQ_S after the first launch (20 R447 steps 3 and 4). -/
def surveyAcqEnd (s : State) : State :=
  if s.acquiring ∧ s.pwr.survey ∧ s.prb.launched then
    let t := s.epochTick + s.pwr.cycle.surveyAcqS * secTicks
    beginStop (s.advance t) .survey
  else s

/-- The drain of step 5 completes or times out (20 R447). -/
def surveyDrainEnd (s : State) : State :=
  if s.pwr.phase = .stopping ∧ s.pwr.draining then stopCheck (s.modPwr fun p => { p with draining := false }) else s

/-! ### Wake from standby (20 R431) -/

/-- The module starts from standby; while VRST is asserted the first wake is kept. `by_` are the bits of PWR_WAKE_CAUSE. -/
def wakeUp (s : State) (by_ : BitVec 3) : State :=
  if s.pwr.vrst then (if s.pwr.wakeKept then s else s.modPwr fun p => { p with wakeKept := true, wakeCause := by_ })
  else s.modPwr fun p => { p with phase := .rails, wakeKept := false, wakeCause := by_, causeWake := true, woken := true, wakeTimer := none }

/-- The wake timer may wake the module: enabled by WAKE_POLICY and armed. -/
def State.timerWakes (s : State) : Bool := bit s.cfg.wakePolicy 0 && s.pwr.wakeTimer.isSome

/-- WAKE_IN may wake the module. -/
def State.pinWakes (s : State) : Bool := bit s.cfg.wakePolicy 1

/-- PWR_WAKE_CAUSE of the sources seen in one crystal period (01 R27; 20 R431). -/
def wakeBits (timer pin : Bool) : BitVec 3 := BitVec.ofNat 3 (b2n timer + 2 * b2n pin)

/-- WAKE_IN_EDGE (20 R431). -/
def wakeEdge (s : State) (rising timerToo : Bool) : State :=
  if s.pwr.phase ≠ .standby ∨ !s.pinWakes ∨ rising = bit s.cfg.wakePolicy 2 then s
  else wakeUp s (wakeBits (timerToo && s.timerWakes) true)

/-- WAKE_TIMER_EXPIRY: a wake from standby (20 R431), or a survey cycle in sleep (R447). -/
def wakeTimer (s : State) (pinToo : Bool) : State :=
  match s.pwr.phase with
  | .standby => if s.timerWakes then wakeUp s (wakeBits true (pinToo && s.pinWakes)) else s
  | .sleep => if s.pwr.survey ∧ s.pwr.wakeTimer.isSome ∧ s.pwr.standbyWait = none then startAcq s else s
  | _ => s

/-! ### Supply monitors and reset sources (20 R425 to R427, R432 to R435) -/

/-- The first application of a valid bus (20 R431, R432): with HOLD_ON_POWER the module stays in standby until a wake source. -/
def mainPowerOn (s : State) : State :=
  if s.pwr.busSeen ∨ s.pwr.vao ∨ s.pwr.phase ≠ .rails then s
  else
    let opt := if s.flash.opt.good then s.flash.opt else {}
    let s := s.modPwr fun p => { p with busSeen := true, vrst := false, causeMain := true }
    if bit opt.wakePolicy 3 then
      { s with
        pwr := { s.pwr with phase := .standby, wakeTimer := none }
        cfg := { s.cfg with wakePolicy := opt.wakePolicy } }
    else s.modPwr fun p => { p with wakeCause := 4#3 }

/-- VAO_MONITOR_ASSERT, reach A. -/
def vaoAssert (s : State) : State := reachA s

/-- VAO_MONITOR_RELEASE. -/
def vaoRelease (s : State) : State := s.modPwr fun p => { p with vao := false }

/-- VRST_ASSERT (20 R425, R427): the power-loss entry, then the rails go off. -/
def vrstAssert (s : State) (busMv aMv bMv : Nat) : State :=
  if s.pwr.vrst then s
  else
    let s := s.logAos 0x0101 3 0 (leBytes 2 busMv ++ leBytes 2 aMv ++ leBytes 2 bMv)
    let s := { s with
      aos := { s.aos with lossBoot := s.pwr.bootCount, lossRtc := s.rtcSec, lossCause := 2 }
      pwr := { s.pwr with vrst := true, causeVrst := true } }
    reachB s

/-- VRST_RELEASE (20 R425, R431, R433): the first one is the main power-on; a kept wake starts the module. -/
def vrstRelease (s : State) : State :=
  if !s.pwr.busSeen then mainPowerOn s
  else
    let s := s.modPwr fun p => { p with vrst := false }
    if s.pwr.phase = .standby ∧ s.pwr.wakeKept then wakeUp s s.pwr.wakeCause else s

/-- FEED_LOST (20 R425). -/
def feedLost (s : State) (feed mv : Nat) : State :=
  let ok := if feed = 0 then s.pwr.feedAOk else s.pwr.feedBOk
  if 1 < feed ∨ !ok then s
  else
    let s := s.modPwr fun p => if feed = 0 then { p with feedAOk := false, feedALosses := satAdd 16 p.feedALosses 1, int := p.int.raise 2 }
      else { p with feedBOk := false, feedBLosses := satAdd 16 p.feedBLosses 1, int := p.int.raise 2 }
    s.pulse.logAny 0x0102 2 feed (leBytes 2 mv)

/-- FEED_RESTORED (20 R425). -/
def feedRestored (s : State) (feed : Nat) : State :=
  let ok := if feed = 0 then s.pwr.feedAOk else s.pwr.feedBOk
  if 1 < feed ∨ ok then s
  else s.modPwr fun p =>
    let p := if feed = 0 then { p with feedAOk := true } else { p with feedBOk := true }
    { p with int := p.int.raiseIf p.configured 3 }

/-- VWARN_ASSERT (20 R425, R426). -/
def vwarnAssert (s : State) (mv : Nat) : State :=
  if s.pwr.vwarnMon then s
  else
    let s := s.modPwr fun p => { p with vwarnMon := true, warn := true, warns := satAdd 16 p.warns 1, int := p.int.raise 0 }
    s.logAny 0x0103 0 0 (leBytes 2 mv)

/-- VWARN_RELEASE (20 R425, R426). -/
def vwarnRelease (s : State) : State :=
  if !s.pwr.vwarnMon then s
  else (if s.pwr.warn then s.holdFlags else s).modPwr fun p => { p with
    vwarnMon := false, warn := false, int := p.int.raiseIf p.configured 1 }

/-- RST_N_LOW (20 R434, R435): reach C; in standby only the cause is recorded. -/
def rstLow (s : State) : State :=
  let s := s.modPwr fun p => { p with rstHeld := true, causeRst := true }
  match s.pwr.phase with
  | .standby => s
  | _ => reachC s

/-- RST_N_RELEASE (20 R434). -/
def rstRelease (s : State) : State := s.modPwr fun p => { p with rstHeld := false }

/-! ### Block resets (20 R445) -/

/-- Bit i of PWR_BLKRST names an idle block. -/
def State.blockIdle (s : State) (i : Nat) : Bool :=
  let rest : Bool := s.mode != 2 && s.mode != 3
  rest && (i != 3 || !s.conf.streams.any fun x => x.en == 1 && x.stype == 8)

/-- The dispatcher and winnow reset: queues and tokens emptied. -/
def tilReset (s : State) : State :=
  { s with til := { s.til with
      queues := List.replicate 24 [], waiting := [], shots := [], tokens := [], held := [], winnow := [], cut := none
      tillers := s.til.tillers.filter fun e => match e.2 with | .running _ => false | _ => true } }

/-- The effect of bit i. -/
def blockReset (s : State) (i : Nat) : State :=
  match i with
  | 0 => rxfReset (adcReset s)
  | 1 => tilReset s
  | 2 => zonReset s
  | _ => hkReset s

/-- A WRITE to PWR_BLKRST: every block named is reset, or none. -/
def blkrstWrite (s : State) (v : Nat) : State × Response :=
  let l := (List.range 4).filter fun i => bit v i
  if l.all s.blockIdle then
    let s := l.foldl blockReset s
    (s.modPwr fun p => { p with blkrst := p.blkrst ||| BitVec.ofNat 4 v }, plain .ok)
  else (s, plain .busy)

/-- Tillers that fail their known-answer test after a reset are retired (05 R126); the cause of their entries is not stated (log 6). -/
def retireFailed (s : State) (l : List Nat) : State :=
  l.foldl (fun s i =>
    if s.aos.tillers.contains i ∨ 384 ≤ i then s
    else
      let c := Config.freeNat s.free
      ({ retireTiller s i with free := s.free + 1 } : State).lasting 0x0401 i (leBytes 4 c ++ zeros 12)) s

/-- BLKRST_DONE. -/
def blkrstDone (s : State) (failed : List Nat) : State :=
  if s.pwr.blkrst = 0 then s
  else
    let s := if s.pwr.blkrst.getLsbD 1 then retireFailed s failed else s
    s.modPwr fun p => { p with blkrst := 0, int := p.int.raise 5 }

/-! ### PWR_PADFUSE (20 R437) -/

/-- The code a field is fused with: 5 to 7 read as 0; a field written 0 stays unfused. -/
def fuseCode (v : Nat) : Option Nat := if v = 0 then none else if 5 ≤ v then some 0 else some v

/-- A WRITE to PWR_PADFUSE. -/
def padfuseWrite (s : State) (x : Session) (v : Nat) : State × Response :=
  if s.fuses.lifecycle ≠ 0 ∨ !(x.role == 2 || x.localSess) then (s, plain .denied)
  else
    let pads := s.fuses.pads.mapIdx fun i f => match f with
      | some c => some c
      | none => fuseCode (v / 8 ^ i % 8)
    ({ s with fuses := { s.fuses with pads := pads } }, plain .ok)

/-! ### Role changes that complete an activation (21 R475) -/

/-- ACTIVATE mode 2 on the active: once the role has been given up the module takes its reset of reach C. -/
def activateCheck (s : State) : State :=
  if s.cfg.actSwitch ∧ s.cas.pairRole ≠ 1 then reachC (s.modPwr fun p => { p with causeActivate := true }) else s

/-- After a command that can end launches or change the pair role. -/
def State.settled (s : State) : State := activateCheck (stopCheck s)

/-! ### Meanings -/

/-- ACQ_START, role OPERATOR (18 R400). -/
def execAcqStart (h : Hdr) (s : State) : Host.Outcome State Fault Refusal := s.done (s.command1 h 0x0010 1 fun s _ => acqStartCmd s)

/-- ACQ_STOP, role OPERATOR (18 R400). -/
def execAcqStop (h : Hdr) (s : State) : Host.Outcome State Fault Refusal :=
  s.done (s.command1 h 0x0011 1 fun s _ => acqStopCmd s)

/-- SLEEP, role OPERATOR (18 R400). -/
def execSleep (h : Hdr) (s : State) : Host.Outcome State Fault Refusal := s.done (s.command1 h 0x0012 1 fun s _ => sleepCmd s)

/-- STANDBY, role ADMIN (18 R400). -/
def execStandby (h : Hdr) (wakeS : Nat) (s : State) : Host.Outcome State Fault Refusal :=
  s.done (s.command1 h 0x0013 2 fun s _ => standbyCmd s wakeS)

/-- STANDBY_ENTRY (20 R430). -/
def execStandbyEntry (s : State) : Host.Outcome State Fault Refusal := s.done (standbyEntry s)

/-- LASER_ARM, role OPERATOR (02 R55; 19 R415). -/
def execLaserArm (h : Hdr) (s : State) : Host.Outcome State Fault Refusal :=
  s.done (s.command1 h 0x0014 1 fun s _ => if s.pwr.phase = .golden then (s, plain .denied) else laserArm s)

/-- ILK_N_LOW (02 R52, R53). -/
def execIlkNLow (s : State) : Host.Outcome State Fault Refusal := s.done (ilkLow s)

/-- ILK_QUALIFIED (02 R52). -/
def execIlkQualified (s : State) : Host.Outcome State Fault Refusal := s.done (ilkQualify s)

/-- LD_AMP_DELAY_END (02 R54). -/
def execLdAmpDelayEnd (s : State) : Host.Outcome State Fault Refusal := s.done (ampOn s)

/-- AMP_SETTLE_END (02 R41, R54). -/
def execAmpSettleEnd (s : State) : Host.Outcome State Fault Refusal := s.done (ampSettleEnd s)

/-- LAUNCH_POSITION (02 R41). -/
def execLaunchPosition (raman : List (Nat × Nat)) (s : State) : Host.Outcome State Fault Refusal :=
  s.done (launchPosition s raman).settled

/-- TRACE_PERIOD_BOUNDARY (02 R39). -/
def execTracePeriodBoundary (s : State) : Host.Outcome State Fault Refusal := s.done (boundary s).settled

/-- SHADOW_TABLES_READY (02 R59). -/
def execShadowTablesReady (s : State) : Host.Outcome State Fault Refusal := s.done (tablesReady s)

/-- LAUNCH_MON_EDGE (02 R46). -/
def execLaunchMonEdge (m : TdcIn) (s : State) : Host.Outcome State Fault Refusal := s.done (launchMonEdge s m)

/-- LMON_WINDOW_END (02 R46). -/
def execLmonWindowEnd (s : State) : Host.Outcome State Fault Refusal := s.done (lmonWindowEnd s)

/-- TILLER_TAKE (05 R113). -/
def execTillerTake (tiller : Nat) (s : State) : Host.Outcome State Fault Refusal := s.done (tillerTake s tiller).settled

/-- SHEAF_COMMIT (05 R117). -/
def execSheafCommit (tiller : Nat) (inp : SheafIn) (s : State) : Host.Outcome State Fault Refusal :=
  s.done (dropShots (commitSheaf s tiller inp)).settled

/-- SHEAF_ABORT (05 R118). -/
def execSheafAbort (tiller cause : Nat) (s : State) : Host.Outcome State Fault Refusal := s.done (abortSheaf s tiller cause).settled

/-- SHEAF_OVERRUN (05 R118, R119). -/
def execSheafOverrun (tiller : Nat) (s : State) : Host.Outcome State Fault Refusal := s.done (abortSheaf s tiller 2).settled

/-- TILLER_KAT_DONE (05 R118). -/
def execTillerKatDone (tiller : Nat) (pass : Bool) (s : State) : Host.Outcome State Fault Refusal := s.done (katDone s tiller pass).settled

/-- WINNOW_RELEASE (05 R120). -/
def execWinnowRelease (block : Nat) (s : State) : Host.Outcome State Fault Refusal := s.done (winnowRelease s block).settled

/-- RELEASE_DEADLINE (05 R121). -/
def execReleaseDeadline (block : Nat) (s : State) : Host.Outcome State Fault Refusal := s.done (releaseDeadline s block).settled

/-- SHEAF_ABANDON (05 R121). -/
def execSheafAbandon (r block : Nat) (s : State) : Host.Outcome State Fault Refusal := s.done (abandon s r block).settled

/-- HEARTBEAT_FRAME (15 R335). -/
def execHeartbeatFrame (stream : Nat) (s : State) : Host.Outcome State Fault Refusal := s.done (heartbeat s stream).settled

/-- LINK_DOWN (15 R317). -/
def execLinkDown (port : Nat) (s : State) : Host.Outcome State Fault Refusal := s.done (portDown s port).settled

/-- ARP_REQUEST_TIMER (15 R324). -/
def execArpRequestTimer (port stream : Nat) (s : State) : Host.Outcome State Fault Refusal := s.done (arpTimer s port stream).settled

/-- FRAME_TRANSMIT (15 R338). -/
def execFrameTransmit (port : Nat) (s : State) : Host.Outcome State Fault Refusal := s.done (transmit s port).settled

/-- MAIN_POWER_ON (20 R432). -/
def execMainPowerOn (s : State) : Host.Outcome State Fault Refusal := s.done (mainPowerOn s)

/-- VAO_MONITOR_ASSERT (20 R425). -/
def execVaoMonitorAssert (s : State) : Host.Outcome State Fault Refusal := s.done (vaoAssert s)

/-- VAO_MONITOR_RELEASE (20 R425). -/
def execVaoMonitorRelease (s : State) : Host.Outcome State Fault Refusal := s.done (vaoRelease s)

/-- VRST_ASSERT (20 R427). -/
def execVrstAssert (busMv aMv bMv : Nat) (s : State) : Host.Outcome State Fault Refusal :=
  s.done (vrstAssert s busMv aMv bMv)

/-- VRST_RELEASE (20 R425). -/
def execVrstRelease (s : State) : Host.Outcome State Fault Refusal := s.done (vrstRelease s)

/-- FEED_LOST (20 R425). -/
def execFeedLost (feed mv : Nat) (s : State) : Host.Outcome State Fault Refusal := s.done (feedLost s feed mv)

/-- FEED_RESTORED (20 R425). -/
def execFeedRestored (feed : Nat) (s : State) : Host.Outcome State Fault Refusal := s.done (feedRestored s feed)

/-- VWARN_ASSERT (20 R425). -/
def execVwarnAssert (mv : Nat) (s : State) : Host.Outcome State Fault Refusal := s.done (vwarnAssert s mv)

/-- VWARN_RELEASE (20 R425). -/
def execVwarnRelease (s : State) : Host.Outcome State Fault Refusal := s.done (vwarnRelease s)

/-- RST_N_LOW (20 R434). -/
def execRstNLow (s : State) : Host.Outcome State Fault Refusal := s.done (rstLow s)

/-- RST_N_RELEASE (20 R434). -/
def execRstNRelease (s : State) : Host.Outcome State Fault Refusal := s.done (rstRelease s)

/-- WAKE_IN_EDGE (20 R431). -/
def execWakeInEdge (rising : Bool) (timerToo : Bool) (s : State) : Host.Outcome State Fault Refusal := s.done (wakeEdge s rising timerToo)

/-- WAKE_TIMER_EXPIRY (20 R431, R447). -/
def execWakeTimerExpiry (pinToo : Bool) (s : State) : Host.Outcome State Fault Refusal := s.done (wakeTimer s pinToo)

/-- SURVEY_ACQ_END (20 R447). -/
def execSurveyAcqEnd (s : State) : Host.Outcome State Fault Refusal := s.done (surveyAcqEnd s)

/-- SURVEY_DRAIN_END (20 R447). -/
def execSurveyDrainEnd (s : State) : Host.Outcome State Fault Refusal := s.done (surveyDrainEnd s)

/-- BLKRST_RECEIVER, role OPERATOR (20 R445; 18 R400 WRITE). -/
def execBlkrstReceiver (h : Hdr) (s : State) : Host.Outcome State Fault Refusal :=
  s.done (s.command1 h 0x0002 1 fun s _ => blkrstWrite s 1)

/-- BLKRST_TILLER, role OPERATOR (20 R445). -/
def execBlkrstTiller (h : Hdr) (s : State) : Host.Outcome State Fault Refusal :=
  s.done (s.command1 h 0x0002 1 fun s _ => blkrstWrite s 2)

/-- BLKRST_ZONE, role OPERATOR (20 R445). -/
def execBlkrstZone (h : Hdr) (s : State) : Host.Outcome State Fault Refusal :=
  s.done (s.command1 h 0x0002 1 fun s _ => blkrstWrite s 4)

/-- BLKRST_HOUSEKEEPING, role OPERATOR (20 R445). -/
def execBlkrstHousekeeping (h : Hdr) (s : State) : Host.Outcome State Fault Refusal :=
  s.done (s.command1 h 0x0002 1 fun s _ => blkrstWrite s 8)

/-- BLKRST_DONE (20 R445). -/
def execBlkrstDone (failedTillers : List Nat) (s : State) : Host.Outcome State Fault Refusal := s.done (blkrstDone s failedTillers)

/-- PWR_PADFUSE_WRITE (20 R437): a WRITE, role OPERATOR, that its own check then allows or denies. -/
def execPwrPadfuseWrite (h : Hdr) (val : Word) (s : State) : Host.Outcome State Fault Refusal :=
  s.done (s.command1 h 0x0002 1 fun s x => padfuseWrite s x val.toNat)

/-- FAULT_PULSE_END (20 R443). -/
def execFaultPulseEnd (s : State) : Host.Outcome State Fault Refusal := s.done { s with pads := { s.pads with faultPulse := false } }

/-- HEARTBEAT_SEND (21 R450). -/
def execHeartbeatSend (s : State) : Host.Outcome State Fault Refusal := s.done (beatSend s).settled

/-- ARB_GRANT_CHANGE (21 R466). -/
def execArbGrantChange (low : Bool) (s : State) : Host.Outcome State Fault Refusal := s.done (grantChange s low).settled

end Sys2Proof.Machine
end

