-- ==== Sys2Proof/Machine/Boot.lean ====
section
/-! DEFINITION. Start-up from rails good to the first configured state, selection of firmware and image with their trials, staging and
activation, and the restart of the management core (01 R21; 19 R405 to R419; 20 R438 to R441). -/

namespace Sys2Proof.Machine

/-- CFG fields changed. -/
def State.modCfg (s : State) (f : CfgB → CfgB) : State := { s with cfg := f s.cfg }

/-! ### Option bytes (19 R406, R407) -/

/-- The option bytes as the reset state machine takes them. -/
def Flash.options (f : Flash) : OptBytes := if f.opt.good then f.opt else {}

/-- The option bytes rewritten with a fresh CRC. -/
def State.modOpt (s : State) (f : OptBytes → OptBytes) : State :=
  { s with flash := { s.flash with opt := { f s.flash.options with
      good := true, lifecycle := s.fuses.lifecycle, debugLock := s.fuses.debugLock } } }

/-- A preference byte. -/
def Pref.byte (p : Pref) : Nat := p.slot % 2 + 2 * b2n p.trial + 4 * (p.tries % 4)

/-- The 64 option bytes (19 R406); where MAGIC, VER or CRC is wrong their contents are not stated (log 6). -/
def State.optBytes (s : State) : List Byte :=
  let o := s.flash.opt
  let l := ascii "KOPT" ++ leBytes 1 1 ++ leBytes 1 o.boot.byte ++ leBytes 1 o.fw.byte ++ leBytes 1 o.lifecycle ++
    leBytes 1 (b2n o.debugLock) ++ leBytes 1 o.wakePolicy ++ leBytes 1 o.overlay ++ zeros 1 ++ leBytes 4 o.wakeS ++ zeros 44
  if o.good then l ++ leBytes 4 (crc32 l) else (List.range 64).map fun i => Config.freeByte (s.free + i)

/-! ### Steps 1 and 2 (20 R440) -/

/-- RAILS_GOOD. The RTC has gone on by a number of seconds the model does not know (log 9). -/
def railsGood (s : State) : State :=
  if s.pwr.phase ≠ .rails ∨ s.pwr.vao ∨ s.pwr.vrst ∨ !s.pwr.busSeen then s
  else { s with
    free := s.free + 1
    aos := { s.aos with rtc := (s.aos.rtc + Config.freeNat s.free) % 2 ^ 48 }
    pwr := { s.pwr with phase := .pll, rails := true } }

/-- SYSTEM_PLL_LOCK: the tick index starts, the option bytes are read, the boot counter increases; time comes from the RTC
(01 R17; 16 R348; 19 R407; 20 R435, R440). -/
def pllLock (s : State) (elapsedMs : Nat) : State :=
  if s.pwr.phase ≠ .pll ∨ s.pwr.rstHeld then s
  else
    let o := s.flash.options
    { s with
      pwr := { s.pwr with phase := .mgmt, bootCount := wrapAdd 32 s.pwr.bootCount 1 }
      glb := { s.glb with uptimeBase := elapsedMs }
      aos := { s.aos with rtcTick := 0 }
      tim := { s.tim with
        counting := true, tick := 0, map := { xa := 0, t := s.aos.rtc * sec48, rho := 0 }, mapOld := []
        st := if s.aos.rtcSet then .rtc else .free }
      cfg := { s.cfg with
        wakePolicy := o.wakePolicy, overlay := o.overlay, wakeS := o.wakeS, optBad := !s.flash.opt.good } }

/-! ### Firmware (18 R386; 19 R414, R416) -/

/-- Firmware slot n, 2 the golden one. -/
def Flash.fw (f : Flash) (n : Nat) : List Byte := match n with
  | 0 => f.fw0
  | 1 => f.fw1
  | _ => f.fwGolden

/-- The module runs this firmware (18 R386). -/
def State.fwRuns (s : State) (n : Nat) : Bool :=
  let f := s.flash.fw n
  n == 2 || (!f.isEmpty && Config.fwVerifies f && decide (s.fuses.svnMin ≤ Config.fwSvn f))

/-- A boot falls back (19 R423 CFG_FALLBACKS): counted once per boot. -/
def fallBack (s : State) : State :=
  if s.cfg.fell then s
  else s.modCfg fun c => { c with fell := true, fallbacks := satAdd 16 c.fallbacks 1, int := c.int.raise 0 }

/-- A trial fails (19 R416; 22 R489): TRIAL_FAILED and a log entry; `unit` is the slot as TARGET of R417 names it (log 66). -/
def trialFailed (s : State) (unit tries : Nat) : State :=
  let s := s.modCfg fun c => { c with int := c.int.raise 1 }
  fallBack (s.log 0x0A03 0 unit (leBytes 4 tries))

/-- The firmware is selected and started: the preferred slot, the other one, the golden firmware, with the trial of FW_PREF. -/
def selectFirmware (s : State) : State :=
  let p := s.flash.options.fw
  let s :=
    if p.trial ∧ 3 ≤ p.tries then trialFailed (s.modOpt fun o => { o with fw := { slot := 1 - p.slot } }) (2 + p.slot) p.tries
    else if p.trial then s.modOpt fun o => { o with fw := { p with tries := p.tries + 1 } }
    else s
  let q := s.flash.options.fw
  let n := if s.fwRuns q.slot then q.slot else if s.fwRuns (1 - q.slot) then 1 - q.slot else 2
  let s :=
    if q.trial ∧ n = q.slot then
      (s.modOpt fun o => { o with fw := { slot := q.slot } }).modCfg fun c => { c with int := c.int.raise 2 }
    else if q.trial then trialFailed (s.modOpt fun o => { o with fw := { slot := 1 - q.slot } }) (2 + q.slot) q.tries
    else if n ≠ q.slot then fallBack s
    else s
  let f := s.flash.fw n
  { s with
    fact := { s.fact with fwVersion := Config.fwVersion f % 2 ^ 32, fwSvn := Config.fwSvn f % 2 ^ 32 }
    cfg := { s.cfg with fwSlot := if n = 2 then s.cfg.fwSlot else n, fwGolden := n == 2 } }

/-- The structure at an offset of the AOS fault RAM cleared; none at other offsets (22 R487). -/
def Aos.clear (a : Aos) (ofs : Nat) : Option Aos :=
  if ofs = 0 then some { a with lossBoot := 0, lossRtc := 0, lossCause := 0, nextSeq := 0 }
  else if ofs = 0x040 then some { a with tillers := [] }
  else if ofs = 0x070 then some { a with slices := [], tdcs := [], lanes := [] }
  else if ofs = 0x080 then some { a with sram := [], sramSpareOut := false }
  else if ofs = 0x280 then some { a with dram := [] }
  else if ofs = 0xA80 then some { a with log := [] }
  else none

/-- The retained structures whose CRC fails are cleared and logged (22 R487); the arrangement of the slices follows the map. -/
def clearRetained (s : State) (l : List Nat) : State :=
  let s := l.foldl (fun s ofs => match s.aos.clear ofs with
    | some a => ({ s with aos := a } : State).log 0x0B02 2 (ofs / 16) []
    | none => s) s
  if l.contains 0x070 then { s with adc := adcFresh s.fact s.aos s.adc.polHold } else s

/-- MGMT_CORE_START (20 R440 step 3). -/
def coreStart (s : State) (aosBad : List Nat) : State :=
  if s.pwr.phase ≠ .mgmt then s else (selectFirmware (clearRetained s aosBad)).modPwr fun p => { p with phase := .image }

/-! ### The image (19 R411 to R416) -/

/-- Image slot n, 2 the golden one. -/
def Flash.img (f : Flash) (n : Nat) : List Byte := match n with
  | 0 => f.imgA
  | 1 => f.imgB
  | _ => f.imgGolden

/-- The rejection of a slot as CFG_REJ shows it. -/
def State.setRej (s : State) (slot : Nat) (r : Rej) : State :=
  s.modCfg fun c => if slot = 0 then { c with rejA := r } else { c with rejB := r }

/-- The golden image runs (19 R414, R415): NETWORK and SESSION come from the preferred slot, else the other one, where the record alone
passes. -/
def bootGolden (s : State) : State :=
  let p := s.flash.options.boot.slot
  let from_ (type : Nat) : Option Conf := match recordAlone (s.flash.img p) type with
    | some c => some c
    | none => recordAlone (s.flash.img (1 - p)) type
  let img := s.flash.img 2
  let s := { s with
    conf := {
      net := ((from_ 0x1F).map Conf.net).getD {}
      sessionTimeout := ((from_ 0x24).map Conf.sessionTimeout).getD 60 }
    pwr := { s.pwr with phase := .golden }
    cfg := { s.cfg with
      activeSlot := 2, trial := false, imgVersion := ((imgHead img).map ImgHead.version).getD 0, imgHash := sha256 img, imgKey := 0xFE } }
  s.log 0x0A02 2 0 []

/-- A slot is rejected (19 R412, R414, R416; 22 R489): the other slot is next, or the golden image. -/
def rejectSlot (s : State) (slot : Nat) (r : Rej) : State :=
  let s := s.setRej slot r
  let s := s.log 0x0A01 0 slot (leBytes 4 r.step ++ leBytes 2 r.type ++ leBytes 2 r.inst ++ leBytes 4 r.ofs)
  let p := s.flash.options.boot
  let s := if p.trial ∧ p.slot = slot then trialFailed (s.modOpt fun o => { o with boot := { slot := 1 - slot } }) slot p.tries else s
  let s := (fallBack s).modCfg fun c => { c with tried := addOnce c.tried slot, trial := false, accepted := none }
  if s.cfg.tried.length < 2 then s.modPwr fun p => { p with phase := .image } else bootGolden s

/-- The first slot of a boot (19 R416): a trial slot counts a try, and after three it has failed. -/
def trialStart (s : State) : State :=
  let p := s.flash.options.boot
  if !p.trial ∨ s.cfg.tried ≠ [] then s
  else if 3 ≤ p.tries then trialFailed (s.modOpt fun o => { o with boot := { slot := 1 - p.slot } }) p.slot p.tries
  else s.modOpt fun o => { o with boot := { p with tries := p.tries + 1 } }

/-- IMAGE_VALIDATED (20 R440 step 4): the next slot is validated. In SCRAPPED no image boots and the module stays here (18 R381;
log 67). -/
def imageStep (s : State) : State :=
  if s.pwr.phase ≠ .image ∨ s.fuses.lifecycle = 3 then s
  else
    let s := trialStart s
    let p := s.flash.options.boot
    let slot := match s.cfg.tried with
      | [] => p.slot
      | a :: _ => 1 - a
    let img := s.flash.img slot
    match validate s.vctx img with
    | .error r => rejectSlot s slot r
    | .ok x => { s with
      pwr := { s.pwr with phase := .dram }
      cfg := { s.cfg with
        activeSlot := slot, trial := p.trial && p.slot == slot, accepted := some x.conf, imgVersion := x.head.version
        imgHash := sha256 (img.take (fieldAt img 8 4)), imgKey := keySlotOf x.head.recs } }

/-- The check of R301 leaves its patterns in the first 1 MiB of the system reserve (log 77: which bytes of it, and which patterns, is not
stated). -/
def leavePatterns (s : State) : State :=
  { s with free := s.free + 2 ^ 20, mem := { s.mem with pattern := some s.free, patternGone := [] } }

/-- DRAM_CHECK_DONE (14 R301, R313; 20 R440 step 5): an error rejects the image at step 10; else its settings come into force,
blacklisted rows that pass return to service, and the controller grants the requests that have waited for the check. -/
def dramCheck (s : State) (bad : List Nat) (passing : List Nat) : State :=
  if s.pwr.phase ≠ .dram then s
  else match s.cfg.accepted with
    | none => s
    | some c =>
      let s := leavePatterns s
      if bad ≠ [] then rejectSlot s s.cfg.activeSlot (rejFree 10 0)
      else
        let keep := s.aos.dram.filter fun e => match e.2 with
          | some slot => !passing.contains slot
          | none => false
        (List.range 8).foldl grantAll { s with
          conf := c
          aos := { s.aos with dram := keep }
          pwr := { s.pwr with phase := .step6 }
          mem := { s.mem with ready := true }
          rxf := s.rxf.fixedIn c.receiver s.tim.tick
          cfg := { s.cfg with accepted := none, image := some c }
          coh := { s.coh with refReady := true, refBuilds := satAdd 16 s.coh.refBuilds 1, int := s.coh.int.raise 0 }
          hka := { s.hka with len := c.hk.len, rwrap := c.hk.len }
          til := { s.til with x := c.probe.throughput, blocksRun := c.probe.nblocks } }

/-- The AOS entries not yet in flash go into the ring with their SEQ, and their slots are cleared (22 R491). -/
def copyAosLog (s : State) : State :=
  let l := s.aos.log
  l.foldl (fun s e => writeEntry s { e with eflags := e.eflags ||| 2 }) { s with aos := { s.aos with log := [] } }

/-- The first configured state (19 R416; 20 R441): the trial has passed; sleep, and acquisition at once with AUTOSTART or in a survey
campaign that has woken the module. -/
def configuredState (s : State) : State :=
  let trial := s.cfg.trial
  let s := if trial then s.modOpt fun o => { o with boot := { slot := s.cfg.activeSlot } } else s
  let s := s.modCfg fun c => { c with trial := false, int := c.int.raiseIf trial 2 }
  let on : Bool := s.conf.power.surveyEn == 1
  let s := s.modPwr fun p => { p with configured := true, survey := on, int := p.int.raise 4 }
  let s := loScanStart { s with hka := { s.hka with running := true } }
  let s := enterSleep s
  if s.conf.power.autostart = 1 ∨ (on ∧ s.pwr.woken) then startAcq s else s

/-- STARTUP_STEP6_DONE (20 R440 steps 6 and 7). -/
def step6Done (s : State) (failed : List Nat) : State :=
  if s.pwr.phase ≠ .step6 then s else configuredState (copyAosLog (retireFailed s failed))

/-! ### Staging (19 R417, R418) -/

/-- The slot a TARGET names replaced. -/
def Flash.setTarget (f : Flash) (t : Nat) (l : List Byte) : Flash := match t with
  | 0 => { f with imgA := l }
  | 1 => { f with imgB := l }
  | 2 => { f with fw0 := l }
  | _ => { f with fw1 := l }

/-- The slot a TARGET names. -/
def Flash.target (f : Flash) (t : Nat) : List Byte := if t < 2 then f.img t else f.fw (t - 2)

/-- TARGET is the running slot or a slot in trial. -/
def State.targetUsed (s : State) (t : Nat) : Bool :=
  let o := s.flash.options
  if t < 2 then s.cfg.activeSlot == t || (o.boot.trial && o.boot.slot == t)
  else (!s.cfg.fwGolden && s.cfg.fwSlot == t - 2) || (o.fw.trial && o.fw.slot == t - 2)

/-- STAGE_BEGIN. -/
def stageBegin (s : State) (t force len : Nat) (hash : List Byte) : State × Response :=
  let cap := if t < 2 then 2 ^ 24 else 2 ^ 22
  if 3 < t ∨ 1 < force ∨ cap < len ∨ hash.length ≠ 32 then (s, plain .invalid)
  else if s.targetUsed t then (s, plain .conflict)
  else if s.cfg.stage ≠ .none ∧ force = 0 then (s, plain .busy)
  else ({ s with
      flash := s.flash.setTarget t []
      cfg := { s.cfg with stage := .erasing, stageTarget := t, stageLen := len, stageHash := hash, staged := [] } }, plain .deferred)

/-- STAGE_ERASE_DONE: the erased bytes read 0xFF (log 68). -/
def stageErased (s : State) : State :=
  if s.cfg.stage ≠ .erasing then s
  else { s with
    flash := s.flash.setTarget s.cfg.stageTarget (List.replicate s.cfg.stageLen 0xFF)
    cfg := { s.cfg with stage := .opened, int := s.cfg.int.raise 3 } }

/-- STAGE_WRITE. -/
def stageWrite (s : State) (ofs : Nat) (data : List Byte) : State × Response :=
  let n := data.length
  if s.cfg.stage = .none ∨ ofs % 4 ≠ 0 ∨ n = 0 ∨ n % 4 ≠ 0 ∨ 1024 < n then (s, plain .invalid)
  else if s.cfg.stage = .erasing then (s, plain .busy)
  else if s.cfg.stageLen < ofs + n then (s, plain .invalid)
  else if s.cfg.staged.any fun e => decide (e.1 < ofs + n ∧ ofs < e.1 + e.2) then (s, plain .conflict)
  else
    let l := s.flash.target s.cfg.stageTarget
    ({ s with
      flash := s.flash.setTarget s.cfg.stageTarget (l.take ofs ++ data ++ l.drop (ofs + n))
      cfg := { s.cfg with stage := .opened, staged := s.cfg.staged ++ [(ofs, n)] } }, plain .ok)

/-- What STAGE_CHECK finds: the hash, then an image's steps 1 to 9, or what a firmware must pass to run (19 R417; 18 R386). The record of
a failure that no step names is not stated (log 6). -/
def State.stageVerdict (s : State) : Option Rej :=
  let t := s.cfg.stageTarget
  let l := s.flash.target t
  if sha256 l ≠ s.cfg.stageHash then some { rejFree 0 1 with step := Config.rejField 3 % 16 }
  else if t < 2 then match validate s.vctx l with
    | .error r => some r
    | .ok _ => none
  else if s.fwRuns (t - 2) then none else some { rejFree 0 2 with step := Config.rejField 3 % 16 }

/-- STAGE_CHECK. -/
def stageCheck (s : State) : State × Response :=
  match s.cfg.stage with
  | .none => (s, plain .invalid)
  | .erasing => (s, plain .busy)
  | _ =>
    match s.stageVerdict with
    | some r =>
      (s.modCfg fun c => { c with stage := .opened, rejStage := r, int := c.int.raise 4 }, withData .invalid r.bytes)
    | none => (s.modCfg fun c => { c with stage := .checked, rejStage := {}, int := c.int.raise 4 }, plain .ok)

/-! ### Activation (19 R419; 21 R475) and the management core's restart (01 R21) -/

/-- The management core restarts (01 R21): sessions close, amendments not acknowledged are lost. -/
def mgmtRestart (s : State) : State :=
  let s := s.closeAll
  { s with
    sec := { s.sec with restarting := true, replies := [], spiLast := none }
    cas := { s.cas with proposal := none } }

/-- MGMT_RESUME, within 250 ms (01 R21; 19 R419): the firmware selected runs. -/
def mgmtResume (s : State) : State :=
  if !s.sec.restarting then s
  else selectFirmware { s with sec := { s.sec with restarting := false }, cfg := { s.cfg with fell := false } }

/-- The option bytes of an image activation (19 R407, R419). -/
def writeBoot (s : State) (slot : Nat) (recs : List RawRec) : State :=
  let (w, o, t) := optionsOf recs
  (s.modOpt fun b => { b with boot := { slot := slot, trial := true, tries := 0 }, wakePolicy := w, overlay := o, wakeS := t }).modCfg
    fun c => { c with stage := .none, staged := [] }

/-- What an accepted ACTIVATE does once its response has been sent. -/
inductive Activation where
  | nothing
  | resetC
  | restart
  deriving DecidableEq, Repr

/-- ACTIVATE of an image. -/
def activateImage (s : State) (mode slot : Nat) : State × Response × Activation :=
  match validate s.vctx (s.flash.img slot) with
  | .error _ => (s, plain .invalid, .nothing)
  | .ok x =>
    let same : Bool := s.isPair && x.conf.cascade.role == 3 && fingerprint x.conf == fingerprint s.conf
    match mode with
    | 0 => (dropPending (writeBoot s slot x.head.recs), plain .ok, .resetC)
    | 1 => ((writeBoot s slot x.head.recs).modCfg fun c => { c with actNext := true }, plain .ok, .nothing)
    | _ =>
      if !same then (s, plain .conflict, .nothing)
      else if s.cas.pairRole = 1 then
        match switchAway s 0 with
        | .error e => (s, plain e, .nothing)
        | .ok t => ((dropPending (writeBoot t slot x.head.recs)).modCfg fun c => { c with actSwitch := true }, plain .ok, .nothing)
      else (dropPending (writeBoot s slot x.head.recs), plain .ok, .resetC)

/-- ACTIVATE of a firmware (18 R386; 19 R419). -/
def activateFirmware (s : State) (mode slot : Nat) : State × Response × Activation :=
  if mode = 2 then (s, plain .conflict, .nothing)
  else
    let svn := Config.fwSvn (s.flash.fw slot)
    let s := s.modOpt fun b => { b with fw := { slot := slot, trial := true, tries := 0 } }
    let s := s.modCfg fun c => { c with stage := .none, staged := [] }
    ({ s with fuses := { s.fuses with svnMin := max s.fuses.svnMin svn } }, plain .ok, .restart)

/-- ACTIVATE (19 R417, R419). -/
def activateCmd (s : State) (mode : Nat) : State × Response × Activation :=
  if 2 < mode ∨ s.cfg.stage ≠ .checked then (s, plain .invalid, .nothing)
  else if s.cfg.stageTarget < 2 then activateImage s mode s.cfg.stageTarget
  else activateFirmware s mode (s.cfg.stageTarget - 2)

/-- Management messages on their way out of a port. -/
def mgmtOnly (l : List PortMsg) : List PortMsg := l.filter fun m => match m with
  | .mgmt _ => true
  | _ => false

/-- The reset of reach C of ACTIVATE (20 R432); the responses already handed over still leave the module (log 69). -/
def activateReset (s : State) : State :=
  let t := reachC (s.modPwr fun p => { p with causeActivate := true })
  { t with
    sec := { t.sec with spiTx := s.sec.spiTx }
    net := { t.net with
      portA := { t.net.portA with msgs := mgmtOnly s.net.portA.msgs }, portB := { t.net.portB with msgs := mgmtOnly s.net.portB.msgs } } }

/-- What follows the response of a command. -/
def followUp (s : State) : Activation → State
  | .nothing => activateCheck (if s.cfg.actSwitch then settleRole s else s)
  | .resetC => activateReset s
  | .restart => mgmtRestart s

/-! ### Meanings -/

/-- RAILS_GOOD (20 R440). -/
def execRailsGood (s : State) : Host.Outcome State Fault Refusal := s.done (railsGood s)

/-- SYSTEM_PLL_LOCK (20 R440). -/
def execSystemPllLock (elapsedMs : Nat) (s : State) : Host.Outcome State Fault Refusal := s.done (pllLock s elapsedMs)

/-- MGMT_CORE_START (20 R440; 22 R487). -/
def execMgmtCoreStart (aosBad : List Nat) (s : State) : Host.Outcome State Fault Refusal := s.done (coreStart s aosBad)

/-- IMAGE_VALIDATED (19 R414). -/
def execImageValidated (s : State) : Host.Outcome State Fault Refusal := s.done (imageStep s)

/-- DRAM_CHECK_DONE (14 R301). -/
def execDramCheckDone (badChannels : List Nat) (rowsPassing : List Nat) (s : State) : Host.Outcome State Fault Refusal :=
  s.done (dramCheck s badChannels rowsPassing)

/-- STARTUP_STEP6_DONE (20 R440). -/
def execStartupStep6Done (failedTillers : List Nat) (s : State) : Host.Outcome State Fault Refusal := s.done (step6Done s failedTillers)

/-- STAGE_BEGIN, role ADMIN (19 R417). -/
def execStageBegin (h : Hdr) (target force length : Nat) (hash : List Byte) (s : State) : Host.Outcome State Fault Refusal :=
  s.done (s.command1 h 0x0040 2 fun s _ => stageBegin s target force length hash)

/-- STAGE_ERASE_DONE (19 R417). -/
def execStageEraseDone (s : State) : Host.Outcome State Fault Refusal := s.done (stageErased s)

/-- STAGE_WRITE, role ADMIN (19 R417). -/
def execStageWrite (h : Hdr) (ofs : Nat) (data : List Byte) (s : State) : Host.Outcome State Fault Refusal :=
  s.done (s.command1 h 0x0041 2 fun s _ => stageWrite s ofs data)

/-- STAGE_CHECK, role ADMIN (19 R417). -/
def execStageCheck (h : Hdr) (s : State) : Host.Outcome State Fault Refusal :=
  s.done (s.command1 h 0x0042 2 fun s _ => stageCheck s)

/-- ACTIVATE, role ADMIN (19 R417, R419): the response, then the reset or restart it brings. -/
def execActivate (h : Hdr) (mode : Nat) (s : State) : Host.Outcome State Fault Refusal :=
  s.done (s.commandThen h 0x0043 2 fun s _ =>
    let (t, r, a) := activateCmd s mode
    (t, some r, fun s => followUp s a))

/-- MGMT_RESTART, role ADMIN (01 R21; 18 R400): the response, then the restart. -/
def execMgmtRestart (h : Hdr) (s : State) : Host.Outcome State Fault Refusal :=
  s.done (s.commandThen h 0x0070 2 fun s _ => (s, some (plain .ok), mgmtRestart))

/-- MGMT_RESUME (01 R21). -/
def execMgmtResume (s : State) : Host.Outcome State Fault Refusal := s.done (mgmtResume s)

end Sys2Proof.Machine
end

