-- ==== Sys2Proof/Machine/Trust.lean ====
section
/-! DEFINITION. Handshake, sessions, credentials, keys, attestation, stream keys and lifecycle (18 R381 to R403). -/

namespace Sys2Proof.Machine

/-- SEC fields changed. -/
def State.modSec (s : State) (f : Sec → Sec) : State := { s with sec := f s.sec }

/-! ### Handshake (18 R393 to R395) -/

/-- The slot that holds a CRED_ID. -/
def Flash.credSlot (f : Flash) (id : Nat) : Option Nat :=
  f.creds.findIdx? fun c => match c with
    | some c => c.credId == id
    | none => false

/-- The credential of a slot. -/
def Flash.cred (f : Flash) (slot : Nat) : Option Cred := nth f.creds slot none

/-- The first number from `n` on that is a free SID: non-zero and used by no session. -/
def freeSid (used : List Nat) : Nat → Nat → Nat
  | 0, n => n
  | fuel + 1, n => if n % 65536 = 0 ∨ used.contains (n % 65536) then freeSid used fuel (n + 1) else n % 65536

/-- The least n of SEC_SESS_n that no session holds. -/
def freeSlot (l : List Session) : Nat := ((List.range 4).find? fun n => l.all fun x => x.slot != n).getD 0

/-- SALT of a CHALLENGE for an unknown or locked CRED_ID (18 R394). -/
def State.decoySalt (s : State) (id : Nat) : List Byte := (hmac s.fact.devSecret (leBytes 2 id)).take 16

/-- ITER of a CHALLENGE for an unknown or locked CRED_ID: in the range of a credential's (log 6). -/
def decoyIter (id : Nat) : Nat := 10000 + Config.unknownIter id % 9990001

/-- The CHALLENGE of a half-open session. -/
def Session.challenge (x : Session) : MgmtOut := .challenge x.sid x.salt x.iter x.nd

/-- HELLO at a module that answers (18 R383, R394): a repeated one is answered again, a fifth session is refused, else a half-open
session starts. -/
def helloHere (s : State) (tr : Transport) (src credId : Nat) (nh : List Byte) : State :=
  match s.sec.sess.find? fun x => !x.isOpen && x.credId == credId && x.nh == nh with
  | some x => s.sendMgmt { transport := tr, dst := src, msg := x.challenge }
  | none =>
    if 4 ≤ s.sec.sess.length then
      (s.modSec fun c => { c with busy := satAdd 16 c.busy 1 }).sendMgmt { transport := tr, dst := src, msg := .refuse 0 .busy }
    else
      let loc : Bool := credId == 0 && nh == zeros 32 && tr == .spi && s.fuses.lifecycle == 0
      let slot := (s.flash.credSlot credId).filter fun i => !nth s.sec.locked i false
      let (r, s) := drawBytes s 2
      let (nd, s) := drawBytes s 32
      let (ls, s) := drawBytes s 16
      let sid := freeSid (s.sec.sess.map Session.sid) 5 (leNat r)
      let (salt, iter) := match slot.bind s.flash.cred with
        | some c => (c.salt, c.iter)
        | none => if loc then (ls, Config.freeNat s.free % 2 ^ 32) else (s.decoySalt credId, decoyIter credId)
      let x : Session := {
        sid := sid, slot := freeSlot s.sec.sess, isOpen := false, role := 0, localSess := loc, transport := tr, src := src
        credId := credId, credSlot := slot, nh := nh, nd := nd, salt := salt, iter := iter, hMax := 0, window := []
        lastCmd := s.tim.tick, salts := [], latches := [], group := none, kH2m := [], kM2h := [] }
      let s := { s with free := s.free + 1 }
      (s.modSec fun c => { c with sess := c.sess ++ [x] }).sendMgmt { transport := tr, dst := src, msg := x.challenge }

/-- HELLO (18 R393): a body of another shape is no HELLO. -/
def hello (s : State) (v : Via) (credId : Nat) (nh : List Byte) : State :=
  match s.arrives v with
  | none => s.turnedAway v
  | some s => if !s.answers ∨ 65536 ≤ credId ∨ nh.length ≠ 32 then s else helloHere s v.tr v.src credId nh

/-- K_c of a session's proof: 32 zero bytes for LOCAL, none for an unknown or locked credential (18 R393, R394). -/
def State.proofKey (s : State) (x : Session) : Option (List Byte) :=
  if x.localSess then some (zeros 32)
  else match x.credSlot with
    | none => none
    | some i => if nth s.sec.locked i false then none else (s.flash.cred i).map Cred.kc

/-- HP (18 R393). -/
def hostProof (x : Session) (kc : List Byte) : List Byte :=
  hmac kc (ascii "KT7-HOST" ++ x.nh ++ x.nd ++ leBytes 2 x.sid ++ if x.localSess then [] else leBytes 2 x.credId)

/-- DP (18 R393). -/
def deviceProof (x : Session) (kc : List Byte) : List Byte :=
  hmac kc (ascii "KT7-DEV" ++ x.nd ++ x.nh ++ leBytes 2 x.sid)

/-- A session key (18 R395). -/
def sessionKey (x : Session) (kc : List Byte) (label : String) : List Byte :=
  hkdfExpand32 (hkdfExtract (x.nh ++ x.nd) kc) (ascii label ++ leBytes 2 x.sid)

/-- The role of a session that opens (18 R381, R383, R389). -/
def State.openRole (s : State) (x : Session) : Nat :=
  if s.fuses.lifecycle = 3 then 0
  else if x.localSess then 2
  else ((x.credSlot.bind s.flash.cred).map Cred.role).getD 0

/-- A reply to a proof, kept for its repetitions; the latest 64 are (18 R394). -/
def State.proofReply (s : State) (x : Session) (hp : List Byte) (m : MgmtOut) : State :=
  let a : MgmtSend := { transport := x.transport, dst := x.src, msg := m }
  (s.modSec fun c => { c with replies := ({ sid := x.sid, hp := hp, msg := a } :: c.replies).take 64 }).sendMgmt a

/-- The session opens (18 R393, R395). -/
def proofGood (s : State) (x : Session) (hp kc : List Byte) : State :=
  let role := s.openRole x
  let s := s.modSession x.sid fun y => { y with
    isOpen := true, role := role, lastCmd := s.tim.tick
    kH2m := sessionKey x kc "KT7-SESS-H2M", kM2h := sessionKey x kc "KT7-SESS-M2H" }
  (s.modSec fun c => { c with int := c.int.raise 0 }).proofReply x hp
    (.accept x.sid (deviceProof x kc) s.conf.sessionTimeout role s.fact.serial)

/-- A wrong proof for the credential in a slot: five within 60 s lock it (18 R394). -/
def wrongProof (s : State) (slot : Nat) : State :=
  let l := s.tim.tick :: (nth s.sec.fails slot []).filter fun t => s.tim.tick < t + 60 * secTicks
  if l.length < 5 then s.modSec fun c => { c with fails := modAt c.fails slot fun _ => l }
  else s.modSec fun c => { c with
    fails := modAt c.fails slot fun _ => [], locked := modAt c.locked slot fun _ => true, lockTicks := modAt c.lockTicks slot fun _ => s.tim.tick
    lockouts := satAdd 16 c.lockouts 1, int := c.int.raise 3 }

/-- The proof is refused and its half-open session dropped (18 R394; log 70). -/
def proofBad (s : State) (x : Session) (hp : List Byte) : State :=
  let s := match x.credSlot with
    | some i => if x.localSess ∨ (s.proofKey x).isNone then s else wrongProof s i
    | none => s
  let s := s.modSec fun c => { c with hsFail := satAdd 16 c.hsFail 1, int := c.int.raise 2 }
  (s.closeSession x.sid).proofReply x hp (.refuse x.sid .denied)

/-- PROOF at a module that answers (18 R391, R394): a repeated one receives the same reply; each reply goes where its PROOF came
from. -/
def proofHere (s : State) (v : Via) (sid : Nat) (hp : List Byte) : State :=
  match s.sec.sess.find? fun x => !x.isOpen && x.sid == sid with
  | some x =>
    let s := s.modSession sid fun x => x.from v
    let x := x.from v
    match s.proofKey x with
    | some kc => if hp = hostProof x kc then proofGood s x hp kc else proofBad s x hp
    | none => proofBad s x hp
  | none =>
    match s.sec.replies.find? fun a => a.sid == sid && a.hp == hp with
    | some a => s.sendMgmt { a.msg with transport := v.tr, dst := v.src }
    | none => s

/-- PROOF (18 R393). -/
def proofIn (s : State) (v : Via) (sid : Nat) (hp : List Byte) : State :=
  match s.arrives v with
  | none => s.turnedAway v
  | some s => if s.answers then proofHere s v sid hp else s

/-- MGMT_TAG_FAIL (18 R396): counted, and with its frame where it came in on a port; nothing else. -/
def tagFail (s : State) (v : Via) : State :=
  match s.arrives v with
  | none => s.turnedAway v
  | some s => if s.answers then s.modSec fun c => { c with tagFail := satAdd 32 c.tagFail 1, int := c.int.raise 4 } else s

/-- The place of a session result in its type, the argument of `Config.resultCode`. -/
def Result.index : Result → Nat
  | .ok => 0
  | .deferred => 1
  | .invalid => 2
  | .conflict => 3
  | .busy => 4
  | .denied => 5
  | .unsupported => 6
  | .stale => 7

/-- The code byte of a session result (log 84). -/
def Result.byte (r : Result) : Byte := Config.resultCode r.index

/-- The header of a management datagram (18 R392). -/
def mgmtHeader (mtype sid seq len : Nat) : List Byte :=
  leBytes 1 1 ++ leBytes 1 mtype ++ leBytes 2 sid ++ leBytes 8 seq ++ leBytes 2 len ++ zeros 2

/-- A handshake message, whose SEQ is 0 (18 R392). -/
def handshake (mtype sid : Nat) (body : List Byte) : List Byte := mgmtHeader mtype sid 0 body.length ++ body

/-- The plaintext of a response (18 R396). -/
def Response.plainBytes (r : Response) : List Byte := [r.result.byte] ++ zeros 1 ++ leBytes 2 r.data.length ++ r.data

/-- The nonce of a management datagram (18 R396). -/
def mgmtNonce (sid seq : Nat) : List Byte := leBytes 2 sid ++ zeros 2 ++ leBytes 8 seq

/-- The bytes of a management datagram the module sends (18 R392, R393, R396). -/
def MgmtOut.wire : MgmtOut → List Byte
  | .challenge sid salt iter nd => handshake 2 sid (salt ++ leBytes 4 iter ++ zeros 4 ++ nd)
  | .accept sid dp timeout role serial => handshake 4 sid (dp ++ leBytes 2 timeout ++ leBytes 1 role ++ zeros 1 ++ leBytes 8 serial)
  | .refuse sid code => handshake 5 sid ([code.byte] ++ zeros 3)
  | .response sid seq key r =>
    let p := r.plainBytes
    let h := mgmtHeader 0x11 sid seq (p.length + 16)
    let (c, tag) := aesGcm key (mgmtNonce sid seq) h p
    h ++ c ++ tag

/-- What the SPI target returned to the latest fetch (18 R391): LEN, then the datagram; LEN alone, 0, when none waited. -/
def State.spiAnswer (s : State) : List Byte :=
  match s.sec.spiLast with
  | none => leBytes 2 0
  | some m => leBytes 2 m.msg.wire.length ++ m.msg.wire

/-- SPI_RESPONSE_FETCH (18 R391): the oldest waiting response, LEN 0 when there is none. -/
def spiFetch (s : State) : State :=
  match s.sec.spiTx with
  | [] => s.modSec fun c => { c with spiLast := none }
  | m :: l => s.modSec fun c => { c with spiLast := some m, spiTx := l }

/-- PROOF_TIMEOUT (18 R394): 5 s after its CHALLENGE the half-open session is dropped; a PROOF of the cycle in which they expire comes
before it (01 R26). -/
def proofTimeout (s : State) (sid : Nat) : State :=
  match s.sec.sess.find? fun x => !x.isOpen && x.sid == sid with
  | some x => (s.expire (x.lastCmd + 5 * secTicks)).closeSession sid
  | none => s

/-- CREDENTIAL_LOCK_END (18 R394): a locked slot is so for 60 s; nothing where none is locked. -/
def lockEnd (s : State) (slot : Nat) : State :=
  if nth s.sec.locked slot false then
    (s.expire (nth s.sec.lockTicks slot 0 + 60 * secTicks)).modSec fun c => { c with locked := modAt c.locked slot fun _ => false }
  else s

/-- SESSION_TIMEOUT (18 R399): TIMEOUT seconds without a verified command have passed; a command of the cycle in which they expire comes
before it (01 R26, R27). -/
def sessionTimeoutEv (s : State) (sid : Nat) : State :=
  match s.session sid with
  | none => s
  | some x => (s.expire (x.lastCmd + s.conf.sessionTimeout * secTicks)).closeSession sid

/-! ### Attestation and certificate (18 R384, R385) -/

/-- KEYS of the attestation report. -/
def Fuses.keyBits (f : Fuses) : Nat :=
  let k (i : Nat) : Nat := b2n (nth f.keys i none).isSome * 2 ^ i
  let r (i : Nat) : Nat := b2n (nth f.revoked i false) * 2 ^ i
  (k 0 + k 1 + k 2) + 8 * (r 0 + r 1 + r 2) + 64 * b2n f.debugLock

/-- Bytes 0 to 143 of the attestation report. -/
def State.attestBody (s : State) (nonce : List Byte) : List Byte :=
  leBytes 1 1 ++ leBytes 1 s.fuses.lifecycle ++ leBytes 1 s.cfg.activeSlot ++ leBytes 1 s.cfg.imgKey ++ leBytes 1 s.fuses.keyBits ++
    leBytes 1 s.fuses.order ++ zeros 2 ++ leBytes 8 s.fact.serial ++ leBytes 4 s.fact.fwVersion ++ leBytes 4 s.fact.fwSvn ++
    leBytes 4 s.pwr.bootCount ++ zeros 4 ++ s.cfg.imgHash ++ nonce ++ leBytes 12 (tsLayout s.now) ++ leBytes 1 s.tim.st.code ++
    zeros 3 ++ sha256 s.optBytes

/-- ATTEST. -/
def attestCmd (s : State) (nonce : List Byte) : State × Response :=
  if nonce.length ≠ 32 then (s, plain .invalid)
  else
    let (k, t) := drawBytes s 32
    let b := s.attestBody nonce
    (t, withData .ok (b ++ ecdsaSign s.fact.devKey (sha256 b) (1 + beNat k % (p256N - 1))))

/-- CERT_READ. -/
def certRead (s : State) (ofs count : Nat) : State × Response :=
  if 1024 < count ∨ 65536 ≤ ofs then (s, plain .invalid) else (s, withData .ok (slice s.fact.cert ofs count))

/-! ### Stream keys (18 R402, R403) -/

/-- STREAM_KEY. -/
def streamKeyCmd (s : State) (stream epoch : Nat) : State × Response :=
  match s.ksmOf epoch with
  | some k => if stream < 16 then (s, withData .ok (streamKeyOf k s.fact.serial stream epoch)) else (s, plain .invalid)
  | none => (s, plain .invalid)

/-- STREAM_REKEY: streams that form no units move at once. -/
def streamRekey (s : State) : State × Response :=
  if !s.acquiring ∨ s.sec.rekeyPend then (s, plain .busy)
  else
    let e := (s.sec.kepoch + 1) % 256
    let (k, t) := drawBytes s 32
    let s := if e = 0 then t.modSec fun c => { c with ksmPend := some k } else s
    let s := s.modSec fun c => { c with rekeyPend := true }
    ((List.range 16).foldl (fun s n => if (s.strCfg n).en = 1 then s else moveEpoch s n) s, withData .deferred (leBytes 1 e))

/-! ### Credentials (18 R389, R390) -/

/-- The slots that hold an ADMIN credential. -/
def Flash.admins (f : Flash) : List Nat :=
  (List.range 8).filter fun i => match f.cred i with
    | some c => c.role == 2
    | none => false

/-- A credential slot written: its wrong proofs and lock were those of the credential before (log 70). -/
def State.setCred (s : State) (slot : Nat) (c : Option Cred) : State :=
  { s with
    flash := { s.flash with creds := modAt s.flash.creds slot fun _ => c }
    sec := { s.sec with fails := modAt s.sec.fails slot fun _ => [], locked := modAt s.sec.locked slot fun _ => false } }

/-- Every session opened under a credential slot is closed (18 R390). -/
def closeUnder (slot : Nat) (s : State) : State :=
  ((s.sec.sess.filter fun x => x.credSlot == some slot).map Session.sid).foldl State.closeSession s

/-- A change that takes the last ADMIN credential away is refused in PROVISIONED and SECURED. -/
def State.lastAdmin (s : State) (slot : Nat) : Bool :=
  (s.fuses.lifecycle == 1 || s.fuses.lifecycle == 2) && s.flash.admins == [slot]

/-- CRED_SALT. -/
def credSalt (s : State) (x : Session) (slot : Nat) : State × Response :=
  if 8 ≤ slot then (s, plain .invalid)
  else
    let (b, s) := drawBytes s 16
    (s.modSession x.sid fun y => { y with salts := (slot, b) :: y.salts.filter fun e => e.1 != slot }, withData .ok b)

/-- CRED_SET. -/
def credSet (s : State) (x : Session) (slot credId role iter : Nat) (kc : List Byte) : State × Response × Bool :=
  let used : Bool := match s.flash.credSlot credId with
    | some i => i != slot
    | none => false
  if 8 ≤ slot ∨ credId = 0 ∨ 65536 ≤ credId ∨ used ∨ 2 < role ∨ iter < 10000 ∨ 10000000 < iter ∨ kc.length ≠ 32 then
    (s, plain .invalid, false)
  else match x.salts.find? fun e => e.1 == slot with
    | none => (s, plain .invalid, false)
    | some (_, salt) =>
      if s.lastAdmin slot ∧ role ≠ 2 then (s, plain .denied, false)
      else (s.setCred slot (some { credId, role, salt, iter, kc }), plain .ok, true)

/-- CRED_CLEAR. -/
def credClear (s : State) (slot : Nat) : State × Response × Bool :=
  if 8 ≤ slot then (s, plain .invalid, false)
  else if s.lastAdmin slot then (s, plain .denied, false)
  else (s.setCred slot none, plain .ok, true)

/-! ### Signing keys (18 R388) -/

/-- KEY_FUSE. -/
def keyFuse (s : State) (slot : Nat) (hash : List Byte) : State × Response :=
  if 3 ≤ slot ∨ hash.length ≠ 32 then (s, plain .invalid)
  else if 2 ≤ s.fuses.lifecycle ∨ (nth s.fuses.keys slot none).isSome then (s, plain .denied)
  else ({ s with fuses := { s.fuses with keys := modAt s.fuses.keys slot fun _ => some hash } }, plain .ok)

/-- The slot holds a fused key that is not revoked. -/
def Fuses.keyLives (f : Fuses) (slot : Nat) : Bool := (nth f.keys slot none).isSome && !nth f.revoked slot false

/-- The signed bytes of a revocation. -/
def State.revokeText (s : State) (slot : Nat) : List Byte := ascii "KT7-REVOKE" ++ leBytes 8 s.fact.serial ++ leBytes 1 slot

/-- KEY_REVOKE: the checks in the order shape, last slot, signature, active image (log 70). -/
def keyRevoke (s : State) (slot signer : Nat) (pub sig : List Byte) : State × Response :=
  if !s.fuses.keyLives slot ∨ 3 ≤ signer ∨ pub.length ≠ 65 ∨ sig.length ≠ 64 then (s, plain .invalid)
  else if (List.range 3).all fun i => i == slot || !s.fuses.keyLives i then (s, plain .denied)
  else if signer = slot ∨ !s.fuses.keyLives signer ∨ some (sha256 pub) ≠ nth s.fuses.keys signer none ∨
      !ecdsaOk pub (sha256 (s.revokeText slot)) sig then (s, plain .invalid)
  else if s.cfg.imgKey = slot then (s, plain .conflict)
  else ({ s with fuses := { s.fuses with revoked := modAt s.fuses.revoked slot fun _ => true } }, plain .ok)

/-! ### Lifecycle (18 R381, R382) -/

/-- CONFIRM of LIFECYCLE (18 R400). -/
def State.confirmWord (s : State) : Nat := (s.fact.serial % 2 ^ 32) ^^^ 0xA5A5A5A5

/-- The precondition of a transition (18 R382). -/
def State.lifecycleOk (s : State) (target : Nat) : Bool :=
  let now := s.sec.lifePend.getD s.fuses.lifecycle
  match target with
  | 1 => now == 0 && s.flash.admins != [] && s.fuses.keys.any Option.isSome &&
      (match s.cfg.image with
       | some c => c.streams.all fun x => x.en != 1 || x.auth != 0
       | none => true)
  | 2 => now == 1 && s.fuses.keyLives s.cfg.imgKey
  | 3 => now != 3
  | _ => false

/-- LIFECYCLE: the fuses are written after the response. -/
def lifecycleCmd (s : State) (target confirm : Nat) : State × Response :=
  if 3 < target ∨ confirm ≠ s.confirmWord then (s, plain .invalid)
  else if s.lifecycleOk target then (s.modSec fun c => { c with lifePend := some target }, plain .ok)
  else (s, plain .denied)

/-- What SCRAPPED does (18 R382): the acquisition stops with its launches at once, image slots A and B, the credentials and DRAM are
erased. -/
def scrap (s : State) : State :=
  let s := s.modPwr fun p => { p with survey := false, wakeTimer := none }
  let s := match s.pwr.phase with
    | .acquisition =>
      endLaunches (s.modPwr fun p => { p with phase := .stopping, stopTo := .sleep, stopped := false, draining := false }) s.tim.tick
    | .stopping => endLaunches (s.modPwr fun p => { p with stopTo := .sleep }) s.tim.tick
    | _ => s
  let s := acqClear (qsClearRefs s)
  { s with
    qss := { s.qss with acc := [] }
    mem := { s.mem with data := [], pattern := none }
    flash := { s.flash with imgA := [], imgB := [], creds := List.replicate 8 none } }

/-- LIFECYCLE_FUSE_WRITE: fuses and their copy in the option bytes are written, and the management core restarts (18 R382). -/
def lifecycleWrite (s : State) : State :=
  match s.sec.lifePend with
  | none => s
  | some t =>
    let s := { s with
      fuses := { s.fuses with lifecycle := t, debugLock := s.fuses.debugLock || t == 2 }
      sec := { s.sec with lifePend := none, int := s.sec.int.raise 6 } }
    let s := s.modOpt id
    mgmtRestart (stopCheck (if t = 3 then scrap s else s))

/-! ### Meanings -/

/-- ATTEST (18 R385). -/
def execAttest (h : Hdr) (nonce : List Byte) (s : State) : Host.Outcome State Fault Refusal :=
  s.done (s.command1 h 0x0050 0 fun s _ => attestCmd s nonce)

/-- CERT_READ (18 R384). -/
def execCertRead (h : Hdr) (ofs count : Nat) (s : State) : Host.Outcome State Fault Refusal :=
  s.done (s.command1 h 0x0051 0 fun s _ => certRead s ofs count)

/-- STREAM_KEY (18 R402). -/
def execStreamKey (h : Hdr) (stream epoch : Nat) (s : State) : Host.Outcome State Fault Refusal :=
  s.done (s.command1 h 0x0052 0 fun s _ => streamKeyCmd s stream epoch)

/-- STREAM_REKEY, role OPERATOR (18 R403). -/
def execStreamRekey (h : Hdr) (s : State) : Host.Outcome State Fault Refusal :=
  s.done (s.command1 h 0x0053 1 fun s _ => streamRekey s)

/-- CRED_SALT, role ADMIN (18 R390). -/
def execCredSalt (h : Hdr) (slot : Nat) (s : State) : Host.Outcome State Fault Refusal :=
  s.done (s.command1 h 0x0060 2 fun s x => credSalt s x slot)

/-- CRED_SET, role ADMIN (18 R390). -/
def execCredSet (h : Hdr) (slot credId role iter : Nat) (kc : List Byte) (s : State) : Host.Outcome State Fault Refusal :=
  s.done (s.commandThen h 0x0061 2 fun s x =>
    let (t, r, c) := credSet s x slot credId role iter kc
    (t, some r, if c then closeUnder slot else id))

/-- CRED_CLEAR, role ADMIN (18 R390). -/
def execCredClear (h : Hdr) (slot : Nat) (s : State) : Host.Outcome State Fault Refusal :=
  s.done (s.commandThen h 0x0062 2 fun s _ =>
    let (t, r, c) := credClear s slot
    (t, some r, if c then closeUnder slot else id))

/-- KEY_FUSE, role ADMIN (18 R388). -/
def execKeyFuse (h : Hdr) (slot : Nat) (hash : List Byte) (s : State) : Host.Outcome State Fault Refusal :=
  s.done (s.command1 h 0x0063 2 fun s _ => keyFuse s slot hash)

/-- KEY_REVOKE, role ADMIN (18 R388). -/
def execKeyRevoke (h : Hdr) (slot signer : Nat) (pub sig : List Byte) (s : State) : Host.Outcome State Fault Refusal :=
  s.done (s.command1 h 0x0064 2 fun s _ => keyRevoke s slot signer pub sig)

/-- LIFECYCLE, role ADMIN (18 R382). -/
def execLifecycle (h : Hdr) (target confirm : Nat) (s : State) : Host.Outcome State Fault Refusal :=
  s.done (s.command1 h 0x0065 2 fun s _ => lifecycleCmd s target confirm)

/-- LIFECYCLE_FUSE_WRITE (18 R382). -/
def execLifecycleFuseWrite (s : State) : Host.Outcome State Fault Refusal := s.done (lifecycleWrite s)

/-- CLOSE (18 R399): the session closes after its response. -/
def execClose (h : Hdr) (s : State) : Host.Outcome State Fault Refusal :=
  s.done (s.commandThen h 0x007F 0 fun s x => (s, some (plain .ok), fun s => s.closeSession x.sid))

/-- HELLO (18 R394). -/
def execHello (via : Via) (credId : Nat) (nh : List Byte) (s : State) : Host.Outcome State Fault Refusal :=
  s.done (hello s via credId nh)

/-- PROOF (18 R394). -/
def execProof (via : Via) (sid : Nat) (hp : List Byte) (s : State) : Host.Outcome State Fault Refusal := s.done (proofIn s via sid hp)

/-- MGMT_TAG_FAIL (18 R396). -/
def execMgmtTagFail (via : Via) (s : State) : Host.Outcome State Fault Refusal := s.done (tagFail s via)

/-- SPI_RESPONSE_FETCH (18 R391). -/
def execSpiResponseFetch (s : State) : Host.Outcome State Fault Refusal := s.done (spiFetch s)

/-- PROOF_TIMEOUT (18 R394). -/
def execProofTimeout (sid : Nat) (s : State) : Host.Outcome State Fault Refusal := s.done (proofTimeout s sid)

/-- CREDENTIAL_LOCK_END (18 R394). -/
def execCredentialLockEnd (slot : Nat) (s : State) : Host.Outcome State Fault Refusal := s.done (lockEnd s slot)

/-- SESSION_TIMEOUT (18 R399). -/
def execSessionTimeout (sid : Nat) (s : State) : Host.Outcome State Fault Refusal := s.done (sessionTimeoutEv s sid)

end Sys2Proof.Machine
end

