-- ==== Sys2Proof/Machine/Registers.lean ====
section
/-! DEFINITION. The registers of every block as the status map shows them (02 R65, 03 R88, 04 R105, 05 R132, 07 R168, 08 R191,
09 R215, R216, 10 R237, 11 R254, 12 R255, R270, 13 R293, 14 R315, 15 R340, 16 R360, 17 R380, 18 R404, 19 R423, 20 R448, 21 R477,
22 R492, 23 R505). Each block gives its words as (offset, value); read-clear fields, INT_STATUS and INT_ENABLE stand in RegMap. -/

namespace Sys2Proof.Machine

/-- A word from its fields: low bit, width, value. -/
def regWord (l : List (Nat × Nat × Nat)) : Nat := (l.map fun f => f.2.2 % 2 ^ f.2.1 * 2 ^ f.1).sum

/-- A word of flags from bit 0 on. -/
def flagWord : List Bool → Nat
  | [] => 0
  | b :: l => b2n b + 2 * flagWord l

/-- A value of 64 bits in two words. -/
def wide (off v : Nat) : List (Nat × Nat) := [(off, v % 2 ^ 32), (off + 4, v / 2 ^ 32 % 2 ^ 32)]

/-- A byte string as words. -/
def wordsOf (off n : Nat) (b : List Byte) : List (Nat × Nat) := (List.range n).map fun i => (off + 4 * i, wordAt b (4 * i))

/-- A number divided by a step, rounded to nearest (log 12). -/
def inUnits (v step : Nat) : Nat := (roundDiv v step).toNat

/-- A setting of the active image; the registers read 0 while no probe comb is configured. -/
def ProbeRec.derived (p : ProbeRec) (v : Nat) : Nat := if p.ttr = 0 then 0 else v

/-- UPTIME (23 R505): ms since the latest start-up began. -/
def State.uptime (s : State) : Nat := s.glb.uptimeBase + if s.tim.counting then s.tim.tick / msTicks else 0

/-- The level that the module drives on GPIO n, none where it drives none: its fuse-map state before the first configured state, then by
its function (19 R410; 20 R436, R437; 23 R505). -/
def State.gpioDrives (s : State) (n : Nat) : Option Bool :=
  if s.pwr.configured then
    match nth s.conf.gpio n 0 with
    | 2 => some (s.glb.gpioOut.getLsbD n)
    | 3 => some s.pads.ppsOut
    | _ => none
  else
    match nth s.fuses.pads n none with
    | some 3 => some false
    | some 4 => some true
    | _ => none

/-- Under the pad-function overlay NET_A and NET_B exchange positions (24 R508; 20 R438). -/
def State.netsExchanged (s : State) : Bool := s.pwr.configured && bit s.cfg.overlay 0

/-- Under the pad-function overlay the P and N pads of every NET and Dzirak pair exchange (24 R508; 20 R438). -/
def State.pairsExchanged (s : State) : Bool := s.pwr.configured && bit s.cfg.overlay 1

/-- GPIO_IN: the level of each GPIO, driven by the module or from outside (23 R505). -/
def State.gpioLevels (s : State) : Nat :=
  flagWord ((List.range 8).map fun n => (s.gpioDrives n).getD (s.pads.gpioIn.getLsbD n))

/-- GLB (23 R505). -/
def glbRegs (s : State) : List (Nat × Nat) :=
  let o := s.fuses.order
  let golden : Bool := s.cfg.activeSlot == 2
  [(0x000, 0x00074B4D),
   (0x004, regWord [(0, 1, o), (8, 8, if o = 0 then 128 else 64), (16, 8, s.dramGib)]),
   (0x008, regWord [(0, 8, s.fact.dieRev), (8, 8, s.fact.substrateRev), (16, 8, s.fact.aosRev)])] ++
  wide 0x00C s.fact.serial ++
  [(0x014, s.fact.fwVersion), (0x018, 1)] ++
  [(0x01C, s.fact.mac % 2 ^ 32), (0x020, s.fact.mac / 2 ^ 32 % 2 ^ 16),
   (0x040, regWord [(0, 2, s.mode), (2, 1, b2n s.faultHeld), (3, 1, b2n s.alive), (4, 1, b2n golden), (5, 1, b2n s.amended),
     (6, 1, b2n s.intN), (7, 3, s.tim.st.code), (10, 2, s.cas.pairRole), (12, 1, b2n s.unsync), (13, 1, b2n s.pwr.warn),
     (14, 1, b2n (s.til.k != 0 || s.til.shedding))])] ++
  wide 0x048 s.uptime ++
  [(0x050, s.glb.scratch.toNat), (0x060, s.gpioLevels), (0x064, s.glb.gpioOut.toNat),
   (0x068, regWord (s.conf.gpio.mapIdx fun i f => (2 * i, 2, f))),
   (0x110, s.intPend.toNat), (0x114, s.glb.intMask.toNat)]

/-- PWR_CAUSE (20 R435, R448). -/
def Pwr.causeWord (p : Pwr) : Nat := flagWord [p.causeVao, p.causeMain, p.causeVrst, p.causeRst, p.causeActivate, p.causeWake]

/-- PWR_PADFUSE as it reads (20 R437): an unfused field reads 0. -/
def Fuses.padWord (f : Fuses) : Nat := regWord (f.pads.mapIdx fun i c => (3 * i, 3, c.getD 0))

/-- PWR (20 R448). -/
def pwrRegs (s : State) : List (Nat × Nat) :=
  let p := s.pwr
  let c := s.conf.power
  [(0x000, regWord [(0, 2, s.mode), (2, 1, b2n p.feedAOk), (3, 1, b2n p.feedBOk), (4, 1, b2n p.warn), (5, 1, b2n p.survey),
     (6, 1, b2n s.faultHeld), (7, 1, b2n s.alive)]),
   (0x004, p.causeWord), (0x008, p.wakeCause.toNat), (0x00C, p.bootCount), (0x010, c.vwarn),
   (0x014, regWord [(0, 1, c.autostart), (1, 1, c.surveyEn), (2, 1, c.surveyEnd), (8, 8, s.cfg.wakePolicy), (16, 2, s.cfg.overlay)]),
   (0x018, s.cfg.wakeS), (0x01C, c.surveyAcqS), (0x020, c.surveyDrainS), (0x024, p.surveyCycles)] ++
  wide 0x028 s.rtcSec ++ [(0x044, s.fuses.padWord)]

/-- A committed amendment of a record of the type waits for its boundary (21 R461). -/
def State.commitWaits (s : State) (type : Nat) : Bool := s.cas.commits.any fun c => c.recs.any fun r => r.type == type

/-- PRB (02 R65). -/
def prbRegs (s : State) : List (Nat × Nat) :=
  let x := s.prb
  let p := s.conf.probe
  let ready : Bool := match x.pend with
    | some a => a.ready
    | none => false
  [(0x000, flagWord [s.pads.ldEn, s.pads.ampEn, x.launching, s.probeMuted, x.ilkOk,
     x.pend.isSome || s.commitWaits 0x10, ready, x.lmonFrozen] +
     256 * (p.plan % 8)),
   (0x004, regWord [(0, 8, p.slots), (8, 3, p.pitchLog2), (11, 2, p.dir), (13, 3, p.taper), (16, 1, p.qInv), (17, 1, p.lmonEn)]),
   (0x008, p.ttr), (0x00C, p.interval), (0x010, p.nc), (0x014, ofInt 16 p.offset),
   (0x018, regWord [(0, 10, p.gateLead), (16, 10, p.gateTrail)]), (0x01C, regWord [(0, 8, p.dtsPos), (16, 9, p.dtsWidth)]),
   (0x020, p.dtsDelay), (0x024, p.launchOffset)] ++ wide 0x028 x.rawIdx ++
  [(0x030, x.lmonD), (0x034, ofInt 32 x.lmonDrift), (0x038, ofInt 8 x.lmonApplied), (0x040, x.trainEnd % 2 ^ 32)]

/-- RXF (03 R88). -/
def rxfRegs (s : State) : List (Nat × Nat) :=
  let x := s.rxf
  let c := s.conf.receiver
  [(0x000, x.range % 4 + 4 * flagWord [s.autoRange, s.rangeFrozen, x.floorValid, x.endValid, x.broken, s.endSuspended, x.loLow,
     x.loHigh, x.loLost]),
   (0x004, regWord [(0, 1, c.mode), (1, 2, c.fixedRange), (3, 2, c.startRange), (5, 1, c.endEn), (6, 5, c.endThr)])] ++
  wide 0x00C x.switchTick ++
  [(0x018, ofInt 16 x.loPwr), (0x01C, ofInt 16 c.loMin), (0x020, x.endRef), (0x024, x.endNow), (0x028, x.endDecl)] ++
  (x.floors.mapIdx fun r f => (0x02C + 4 * r, f)) ++ s.fact.gains.mapIdx fun i g => (0x040 + 4 * i, g)

/-- STATE code of a slice (04 R105). -/
def SliceState.code : SliceState → Nat
  | .serving => 0
  | .out => 1
  | .retired => 2

/-- ADC_SLICE (04 R105). -/
def Slice.word (x : Slice) : Nat :=
  let tap := match x.phase with
    | some p => nth x.taps p 0
    | none => 0
  regWord [(0, 8, ofInt 8 x.off), (8, 8, ofInt 8 x.gain), (16, 5, tap), (21, 4, x.phase.getD 0xF), (25, 2, x.state.code),
    (27, 1, b2n x.suspect), (28, 2, min 2 x.rejRun)]

/-- ADC (04 R105). -/
def adcRegs (s : State) : List (Nat × Nat) :=
  let a := s.adc
  [(0x000, regWord ([(0, 1, b2n a.running), (1, 1, b2n a.initDone), (10, 1, b2n a.polXLost), (11, 1, b2n a.polYLost)] ++
     (a.lanes.mapIdx fun n l => (2 + n, 1, b2n (decide (0 < l.retired)))) ++ a.lanes.mapIdx fun n l => (6 + n, 1, b2n l.lost))),
   (0x004, a.rotCount % 2 ^ 32), (0x008, regWord (a.lanes.mapIdx fun n l => (4 * n, 4, l.out.getD 0xF)))] ++
  (s.fact.laneDelay.mapIdx fun n d => (0x010 + 4 * n, ofInt 16 d)) ++
  a.lanes.zipIdx.flatMap fun (l, n) => l.slices.mapIdx fun i x => (0x100 + 4 * (9 * n + i), x.word)

/-- TIL_TSTATE code (05 R132). -/
def TState.code : TState → Nat
  | .idle => 0
  | .running _ => 1
  | .test _ _ => 2
  | .retired => 3

/-- TIL (05 R132). -/
def tilRegs (s : State) : List (Nat × Nat) :=
  let x := s.til
  let h := s.healthyCount
  [(0x000, flagWord [x.running, x.k != 0, x.shedding, x.kPend.isSome]), (0x004, h),
   (0x008, regWord [(0, 16, inUnits x.x 10000000), (16, 16, inUnits (1600 * min 352 h) 352)]),
   (0x00C, regWord [(0, 8, x.k), (16, 8, x.blocksRun)])] ++ wide 0x010 x.origin ++
  [(0x018, x.shotDealt), (0x01C, x.blockDealt), (0x020, x.steals)] ++
  ((List.range 24).map fun n => (0x040 + 4 * n, regWord [(0, 7, (x.queue n).length), (16, 5, s.spkHealthy n)])) ++
  (List.range 24).map fun n => (0x100 + 4 * n, regWord ((List.range 16).map fun t => (2 * t, 2, (s.tiller (16 * n + t)).code)))

/-- CH_MAX (07 R162, R168). -/
def ProbeRec.chMax (p : ProbeRec) : Nat := (List.range p.slots).foldl (fun m k => max m (slotChannels p k).length) 0

/-- COH, both register groups (07 R168; 08 R191). -/
def cohRegs (s : State) : List (Nat × Nat) :=
  let x := s.coh
  let p := s.conf.probe
  let ph := s.conf.phase
  [(0x000, flagWord [x.refReady, x.winPend.isSome || s.commitWaits 0x13, decide (4 ≤ p.plan)]),
   (0x004, regWord [(0, 2, s.conf.window), (2, 4, p.derived (niLog2 p)), (6, 4, p.derived (nfLog2 p)), (10, 4, p.derived p.chMax),
     (14, 8, p.derived (pathOf p.plan).m)]),
   (0x008, p.derived (pathOf p.plan).dp), (0x00C, x.rows),
   (0x100, regWord [(0, 8, ph.gauge), (8, 4, Nat.log2 ph.ntrain), (12, 4, ph.fadeShift), (16, 1, ph.quantity), (17, 5, ph.ss),
     (22, 4, p.derived (scaleKs ph p))]),
   (0x104, p.derived (scaleKAt ph p (scaleKs ph p)) % 2 ^ 16), (0x108, trackU ph p), (0x10C, ph.lambda), (0x110, epsLsb ph p),
   (0x114, ph.rawLsb),
   (0x120, regWord [(0, 1, b2n x.allTrained), (1, 1, b2n (x.phPend.isSome || s.commitWaits 0x14)), (8, 8, x.trained.length)])]

/-- GD of the bank in force in 1/256 raw sample (09 R212, R215). -/
def State.gdWord (s : State) : Nat :=
  if s.dec.bankSet then 512 * (s.conf.dec.cicR - 1) + s.conf.dec.cicR * (s.conf.bank s.dec.bank).gd else 0

/-- DEC (09 R215). XFADE, as BANK_STATE 3, shows a crossfade from its first output on; XF_TO, XF_START and XF_LEN name it from its
acceptance (DESIGN CHOICE, log 83). -/
def decRegs (s : State) : List (Nat × Nat) :=
  let x := s.dec
  let c := s.conf.dec
  let fading : Bool := match x.xf with
    | some f => f.started
    | none => false
  let n := nSet c.taps c.cicR c.firDf
  let on (v : Nat) : Nat := if c.taps = 0 then 0 else v
  let pend := x.swap.getD { req := 0, bank := 0, len := 0 }
  [(0x000, regWord [(0, 1, b2n x.running), (1, 1, b2n x.settling), (2, 1, b2n fading), (3, 1, b2n x.swap.isSome),
     (4, 1, b2n x.syncPend.isSome), (5, 2, x.bank), (7, 2, (x.xf.map Xfade.dst).getD 0), (9, 1, b2n x.minphase)]),
   (0x004, regWord [(0, 10, c.cicR), (10, 5, c.firDf), (15, 8, c.taps), (23, 6, cicShift c.cicR), (29, 2, c.syncSrc)]),
   (0x008, regWord [(0, 8, on n), (8, 8, on (n + 1)), (16, 14, on (nFill c.fillPct c.cicR c.firDf))]), (0x00C, c.fillPct),
   (0x010, s.gdWord)] ++
  wide 0x014 ((x.grids.head?.map Grid.ns).getD 0) ++ wide 0x01C x.outSeq ++ wide 0x024 x.xfStart ++
  [(0x02C, regWord [(0, 13, x.xfLen), (16, 13, pend.len), (29, 2, pend.bank)])]

/-- PSH, ACTIVE, BUF and WIN_LO of a block (10 R237). -/
def QsWin.word (w : QsWin) : Nat :=
  let i := match w.run with
    | some r => r.w
    | none => w.w
  regWord [(0, 6, (w.run.map QsRun.psh).getD 0), (6, 1, b2n w.run.isSome), (7, 1, i), (8, 24, i)]

/-- Blocks in which every position has a reference (10 R237). -/
def State.refBlocks (s : State) : Nat :=
  ((List.range s.conf.probe.nblocks).filter fun b =>
    decide ((s.qss.refs.filter fun e => e.1 / 1024 == b && e.2.isSome).length = 1024)).length

/-- QSS (10 R237). -/
def qssRegs (s : State) : List (Nat × Nat) :=
  let x := s.qss
  let c := s.conf.qs
  let p := s.conf.probe
  let nw := nWin c p
  [(0x000, regWord [(0, 1, b2n x.running), (1, 1, b2n (c.present && c.en == 1 && decide (4 ≤ p.plan))),
     (2, 1, b2n (x.pend.isSome || s.commitWaits 0x17)),
     (3, 1, b2n x.cmd.isSome), (8, 8, s.refBlocks)]),
   (0x004, regWord [(0, 9, c.nSd), (9, 9, nSdEff c p), (18, 5, bqOf nw), (23, 6, lagRange p.slots), (29, 1, c.chainEn)]),
   (0x008, nw), (0x00C, c.window), (0x010, c.minq), (0x014, ofInt 32 c.ct), (0x018, ofInt 32 c.ce), (0x020, x.windows)] ++
  (List.range 128).map fun b => (0x100 + 4 * b, (s.qsWin b).word)

/-- LN_C in units of 2⁻²⁴ (11 R254), rounded to nearest (log 12). -/
def lncWord (l : Option Int) : Nat := ofInt 32 (roundDiv (l.getD 0) (2 ^ 24))

/-- DTS (11 R254). -/
def dtsRegs (s : State) : List (Nat × Nat) :=
  let x := s.dts
  let c := s.conf.dts
  [(0x000, regWord [(0, 1, b2n x.running), (1, 1, b2n x.lnc.isSome), (2, 1, b2n x.coilHeld), (3, 1, b2n x.dual),
     (4, 1, b2n (x.pend.isSome || s.commitWaits 0x18)), (5, 4, x.phi)]),
   (0x004, regWord [(0, 1, c.en), (1, 1, c.gain), (2, 5, c.nAvgLog2), (7, 2, c.coilRtd), (9, 1, c.dalphaSrc), (10, 1, c.deEn)]),
   (0x008, c.pDts), (0x00C, c.offset), (0x010, x.lastAvg % 2 ^ 32), (0x014, lncWord x.lnc),
   (0x018, regWord [(0, 16, ofInt 16 x.tref), (16, 16, ofInt 16 (x.dalphaEst.getD 0))]),
   (0x01C, regWord [(0, 16, x.bgAs), (16, 16, x.bgSt)]), (0x020, c.loopSpan)]

/-- ZON_LOAD in 10⁶ band-samples/s (12 R257, R270), rounded to nearest (log 12). -/
def State.zonLoad (s : State) : Nat :=
  let (a, b) := fOut s.conf.probe s.conf.dec
  if b = 0 then 0 else inUnits (zoneEntries s.conf.zones * a) (1000000 * b)

/-- Comparator of a zone band. -/
def State.comp (s : State) (z i : Nat) : ZComp := smGet {} s.zon.comps (4 * z + i)

/-- ZON (12 R270). -/
def zonRegs (s : State) : List (Nat × Nat) :=
  let x := s.zon
  let c := s.conf.zparams
  let last := match x.last with
    | some e => e.bytes
    | none => []
  [(0x000, flagWord [x.running, x.pend.isSome || [0x19, 0x1A, 0x1B].any s.commitWaits, decide (4096 ≤ x.queue.length)]),
   (0x004, regWord [(0, 10, c.ziMs), (16, 16, c.guard)]), (0x008, regWord [(0, 16, c.excl), (16, 14, c.trigoutW)]),
   (0x00C, regWord [(0, 16, nZi c.ziMs s.conf.probe s.conf.dec)]), (0x010, zoneEntries s.conf.zones), (0x014, s.zonLoad), (0x018, x.seq),
   (0x040, x.probeSel), (0x054, (List.range 4).foldl (fun n i => max n (s.comp x.probeSel i).nJudged) 0)] ++
  ((List.range 4).map fun i => (0x044 + 4 * i, (s.comp x.probeSel i).level)) ++ wordsOf 0x080 16 last ++
  (List.range 16).flatMap fun n => (List.range 5).map fun i =>
    (0x100 + 20 * n + 4 * i, ofInt 32 (nth (smGet [] s.conf.filters n) i 0))

/-- ZON_LIVE of a zone (12 R270). -/
def State.zoneLive (s : State) (z : Nat) : Nat :=
  let e := smGet {} s.conf.zones z
  regWord ((List.range 4).flatMap fun i =>
    let k := s.comp z i
    if e.en && (e.band i).en then [(8 * i, 2, k.st), (8 * i + 2, 4, k.count), (8 * i + 6, 1, b2n k.judged)] else [(8 * i, 2, 3)])

/-- ACQ_SRC of source n (13 R293). -/
def State.srcWord (s : State) (n : Nat) : Nat :=
  let c := s.conf.acq.src n
  let x := s.acq.src n
  let st := if c.en = 0 then 3 else if x.seg.isSome then 1 else if x.hold.isSome then 2 else 0
  let left := match x.hold with
    | none => 0
    | some (.events k) => k
    | some (.time ms t) => (t + ms * msTicks - s.tim.tick) / secTicks
  regWord [(0, 2, st), (2, 1, c.extend), (3, 2, c.holdMode), (16, 16, min left 65535)]

/-- ACQ (13 R293). -/
def acqRegs (s : State) : List (Nat × Nat) :=
  let a := s.acq
  let three (f : Source → Bool) : Nat := flagWord [f a.zone, f a.pad, f a.cmd]
  [(0x000, flagWord [a.running, a.storeFull, a.raw.st == 1 || a.raw.st == 2, a.raw.st == 3] + 16 * three (fun x => x.seg.isSome) +
     128 * three fun x => x.hold.isSome),
   (0x004, s.conf.acq.histGib), (0x008, a.depth)] ++ wide 0x00C a.oldestQ ++
  [(0x014, s.conf.acq.tof0), (0x018, pOut s.conf.probe s.conf.dec), (0x01C, a.dir.length),
   (0x020, (storeBytes s.conf - a.used) / 2 ^ 20), (0x024, a.nextId), (0x080, s.srcWord 0), (0x084, s.srcWord 1), (0x088, s.srcWord 2),
   (0x0A0, a.raw.st), (0x0A4, a.raw.frames.length)] ++ wide 0x0A8 ((a.raw.frames.head?.map Prod.fst).getD 0)

/-- MEM (14 R315). -/
def memRegs (s : State) : List (Nat × Nat) :=
  let m := s.mem.settle s.tim.tick
  let c := s.conf.dram
  [(0x000, regWord ([(0, 1, b2n m.ready), (1, 1, b2n m.inPanic), (2, 1, b2n (m.chans.any fun x => x.newBand.getD x.band == 2)), (3, 1, b2n m.spareOut)] ++
     (m.chans.mapIdx fun n x => (4 + n, 1, b2n x.selfRef)) ++ m.panic.mapIdx fun n x => (12 + n, 1, b2n x))),
   (0x004, c.srIdle), (0x008, regWord [(0, 7, c.panicThr), (8, 7, c.panicClr), (16, 10, c.memAge)])] ++
  (c.chmask.mapIdx fun i v => (0x010 + 4 * i, v % 2 ^ 24)) ++ (c.bkmask.mapIdx fun i v => (0x020 + 4 * i, v % 2 ^ 24)) ++
  (m.chans.mapIdx fun n x => (0x040 + 4 * n, regWord [(0, 2, x.band), (2, 1, b2n x.selfRef),
    (3, 4, x.banks.foldl (fun d b => max d b.debt) 0), (8, 7, x.queue.length)])) ++
  [(0x094, s.aos.dram.length)] ++ wide 0x0C0 m.err.addr ++
  [(0x0C8, regWord [(0, 3, m.err.ch), (3, 4, m.err.bank), (7, 3, m.err.req), (10, 1, b2n m.err.lasting), (11, 17, m.err.row)])]

/-- A rate in Mb/s, rounded to nearest (log 12). -/
def mbps (r : RateQ) : Nat := inUnits r.1 (1000000 * r.2)

/-- NET_STR of stream n (15 R340). -/
def strRegs (s : State) (n : Nat) : List (Nat × Nat) :=
  let x := s.stream n
  let c := s.strCfg n
  let un (p : Nat) : Nat := b2n (c.en == 1 && s.unresolved c p)
  [(0x100 + 16 * n, regWord [(0, 1, c.en), (1, 4, c.stype), (5, 1, c.home), (6, 1, b2n x.shed), (7, 1, un 0), (8, 1, un 1),
     (9, 1, b2n x.bufFull), (10, 1, b2n (c.en == 1 && s.suppressed n)), (11, 4, c.prio)]),
   (0x104 + 16 * n, mbps (s.conf.budget n)), (0x108 + 16 * n, x.frames)]

/-- NET (15 R340). -/
def netRegs (s : State) : List (Nat × Nat) :=
  let x := s.net
  let c := s.conf.net
  [(0x000, flagWord [x.running, x.portA.up, x.portB.up, x.bothDown, x.arpConflict, x.anyShed]),
   (0x004, regWord [(0, 2, c.modeA), (2, 2, c.modeB), (4, 1, c.path), (5, 1, c.vlanEn), (6, 12, c.vid), (18, 14, c.mtu)]),
   (0x008, c.ip), (0x00C, c.mask), (0x010, c.gw), (0x014, s.ownMac % 2 ^ 32), (0x018, s.ownMac / 2 ^ 32 % 2 ^ 16), (0x01C, c.mgmtUdp),
   (0x020, mbps (s.conf.portBudget 0)), (0x024, mbps (s.conf.portBudget 1)),
   (0x040, x.portA.tx), (0x044, x.portA.rx), (0x060, x.portB.tx), (0x064, x.portB.rx)] ++
  (List.range 16).flatMap fun n => strRegs s n

/-- TIM (16 R360). -/
def timRegs (s : State) : List (Nat × Nat) :=
  let t := s.tim
  let c := s.conf.time
  let now := tsLayout s.now
  [(0x000, regWord [(0, 3, t.st.code), (3, 1, b2n s.refExt), (4, 1, b2n t.ppsOk), (5, 1, b2n t.todOk), (6, 1, b2n t.secMismatch),
     (7, 4, (s.aos.tdcs.map fun n => 2 ^ n).sum)])] ++
  wide 0x004 now ++ [(0x00C, now / 2 ^ 64 % 2 ^ 32), (0x010, ofInt 32 t.map.rho), (0x014, ofInt 32 t.ppsErr),
   (0x018, regWord ([(0, 2, c.refSel), (2, 2, c.timeSrc), (4, 1, c.ppsPol), (5, 1, c.tdc3Sel)] ++
     c.presc.mapIdx fun n v => (6 + 2 * n, 2, v)))] ++
  (List.range 4).flatMap fun n =>
    let d := t.tdc n
    [(0x040 + 16 * n, regWord [(0, 28, d.c), (28, 1, b2n d.ovf), (29, 1, b2n d.valid)]),
     (0x044 + 16 * n, regWord [(0, 11, d.n), (16, 11, d.n1)]), (0x048 + 16 * n, regWord [(0, 11, d.n2), (16, 16, d.lsb)])]

/-- HK_PERIOD in force: that of the scan in progress (17 R364). -/
def State.hkPeriod (s : State) : Nat := if s.hka.scan = [] then s.conf.hk.period else s.hka.period

/-- HKA (17 R380). -/
def hkaRegs (s : State) : List (Nat × Nat) :=
  let a := s.hka
  [(0x000, regWord ([(0, 1, b2n a.running), (1, 1, b2n a.lenNew.isSome), (2, 1, b2n a.rdBad)] ++
     (List.range 4).map fun n => (3 + n, 1, b2n (a.rtd n).brk))),
   (0x004, s.conf.hk.mask), (0x008, a.maskEff), (0x00C, s.hkPeriod), (0x010, a.len), (0x014, (a.lenNew.map Prod.snd).getD 0),
   (0x018, a.wp), (0x01C, a.rd), (0x020, a.rwrap)] ++ wide 0x024 a.widx ++ [(0x030, a.scans)] ++
  ((List.range 32).map fun c => (0x040 + 4 * c, match smGet none a.last c with
    | some v => v % 4096 + 4096
    | none => 0)) ++
  (s.conf.hk.cmps.zipIdx.flatMap fun (c, n) =>
    let k := nth a.comps n {}
    [(0x100 + 8 * n, regWord [(0, 5, c.ch), (5, 1, c.en), (6, 4, c.persist), (10, 3, c.act), (13, 2, k.st), (15, 4, k.count), (20, 12, c.hyst)]),
     (0x104 + 8 * n, regWord [(0, 12, c.low), (16, 12, c.high)])]) ++
  (List.range 4).flatMap fun n =>
    let r := a.rtd n
    let c := nth s.conf.rtd n {}
    let coil : Bool := s.conf.dts.present && s.conf.dts.coilRtd == n
    [(0x300 + 16 * n, regWord [(0, 1, c.en), (1, 1, c.type), (2, 2, c.exc), (4, 1, b2n coil)]),
     (0x304 + 16 * n, regWord [(0, 16, ofInt 16 r.temp), (16, 3, r.cause)]), (0x308 + 16 * n, r.res), (0x30C + 16 * n, r.convs % 2 ^ 16)]

/-- SEC (18 R404). -/
def secRegs (s : State) : List (Nat × Nat) :=
  let x := s.sec
  [(0x000, regWord [(0, 2, s.fuses.lifecycle), (2, 1, b2n s.fuses.debugLock), (3, 6, s.fuses.keyBits), (9, 3, x.sess.length),
     (12, 1, b2n (x.sess.any fun y => y.isOpen && y.localSess)), (16, 8, x.kepoch), (24, 1, b2n x.rekeyPend)]),
   (0x004, regWord [(0, 8, flagWord (s.flash.creds.map Option.isSome)), (8, 8, flagWord x.locked)]),
   (0x008, s.fact.fwVersion), (0x00C, s.fact.fwSvn), (0x010, s.fuses.svnMin), (0x040, x.cmds)] ++
  x.sess.flatMap fun y =>
    [(0x080 + 8 * y.slot, regWord [(0, 2, if y.isOpen then 2 else 1), (2, 2, y.role), (4, 1, b2n y.localSess),
       (5, 1, b2n (y.transport == .spi)), (16, 16, y.sid)]),
     (0x084 + 8 * y.slot, regWord [(0, 16, y.credId), (16, 12, (s.tim.tick - y.lastCmd) / secTicks)])]

/-- STAGE code (19 R423). -/
def Stage.code : Stage → Nat
  | .none => 0
  | .erasing => 1
  | .opened => 2
  | .checked => 3

/-- The two words of a CFG_REJ register (19 R423). -/
def Rej.regs (r : Rej) (off : Nat) : List (Nat × Nat) :=
  [(off, regWord [(0, 4, r.step), (8, 8, r.inst), (16, 16, r.type)]), (off + 4, r.ofs % 2 ^ 32)]

/-- Amendments pending, all records (19 R423). -/
def State.pendingCount (s : State) : Nat :=
  b2n s.prb.pend.isSome + s.rxf.pend.length + b2n s.coh.winPend.isSome + b2n s.coh.phPend.isSome + s.dec.pend.length +
    b2n s.qss.pend.isSome + b2n s.dts.pend.isSome + b2n s.zon.pend.isSome + b2n s.hka.lenNew.isSome +
    (s.net.streams.map fun x => x.pend.length).sum + s.cas.commits.length + b2n s.cas.proposal.isSome

/-- CFG (19 R423). -/
def cfgRegs (s : State) : List (Nat × Nat) :=
  let c := s.cfg
  [(0x000, regWord [(0, 2, c.activeSlot), (2, 1, b2n (c.activeSlot == 2)), (3, 1, b2n c.trial), (4, 1, c.fwSlot), (5, 1, b2n c.fwGolden),
     (6, 1, b2n c.optBad), (7, 2, c.stage.code), (9, 2, c.stageTarget), (11, 1, b2n s.amended)]), (0x004, c.imgVersion)] ++
  wordsOf 0x008 8 c.imgHash ++ c.rejA.regs 0x028 ++ c.rejB.regs 0x030 ++ c.rejStage.regs 0x038 ++
  [(0x040, (c.staged.map Prod.snd).sum), (0x04C, s.pendingCount)]

/-- CAS_MEM (21 R477). -/
def Member.word (m : Member) : Nat :=
  regWord [(0, 1, b2n m.present), (1, 1, b2n m.joined), (2, 1, b2n m.excluded), (3, 2, m.pairRole), (5, 3, m.reason), (8, 8, m.hotPct),
    (16, 16, min m.terr 65535)]

/-- CAS (21 R477). -/
def casRegs (s : State) : List (Nat × Nat) :=
  let x := s.cas
  let c := s.conf.cascade
  let p := s.conf.pair
  [(0x000, regWord [(0, 2, c.role), (2, 4, c.rank), (6, 2, s.ringLanes), (8, 1, b2n x.master), (9, 1, b2n x.joined), (10, 1, b2n s.unsync),
     (11, 1, b2n x.excluded), (12, 2, x.pairRole), (14, 1, b2n (c.role == 3 && s.eligible)), (15, 1, b2n x.seeding),
     (16, 1, b2n x.partner), (17, 1, b2n x.soaking), (18, 1, b2n x.switchPending)]),
   (0x004, regWord [(0, 5, c.members), (5, 1, p.arbMode), (6, 1, p.preferred), (7, 1, p.takeback)]), (0x008, c.hopDly),
   (0x00C, p.soakS), (0x010, p.reseedS), (0x014, ofInt 32 x.terr), (0x018, x.refuse)] ++
  wordsOf 0x020 8 (if s.cfg.image.isSome then fingerprint s.conf else []) ++
  [(0x040, regWord [(0, 8, x.hot.length), (8, 8, s.procBlocks), (16, 7, s.hotPct), (23, 1, b2n x.strainRezero),
     (24, 1, b2n x.takebackReq), (25, 1, b2n x.releaseReq)])] ++ wide 0x044 x.switchIdx ++
  [(0x04C, if x.soaking then ceilDiv (x.soakEndTick - s.tim.tick) secTicks else 0)] ++
  x.members.mapIdx fun n m => (0x100 + 4 * n, m.word)

/-- The 64 bytes of a fault-log entry (22 R488). -/
def LogEntry.bytes (e : LogEntry) : List Byte :=
  let l := leBytes 4 e.seq ++ leBytes 2 e.code ++ leBytes 1 e.cls ++ leBytes 1 e.eflags ++ leBytes 12 (tsLayout e.ts) ++ leBytes 4 e.boot ++
    leBytes 2 e.unit ++ leBytes 2 e.rep ++ (e.data ++ zeros 32).take 32
  l ++ leBytes 4 (crc32 l)

/-- A targeted self-test runs (22 R484, R492). -/
def State.testing (s : State) : Bool :=
  s.bgw.sramTests != [] || s.mem.tests != [] || (s.til.tillers.any fun e => e.2.code == 2) ||
    (s.adc.lanes.any fun l => l.slices.any fun x => x.testing.isSome) || ((List.range 4).any fun n => (s.tim.tdc n).testing.isSome) ||
    (s.cas.rxDir.testing ++ s.cas.txDir.testing).any Option.isSome

/-- The entries in flash, the oldest first (22 R490): from the sector after the head on. -/
def Flash.logEntries (f : Flash) : List LogEntry := (f.ring.drop (f.head + 1) ++ f.ring.take (f.head + 1)).flatMap LogSector.entries

/-- BGW (22 R492). -/
def bgwRegs (s : State) : List (Nat × Nat) :=
  let b := s.bgw
  [(0x000, flagWord ((b.tasks.map Task.running) ++ [s.testing, s.aos.sramSpareOut, b.logWorn, decide (256 ≤ b.queue.length)])),
   (0x050, b.sramPasses), (0x054, b.dramPasses), (0x060, s.aos.sram.length), (0x064, b.gleans),
   (0x070, if s.aos.nextSeq = 0 then 0 else s.aos.nextSeq - 1),
   (0x074, (s.flash.logEntries.head?.map LogEntry.seq).getD 0), (0x078, b.logSel), (0x07C, b2n b.logSelValid),
   (0x0C0, s.flash.ring.foldl (fun m g => max m g.erases) 0)] ++ b.logWords.mapIdx fun i w => (0x080 + 4 * i, w.toNat)

/-! ### Regions (23 R493, R494; 09 R216) -/

/-- BANK_STATE (09 R216). -/
def State.bankState (s : State) (n : Nat) : Nat :=
  let x := s.dec
  let fading : Bool := match x.xf with
    | some f => f.started && (f.src == n || f.dst == n)
    | none => false
  if fading then 3 else if x.bankSet ∧ x.bank = n then 2 else if (s.conf.bank n).loaded then 1 else 0

/-- The word at an offset of the FIR banks region (09 R216). -/
def firWord (s : State) (off : Nat) : Nat :=
  let n := off / 0x400
  let o := off % 0x400
  let f := s.conf.bank n
  let h (j : Nat) : Nat := if j < s.conf.dec.taps then ofInt 16 (nth f.h j 0) else 0
  if 3 ≤ n then 0
  else if o = 0 then regWord [(0, 2, s.bankState n), (2, 1, b2n ((s.dec.swap.map SwapReq.bank) == some n))]
  else if o = 4 then f.gd
  else if o = 8 then (if f.loaded then crc32 (((List.range 128).map h).flatMap (leBytes 2)) else 0)
  else if o = 12 then nth s.dec.loads n 0
  else if 0x10 ≤ o ∧ o < 0x110 then
    let j := (o - 0x10) / 4
    h (2 * j) + 65536 * h (2 * j + 1)
  else 0

/-- The word at an offset of the HK buffer (23 R494). -/
def hkWordAt (s : State) (off : Nat) : Nat :=
  let j := off / 4
  let slot (i : Nat) : Nat := if i < s.hka.len then smGet 0 s.hka.buf i % 2 ^ 16 else 0
  slot (2 * j) + 65536 * slot (2 * j + 1)

/-- The words of the block whose window is n (23 R493). -/
def blockRegs (s : State) (n : Nat) : List (Nat × Nat) :=
  match n with
  | 0 => glbRegs s
  | 1 => pwrRegs s
  | 2 => prbRegs s
  | 3 => rxfRegs s
  | 4 => adcRegs s
  | 5 => tilRegs s
  | 6 => cohRegs s
  | 7 => decRegs s
  | 8 => qssRegs s
  | 9 => dtsRegs s
  | 10 => zonRegs s
  | 11 => acqRegs s
  | 12 => memRegs s
  | 13 => netRegs s
  | 14 => timRegs s
  | 15 => hkaRegs s
  | 16 => secRegs s
  | 17 => cfgRegs s
  | 18 => casRegs s
  | 19 => bgwRegs s
  | _ => []

end Sys2Proof.Machine
end

