-- ==== Sys2Proof/Machine/RegMap.lean ====
section
/-! DEFINITION. Access to the status map: READ and WRITE with read-clear fields, write-1-to-clear bits, latched groups and the words
that act when written (18 R400; 20 R437, R445; 22 R492; 23 R493 to R505). -/

namespace Sys2Proof.Machine

/-! ### INT_STATUS and INT_ENABLE (23 R499, R503) -/

/-- A pair of INT_STATUS and INT_ENABLE: the address of the status register (the enable register follows it), the number of its bits,
and the pair in the state. -/
structure IntReg where
  addr : Nat
  bits : Nat
  get : State → IntPair
  set : State → IntPair → State

/-- The pairs of the module. -/
def intRegs : List IntReg := [
  ⟨0x00100, 3, fun s => s.glb.int, fun s p => { s with glb := { s.glb with int := p } }⟩,
  ⟨0x01100, 7, fun s => s.pwr.int, fun s p => { s with pwr := { s.pwr with int := p } }⟩,
  ⟨0x02044, 7, fun s => s.prb.int, fun s p => { s with prb := { s.prb with int := p } }⟩,
  ⟨0x03080, 8, fun s => s.rxf.int, fun s p => { s with rxf := { s.rxf with int := p } }⟩,
  ⟨0x04200, 6, fun s => s.adc.int, fun s p => { s with adc := { s.adc with int := p } }⟩,
  ⟨0x05200, 6, fun s => s.til.int, fun s p => { s with til := { s.til with int := p } }⟩,
  ⟨0x06040, 4, fun s => s.coh.int, fun s p => { s with coh := { s.coh with int := p } }⟩,
  ⟨0x06140, 5, fun s => s.coh.phInt, fun s p => { s with coh := { s.coh with phInt := p } }⟩,
  ⟨0x07080, 6, fun s => s.dec.int, fun s p => { s with dec := { s.dec with int := p } }⟩,
  ⟨0x08300, 7, fun s => s.qss.int, fun s p => { s with qss := { s.qss with int := p } }⟩,
  ⟨0x09080, 6, fun s => s.dts.int, fun s p => { s with dts := { s.dts with int := p } }⟩,
  ⟨0x0A300, 6, fun s => s.zon.int, fun s p => { s with zon := { s.zon with int := p } }⟩,
  ⟨0x0B100, 7, fun s => s.acq.int, fun s p => { s with acq := { s.acq with int := p } }⟩,
  ⟨0x0C100, 7, fun s => s.mem.int, fun s p => { s with mem := { s.mem with int := p } }⟩,
  ⟨0x0D300, 6, fun s => s.net.int, fun s p => { s with net := { s.net with int := p } }⟩,
  ⟨0x0E100, 5, fun s => s.tim.int, fun s p => { s with tim := { s.tim with int := p } }⟩,
  ⟨0x0F400, 7, fun s => s.hka.int, fun s p => { s with hka := { s.hka with int := p } }⟩,
  ⟨0x10100, 7, fun s => s.sec.int, fun s p => { s with sec := { s.sec with int := p } }⟩,
  ⟨0x11100, 6, fun s => s.cfg.int, fun s p => { s with cfg := { s.cfg with int := p } }⟩,
  ⟨0x12200, 9, fun s => s.cas.int, fun s p => { s with cas := { s.cas with int := p } }⟩,
  ⟨0x13100, 6, fun s => s.bgw.int, fun s p => { s with bgw := { s.bgw with int := p } }⟩]

/-! ### Read-clear fields (23 R498) -/

/-- A read-clear field: its word, low bit and width, and the counter in the state. -/
structure RcField where
  addr : Nat
  lo : Nat
  width : Nat
  get : State → Nat
  set : State → Nat → State

/-- The single read-clear fields of the module. -/
def rcSingles : List RcField := [
  ⟨0x00044, 0, 16, fun s => s.glb.qsum, fun s v => { s with glb := { s.glb with qsum := v } }⟩,
  ⟨0x01030, 0, 16, fun s => s.pwr.warns, fun s v => { s with pwr := { s.pwr with warns := v } }⟩,
  ⟨0x01034, 0, 16, fun s => s.pwr.feedALosses, fun s v => { s with pwr := { s.pwr with feedALosses := v } }⟩,
  ⟨0x01034, 16, 16, fun s => s.pwr.feedBLosses, fun s v => { s with pwr := { s.pwr with feedBLosses := v } }⟩,
  ⟨0x0203C, 0, 16, fun s => s.prb.lmonMisses, fun s v => { s with prb := { s.prb with lmonMisses := v } }⟩,
  ⟨0x03008, 0, 16, fun s => s.rxf.switches, fun s v => { s with rxf := { s.rxf with switches := v } }⟩,
  ⟨0x03014, 0, 32, fun s => s.rxf.clips, fun s v => { s with rxf := { s.rxf with clips := v } }⟩,
  ⟨0x05024, 0, 32, fun s => s.til.tokenWaits, fun s v => { s with til := { s.til with tokenWaits := v } }⟩,
  ⟨0x05028, 0, 32, fun s => s.til.late, fun s v => { s with til := { s.til with late := v } }⟩,
  ⟨0x0502C, 0, 16, fun s => s.til.abandoned, fun s v => { s with til := { s.til with abandoned := v } }⟩,
  ⟨0x05030, 0, 32, fun s => s.til.wgaps, fun s v => { s with til := { s.til with wgaps := v } }⟩,
  ⟨0x05034, 0, 16, fun s => s.til.aborts, fun s v => { s with til := { s.til with aborts := v } }⟩,
  ⟨0x05038, 0, 16, fun s => s.til.transient, fun s v => { s with til := { s.til with transient := v } }⟩,
  ⟨0x06010, 0, 32, fun s => s.coh.cmpSat, fun s v => { s with coh := { s.coh with cmpSat := v } }⟩,
  ⟨0x06014, 0, 16, fun s => s.coh.refBuilds, fun s v => { s with coh := { s.coh with refBuilds := v } }⟩,
  ⟨0x06124, 0, 32, fun s => s.coh.faded, fun s v => { s with coh := { s.coh with faded := v } }⟩,
  ⟨0x06128, 0, 32, fun s => s.coh.fillHold, fun s v => { s with coh := { s.coh with fillHold := v } }⟩,
  ⟨0x0612C, 0, 32, fun s => s.coh.rawSat, fun s v => { s with coh := { s.coh with rawSat := v } }⟩,
  ⟨0x06130, 0, 16, fun s => s.coh.trainRestarts, fun s v => { s with coh := { s.coh with trainRestarts := v } }⟩,
  ⟨0x07030, 0, 16, fun s => s.dec.syncs, fun s v => { s with dec := { s.dec with syncs := v } }⟩,
  ⟨0x07034, 0, 16, fun s => s.dec.replaced, fun s v => { s with dec := { s.dec with replaced := v } }⟩,
  ⟨0x07038, 0, 16, fun s => s.dec.ignored, fun s v => { s with dec := { s.dec with ignored := v } }⟩,
  ⟨0x0703C, 0, 16, fun s => s.dec.restarts, fun s v => { s with dec := { s.dec with restarts := v } }⟩,
  ⟨0x07040, 0, 16, fun s => s.dec.swaps, fun s v => { s with dec := { s.dec with swaps := v } }⟩,
  ⟨0x07044, 0, 16, fun s => s.dec.superseded, fun s v => { s with dec := { s.dec with superseded := v } }⟩,
  ⟨0x07048, 0, 32, fun s => s.dec.outSat, fun s v => { s with dec := { s.dec with outSat := v } }⟩,
  ⟨0x08024, 0, 16, fun s => s.qss.discarded, fun s v => { s with qss := { s.qss with discarded := v } }⟩,
  ⟨0x08028, 0, 32, fun s => s.qss.chains, fun s v => { s with qss := { s.qss with chains := v } }⟩,
  ⟨0x0802C, 0, 32, fun s => s.qss.captures, fun s v => { s with qss := { s.qss with captures := v } }⟩,
  ⟨0x08030, 0, 32, fun s => s.qss.edge, fun s v => { s with qss := { s.qss with edge := v } }⟩,
  ⟨0x08034, 0, 32, fun s => s.qss.lowq, fun s v => { s with qss := { s.qss with lowq := v } }⟩,
  ⟨0x08038, 0, 16, fun s => s.qss.corrupt, fun s v => { s with qss := { s.qss with corrupt := v } }⟩,
  ⟨0x09030, 0, 32, fun s => s.dts.clips, fun s v => { s with dts := { s.dts with clips := v } }⟩,
  ⟨0x09034, 0, 16, fun s => s.dts.discarded, fun s v => { s with dts := { s.dts with discarded := v } }⟩,
  ⟨0x09038, 0, 16, fun s => s.dts.empty, fun s v => { s with dts := { s.dts with empty := v } }⟩,
  ⟨0x0903C, 0, 16, fun s => s.dts.fallback, fun s v => { s with dts := { s.dts with fallback := v } }⟩,
  ⟨0x09040, 0, 16, fun s => s.dts.corrupt, fun s v => { s with dts := { s.dts with corrupt := v } }⟩,
  ⟨0x0A01C, 0, 32, fun s => s.zon.leaves, fun s v => { s with zon := { s.zon with leaves := v } }⟩,
  ⟨0x0A020, 0, 32, fun s => s.zon.rearms, fun s v => { s with zon := { s.zon with rearms := v } }⟩,
  ⟨0x0A024, 0, 32, fun s => s.zon.evLost, fun s v => { s with zon := { s.zon with evLost := v } }⟩,
  ⟨0x0A028, 0, 32, fun s => s.zon.trigouts, fun s v => { s with zon := { s.zon with trigouts := v } }⟩,
  ⟨0x0A02C, 0, 16, fun s => s.zon.trigMerged, fun s v => { s with zon := { s.zon with trigMerged := v } }⟩,
  ⟨0x0A030, 0, 32, fun s => s.zon.unjudged, fun s v => { s with zon := { s.zon with unjudged := v } }⟩,
  ⟨0x0A034, 0, 16, fun s => s.zon.memErr, fun s v => { s with zon := { s.zon with memErr := v } }⟩,
  ⟨0x0B030, 0, 32, fun s => s.acq.triggers, fun s v => { s with acq := { s.acq with triggers := v } }⟩,
  ⟨0x0B034, 0, 32, fun s => s.acq.merged, fun s v => { s with acq := { s.acq with merged := v } }⟩,
  ⟨0x0B038, 0, 32, fun s => s.acq.heldoff, fun s v => { s with acq := { s.acq with heldoff := v } }⟩,
  ⟨0x0B03C, 0, 16, fun s => s.acq.recDropped, fun s v => { s with acq := { s.acq with recDropped := v } }⟩,
  ⟨0x0B040, 0, 16, fun s => s.acq.evicted, fun s v => { s with acq := { s.acq with evicted := v } }⟩,
  ⟨0x0B044, 0, 32, fun s => s.acq.gaps, fun s v => { s with acq := { s.acq with gaps := v } }⟩,
  ⟨0x0B048, 0, 32, fun s => s.acq.lostRows, fun s v => { s with acq := { s.acq with lostRows := v } }⟩,
  ⟨0x0B04C, 0, 32, fun s => s.acq.rawLost, fun s v => { s with acq := { s.acq with rawLost := v } }⟩,
  ⟨0x0C080, 0, 32, fun s => s.mem.ce, fun s v => { s with mem := { s.mem with ce := v } }⟩,
  ⟨0x0C084, 0, 32, fun s => s.mem.ue, fun s v => { s with mem := { s.mem with ue := v } }⟩,
  ⟨0x0C088, 0, 32, fun s => s.mem.refburst, fun s v => { s with mem := { s.mem with refburst := v } }⟩,
  ⟨0x0C08C, 0, 32, fun s => s.mem.postponed, fun s v => { s with mem := { s.mem with postponed := v } }⟩,
  ⟨0x0C090, 0, 32, fun s => s.mem.srEntries, fun s v => { s with mem := { s.mem with srEntries := v } }⟩,
  ⟨0x0C098, 0, 16, fun s => s.mem.transient, fun s v => { s with mem := { s.mem with transient := v } }⟩,
  ⟨0x0E080, 0, 16, fun s => s.tim.ppsRejects, fun s v => { s with tim := { s.tim with ppsRejects := v } }⟩,
  ⟨0x0E084, 0, 16, fun s => s.tim.todRejects, fun s v => { s with tim := { s.tim with todRejects := v } }⟩,
  ⟨0x0E088, 0, 16, fun s => s.tim.refSwitches, fun s v => { s with tim := { s.tim with refSwitches := v } }⟩,
  ⟨0x0F02C, 0, 32, fun s => s.hka.ovr, fun s v => { s with hka := { s.hka with ovr := v } }⟩,
  ⟨0x10044, 0, 16, fun s => s.sec.hsFail, fun s v => { s with sec := { s.sec with hsFail := v } }⟩,
  ⟨0x10048, 0, 32, fun s => s.sec.tagFail, fun s v => { s with sec := { s.sec with tagFail := v } }⟩,
  ⟨0x1004C, 0, 16, fun s => s.sec.stale, fun s v => { s with sec := { s.sec with stale := v } }⟩,
  ⟨0x10050, 0, 16, fun s => s.sec.dup, fun s v => { s with sec := { s.sec with dup := v } }⟩,
  ⟨0x10054, 0, 16, fun s => s.sec.lockouts, fun s v => { s with sec := { s.sec with lockouts := v } }⟩,
  ⟨0x10058, 0, 16, fun s => s.sec.busy, fun s v => { s with sec := { s.sec with busy := v } }⟩,
  ⟨0x11044, 0, 16, fun s => s.cfg.amends, fun s v => { s with cfg := { s.cfg with amends := v } }⟩,
  ⟨0x11048, 0, 16, fun s => s.cfg.refused, fun s v => { s with cfg := { s.cfg with refused := v } }⟩,
  ⟨0x11050, 0, 16, fun s => s.cfg.fallbacks, fun s v => { s with cfg := { s.cfg with fallbacks := v } }⟩,
  ⟨0x12060, 0, 16, fun s => s.cas.switches, fun s v => { s with cas := { s.cas with switches := v } }⟩,
  ⟨0x12064, 0, 16, fun s => s.cas.seeds, fun s v => { s with cas := { s.cas with seeds := v } }⟩,
  ⟨0x12068, 0, 16, fun s => s.cas.seedAborts, fun s v => { s with cas := { s.cas with seedAborts := v } }⟩,
  ⟨0x1206C, 0, 16, fun s => s.cas.losses, fun s v => { s with cas := { s.cas with losses := v } }⟩,
  ⟨0x12070, 0, 16, fun s => s.cas.slews, fun s v => { s with cas := { s.cas with slews := v } }⟩,
  ⟨0x12074, 0, 16, fun s => s.cas.refusals, fun s v => { s with cas := { s.cas with refusals := v } }⟩,
  ⟨0x12078, 0, 32, fun s => s.cas.crcErr, fun s v => { s with cas := { s.cas with crcErr := v } }⟩,
  ⟨0x13058, 0, 32, fun s => s.bgw.sramCe, fun s v => { s with bgw := { s.bgw with sramCe := v } }⟩,
  ⟨0x1305C, 0, 16, fun s => s.bgw.sramUe, fun s v => { s with bgw := { s.bgw with sramUe := v } }⟩,
  ⟨0x13068, 0, 16, fun s => s.bgw.testsTransient, fun s v => { s with bgw := { s.bgw with testsTransient := v } }⟩,
  ⟨0x1306C, 0, 16, fun s => s.bgw.testsLasting, fun s v => { s with bgw := { s.bgw with testsLasting := v } }⟩]

/-- The read-clear fields of converter lane n. -/
def laneRc (n : Nat) : List RcField := [
  ⟨0x04020 + 4 * n, 0, 16, fun s => (s.lane n).cals, fun s v => s.modLane n fun l => { l with cals := v }⟩,
  ⟨0x04030 + 4 * n, 0, 16, fun s => (s.lane n).rejects, fun s v => s.modLane n fun l => { l with rejects := v }⟩,
  ⟨0x04040 + 4 * n, 0, 16, fun s => (s.lane n).suspects, fun s v => s.modLane n fun l => { l with suspects := v }⟩]

/-- QHIGH of spikelet n. -/
def spkRc (n : Nat) : List RcField := [
  ⟨0x05040 + 4 * n, 8, 7, fun s => nth s.til.qhigh n 0, fun s v => { s with til := { s.til with qhigh := modAt s.til.qhigh n fun _ => v } }⟩]

/-- FIFO_HIGH and PANICS of real-time port p. -/
def memPortRc (p : Nat) : List RcField := [
  ⟨0x0C0A0 + 4 * p, 0, 7, fun s => nth s.mem.fillHigh p 0,
    fun s v => { s with mem := { s.mem with fillHigh := modAt s.mem.fillHigh p fun _ => v } }⟩,
  ⟨0x0C0A0 + 4 * p, 16, 16, fun s => nth s.mem.panics p 0,
    fun s v => { s with mem := { s.mem with panics := modAt s.mem.panics p fun _ => v } }⟩]

/-- The read-clear fields of port p. -/
def portRc (p : Nat) : List RcField := [
  ⟨0x0D048 + 0x20 * p, 0, 32, fun s => (s.net.port p).rxDropped, fun s v => s.modPort p fun x => { x with rxDropped := v }⟩,
  ⟨0x0D04C + 0x20 * p, 0, 32, fun s => (s.net.port p).fecCorr, fun s v => s.modPort p fun x => { x with fecCorr := v }⟩,
  ⟨0x0D050 + 0x20 * p, 0, 32, fun s => (s.net.port p).fecUncorr, fun s v => s.modPort p fun x => { x with fecUncorr := v }⟩,
  ⟨0x0D054 + 0x20 * p, 0, 16, fun s => (s.net.port p).linkDowns, fun s v => s.modPort p fun x => { x with linkDowns := v }⟩]

/-- DROPS of stream n. -/
def strRc (n : Nat) : List RcField := [
  ⟨0x0D10C + 16 * n, 0, 32, fun s => (s.stream n).drops, fun s v => s.modStream n fun x => { x with drops := v }⟩]

/-- CAL_BAD and COARSE_ONLY of TDC channel n. -/
def tdcRc (n : Nat) : List RcField := [
  ⟨0x0E04C + 16 * n, 0, 16, fun s => (s.tim.tdc n).calBad, fun s v => { s with tim := s.tim.setTdc n { s.tim.tdc n with calBad := v } }⟩,
  ⟨0x0E04C + 16 * n, 16, 16, fun s => (s.tim.tdc n).coarse, fun s v => { s with tim := s.tim.setTdc n { s.tim.tdc n with coarse := v } }⟩]

/-- BREAKS of RTD channel n. -/
def rtdRc (n : Nat) : List RcField := [
  ⟨0x0F30C + 16 * n, 16, 16, fun s => (s.hka.rtd n).breaks, fun s v => { s with hka := s.hka.setRtd n { s.hka.rtd n with breaks := v } }⟩]

/-- Task t of the background work. -/
def State.task (s : State) (t : Nat) : Task := nth s.bgw.tasks t {}

/-- LATE_t and MAXLATE_t. -/
def taskRc (t : Nat) : List RcField := [
  ⟨0x13010 + 8 * t, 0, 32, fun s => (s.task t).late, fun s v => s.modBgw fun b => { b with tasks := modAt b.tasks t fun x => { x with late := v } }⟩,
  ⟨0x13014 + 8 * t, 0, 32, fun s => (s.task t).maxLate,
    fun s v => s.modBgw fun b => { b with tasks := modAt b.tasks t fun x => { x with maxLate := v } }⟩]

/-- Every read-clear field of the module. -/
def rcFields : List RcField :=
  rcSingles ++ (List.range 4).flatMap laneRc ++ (List.range 24).flatMap spkRc ++ (List.range 3).flatMap memPortRc ++
    (List.range 2).flatMap portRc ++ (List.range 16).flatMap strRc ++ (List.range 4).flatMap tdcRc ++ (List.range 4).flatMap rtdRc ++
    (List.range 7).flatMap taskRc

/-- The read-clear fields of a word. -/
def rcAt (addr : Nat) : List RcField := rcFields.filter fun f => f.addr == addr

/-- The read-clear fields of the word at `addr` take the bits of `w`: 0, or what was counted in the cycle of the read (23 R498). -/
def rcStore (s : State) (addr w : Nat) : State :=
  (rcAt addr).foldl (fun s f => f.set s (w / 2 ^ f.lo % 2 ^ f.width)) s

/-! ### The map (23 R493, R494) -/

/-- The window or region of an address: its first address and its size in bytes; none where the map has none. -/
def regionOf (addr : Nat) : Option (Nat × Nat) :=
  if addr < 0x14000 then some (addr / 0x1000 * 0x1000, 0x1000)
  else [(0x100000, 0x20000), (0x180000, 0x4000), (0x200000, 0x1000), (0x300000, 0x20000)].find? fun r =>
    decide (r.1 ≤ addr ∧ addr < r.1 + r.2)

/-- The value of a defined word of a block; 0 elsewhere. -/
def regAt (l : List (Nat × Nat)) (off : Nat) : Nat := ((l.find? fun e => e.1 == off).map Prod.snd).getD 0

/-- The word of an INT_STATUS or INT_ENABLE register. -/
def intWord (s : State) (addr : Nat) : Nat :=
  match intRegs.find? fun r => r.addr == addr || r.addr + 4 == addr with
  | some r => if r.addr = addr then (r.get s).st.toNat else (r.get s).en.toNat
  | none => 0

/-- The word at an address as it stands, whatever a reader has latched. -/
def liveWord (s : State) (addr : Nat) : Nat :=
  if addr < 0x14000 then
    regAt (blockRegs s (addr / 0x1000)) (addr % 0x1000) + intWord s addr +
      ((rcAt addr).map fun f => f.get s % 2 ^ f.width * 2 ^ f.lo).sum
  else if addr < 0x180000 then wordAt (smGet {} s.conf.zones ((addr - 0x100000) / 32)).bytes (addr % 32)
  else if addr < 0x200000 then s.zoneLive ((addr - 0x180000) / 4)
  else if addr < 0x300000 then firWord s (addr - 0x200000)
  else hkWordAt s (addr - 0x300000)

/-! ### Latched groups (23 R500) -/

/-- The latched groups: the low word and the words its reading latches. -/
def latchGroups : List (Nat × List Nat) := [
  (0x00048, [0x0004C]), (0x01028, [0x0102C]), (0x02028, [0x0202C]), (0x0300C, [0x03010]), (0x05010, [0x05014]), (0x07014, [0x07018]),
  (0x0701C, [0x07020]), (0x07024, [0x07028]), (0x0B00C, [0x0B010]), (0x0B0A8, [0x0B0AC]), (0x0C0C0, [0x0C0C4, 0x0C0C8]),
  (0x0E004, [0x0E008, 0x0E00C]), (0x0F024, [0x0F028]), (0x12044, [0x12048])]

/-- The words that reading `addr` latches. -/
def latchedBy (addr : Nat) : List Nat := ((latchGroups.find? fun g => g.1 == addr).map Prod.snd).getD []

/-- `addr` reads as its reader has latched it. -/
def isLatched (addr : Nat) : Bool := latchGroups.any fun g => g.2.contains addr

/-- One word read by a reader with this latch set: its value and the latch set after it. -/
def readWord (s : State) (l : LatchSet) (addr : Nat) : Word × LatchSet :=
  if isLatched addr then (((l.find? fun e => e.1 == addr).map Prod.snd).getD 0, l)
  else
    let up := latchedBy addr
    (BitVec.ofNat 32 (liveWord s addr), (up.map fun a => (a, BitVec.ofNat 32 (liveWord s a))) ++ l.filter fun e => !up.contains e.1)

/-- Words read at one instant, in increasing address (23 R497, R500, R501). -/
def readWords (s : State) (l : LatchSet) : List Nat → List Word × LatchSet
  | [] => ([], l)
  | a :: as =>
    let (w, l) := readWord s l a
    let (ws, l) := readWords s l as
    (w :: ws, l)

/-! ### READ (18 R400; 23 R495, R497, R498) -/

/-- A READ or WRITE span lies inside one window or region (23 R495). -/
def spanOk (addr count : Nat) : Bool :=
  addr % 4 == 0 && count % 4 == 0 && decide (4 ≤ count ∧ count ≤ 1024) &&
    (match regionOf addr with
     | some (b, n) => decide (addr + count ≤ b + n)
     | none => false)

/-- The addresses of a span. -/
def spanAddrs (addr count : Nat) : List Nat := (List.range (count / 4)).map fun i => addr + 4 * i

/-- READ by a session: the words, the read-clear fields cleared (to `incs` in the word at `addr`), the groups latched. -/
def readCmd (s : State) (x : Session) (addr count incs : Nat) : State × Response :=
  if !spanOk addr count then (s, plain .invalid)
  else
    let as := spanAddrs addr count
    let (ws, l) := readWords s x.latches as
    let t := as.foldl (fun t a => rcStore t a (if a = addr then incs else 0)) s
    (t.modSession x.sid fun y => { y with latches := l }, withData .ok (ws.flatMap fun w => leBytes 4 w.toNat))

/-! ### WRITE (23 R496, R497, R499) -/

/-- The writable words beside INT_STATUS and INT_ENABLE: GLB_SCRATCH, GPIO_OUT, GLB_INT_MASK, PWR_CAUSE, PWR_BLKRST, PWR_PADFUSE,
PROBE_SEL, HKA_STATUS (RD_BAD), HK_RD and LOG_SEL. -/
def writableWords : List Nat :=
  [0x00050, 0x00064, 0x00114, 0x01004, 0x01040, 0x01044, 0x0A040, 0x0F000, 0x0F01C, 0x13078]

/-- The word holds a RW, W1C or WO field. -/
def writable (addr : Nat) : Bool :=
  writableWords.contains addr || intRegs.any fun r => r.addr == addr || r.addr + 4 == addr

/-- A write to INT_STATUS or INT_ENABLE, in a cycle in which hardware sets the bits `hw` (23 R499); reserved bits are ignored. -/
def intWrite (s : State) (addr : Nat) (v hw : Word) : State :=
  match intRegs.find? fun r => r.addr == addr || r.addr + 4 == addr with
  | none => s
  | some r =>
    let m : Word := BitVec.ofNat 32 (2 ^ r.bits - 1)
    if r.addr = addr then r.set s ((r.get s).w1c v (hw &&& m)) else r.set s { r.get s with en := v &&& m }

/-- LOG_SEL written (22 R492): the entry shown. -/
def logSelect (s : State) (v : Nat) : State :=
  let e := s.flash.logEntries.find? fun e => e.seq == v
  let e := match e with
    | some e => some e
    | none => s.logFind v
  let b : List Byte := match e with
    | some e => e.bytes
    | none => zeros 64
  s.modBgw fun x => { x with
    logSel := v, logSelValid := e.isSome, logWords := (List.range 16).map fun i => BitVec.ofNat 32 (wordAt b (4 * i)) }

/-- PWR_CAUSE written: the bits written 1 are cleared. -/
def clearCause (p : Pwr) (v : Nat) : Pwr := { p with
  causeVao := p.causeVao && !bit v 0, causeMain := p.causeMain && !bit v 1, causeVrst := p.causeVrst && !bit v 2
  causeRst := p.causeRst && !bit v 3, causeActivate := p.causeActivate && !bit v 4, causeWake := p.causeWake && !bit v 5 }

/-- One word written, with the status bits hardware sets in that cycle. -/
def writeWord (s : State) (x : Session) (addr : Nat) (w hw : Word) : State :=
  let v := w.toNat
  match addr with
  | 0x00050 => { s with glb := { s.glb with scratch := w } }
  | 0x00064 => { s with glb := { s.glb with gpioOut := BitVec.ofNat 8 v } }
  | 0x00114 => { s with glb := { s.glb with intMask := BitVec.ofNat 20 v } }
  | 0x01004 => s.modPwr fun p => clearCause p v
  | 0x01040 => (blkrstWrite s (v % 16)).1
  | 0x01044 => (padfuseWrite s x v).1
  | 0x0A040 => { s with zon := { s.zon with probeSel := v % 4096 } }
  | 0x0F000 => { s with hka := { s.hka with rdBad := s.hka.rdBad && !bit v 2 } }
  | 0x0F01C => hkWriteRd s (v % 65536)
  | 0x13078 => logSelect s v
  | _ => intWrite s addr w hw

/-- What refuses one word of a WRITE: PWR_BLKRST with BUSY, PWR_PADFUSE with DENIED (20 R437, R445). -/
def writeRefused (s : State) (x : Session) (addr : Nat) (w : Word) : Option Result :=
  let r := match addr with
    | 0x01040 => (blkrstWrite s (w.toNat % 16)).2.result
    | 0x01044 => (padfuseWrite s x w.toNat).2.result
    | _ => .ok
  if r = .ok then none else some r

/-- WRITE by a session: all its words take effect, or none. -/
def writeCmd (s : State) (x : Session) (addr : Nat) (data : List Word) (hw : Word) : State × Response :=
  let as := spanAddrs addr (4 * data.length)
  if !spanOk addr (4 * data.length) ∨ !as.all writable then (s, plain .invalid)
  else
    let l := as.zip data
    match l.findSome? fun e => writeRefused s x e.1 e.2 with
    | some r => (s, plain r)
    | none => (l.foldl (fun s e => writeWord s x e.1 e.2 hw) s, plain .ok)

/-! ### Meanings -/

/-- READ, role MONITOR (18 R400). -/
def execRead (h : Hdr) (addr count : Nat) (s : State) : Host.Outcome State Fault Refusal :=
  s.done (s.command1 h 0x0001 0 fun s x => readCmd s x addr count 0)

/-- WRITE, role OPERATOR (18 R400; 23 R496). -/
def execWrite (h : Hdr) (addr : Nat) (data : List Word) (s : State) : Host.Outcome State Fault Refusal :=
  s.done (s.command1 h 0x0002 1 fun s x => writeCmd s x addr data 0)

/-- RC_FIELD_READ: a READ of one word in whose cycle hardware counts `incs` (23 R498). -/
def execRcFieldRead (h : Hdr) (addr : Nat) (incs : Word) (s : State) : Host.Outcome State Fault Refusal :=
  s.done (s.command1 h 0x0001 0 fun s x => readCmd s x addr 4 incs.toNat)

/-- LATCHED_GROUP_READ: a READ of a whole group from its low word on (23 R500). -/
def execLatchedGroupRead (h : Hdr) (addr : Nat) (s : State) : Host.Outcome State Fault Refusal :=
  s.done (s.command1 h 0x0001 0 fun s x => readCmd s x addr (4 + 4 * (latchedBy addr).length) 0)

/-- W1C_WRITE: a WRITE of one word in whose cycle hardware sets the status bits `hwSet` (23 R499). -/
def execW1cWrite (h : Hdr) (addr : Nat) (val hwSet : Word) (s : State) : Host.Outcome State Fault Refusal :=
  s.done (s.command1 h 0x0002 1 fun s x => writeCmd s x addr [val] hwSet)

/-- INT_ENABLE_WRITE: a WRITE of an INT_ENABLE register or GLB_INT_MASK (23 R499). -/
def execIntEnableWrite (h : Hdr) (addr : Nat) (val : Word) (s : State) : Host.Outcome State Fault Refusal :=
  s.done (s.command1 h 0x0002 1 fun s x => writeCmd s x addr [val] 0)

/-- HK_RD_WRITE: a WRITE of HK_RD (17 R367). -/
def execHkRdWrite (h : Hdr) (val : Word) (s : State) : Host.Outcome State Fault Refusal :=
  s.done (s.command1 h 0x0002 1 fun s x => writeCmd s x 0x0F01C [val] 0)

/-- LOG_SEL_WRITE: a WRITE of LOG_SEL (22 R492). -/
def execLogSelWrite (h : Hdr) (val : Word) (s : State) : Host.Outcome State Fault Refusal :=
  s.done (s.command1 h 0x0002 1 fun s x => writeCmd s x 0x13078 [val] 0)

/-- GPIO_OUT_WRITE: a WRITE of GPIO_OUT (23 R505). -/
def execGpioOutWrite (h : Hdr) (val : Word) (s : State) : Host.Outcome State Fault Refusal :=
  s.done (s.command1 h 0x0002 1 fun s x => writeCmd s x 0x00064 [val] 0)

end Sys2Proof.Machine
end

