-- ==== Sys2Proof/Machine/Commands.lean ====
section
/-! DEFINITION. Commands of a session that act on the data path, the telemetry snapshot and the GPIOs (08 R179; 09 R202; 10 R229;
15 R326, R334; 19 R410; 22 R478; 23 R497 to R505). -/

namespace Sys2Proof.Machine

/-! ### RETRAIN (08 R179; 18 R400) -/

/-- RETRAIN of all blocks or the listed ones at the first trace-period boundary at least 2 ms away; the answer is the expected end.
Outside acquisition the next start trains every block in any case (log 13). -/
def retrainCmd (s : State) (blocks : List Nat) : State × Response :=
  if blocks.any fun b => decide (s.conf.probe.nblocks ≤ b) then (s, plain .invalid)
  else if s.acquiring then
    let t := s.tim.tick + 2 * msTicks
    let ends := s.trainEndOf (s.boundaryIdxFrom t) (s.boundaryFrom t) 0
    (s.askRestart (if blocks = [] then none else some blocks) false t, withData .deferred (leBytes 4 ends))
  else (s, withData .deferred (leBytes 4 s.conf.phase.ntrain))

/-! ### TELEMETRY (15 R326, R334; 22 R478; 23 R498, R501) -/

/-- The latch set of a TELEMETRY stream (23 R500). -/
def Net.latchSet (x : Net) (n : Nat) : LatchSet := ((x.latches.find? fun e => e.1 == n).map Prod.snd).getD []

/-- The latch set of a TELEMETRY stream replaced. -/
def Net.setLatch (x : Net) (n : Nat) (l : LatchSet) : Net := { x with latches := (n, l) :: x.latches.filter fun e => e.1 != n }

/-- The value a snapshot reports for an address: as sampled, or, at an address where nothing is mapped, one that is not stated
(log 6). -/
def snapValue (s : State) (sampled : List (Nat × Word)) (i addr : Nat) : Nat :=
  if addr % 4 = 0 ∧ (regionOf addr).isSome then (((sampled.find? fun e => e.1 == addr).map Prod.snd).getD 0).toNat
  else Config.freeNat (s.free + i) % 2 ^ 32

/-- An address put into a list in increasing order. -/
def insertAddr (a : Nat) : List Nat → List Nat
  | [] => [a]
  | b :: l => if a ≤ b then a :: b :: l else b :: insertAddr a l

/-- The report of a stream: every address of TLIST sampled in increasing address at this instant, read-clear fields kept; the pairs
stand in the order of TLIST. A report longer than one frame is split as a byte string (log 12). -/
def snapshot (s : State) (n : Nat) : State :=
  let s := unitBoundary s n
  let c := s.strCfg n
  if !s.net.running || (s.stream n).ending || c.en != 1 || c.stype != 6 then s
  else
    let addrs := c.tlist.foldr insertAddr []
    let (ws, l) := readWords s (s.net.latchSet n) addrs
    let sampled := addrs.zip ws
    let bytes := c.tlist.zipIdx.flatMap fun (e : Nat × Nat) => leBytes 4 e.1 ++ leBytes 4 (snapValue s sampled e.2 e.1)
    let u := (s.stream n).nextUnit
    let s := { s with net := s.net.setLatch n l, free := s.free + c.tlist.length }
    formBytes (s.modStream n fun x => { x with nextUnit := u + 1 }) n 6 { newest := none, begins := s.tim.tick, unit := u, ts := s.now, qword := 0, bytes := bytes }

/-- TELEMETRY, task 6, in acquisition: the snapshots of every TELEMETRY stream. -/
def telemetryRun (s : State) : State :=
  if !s.acquiring || !s.coreRuns then s
  else (List.range 16).foldl snapshot (endTask (startTask s 6 s.bgw.acqFrom secTicks) 6)

/-! ### GPIO (19 R410; 23 R505) -/

/-- The level at the input of GPIO n changes. -/
def gpioChange (s : State) (n : Nat) (level : Bool) : State :=
  if 8 ≤ n then s
  else
    let changed := s.pads.gpioIn.getLsbD n != level
    let bit : BitVec 8 := 1#8 <<< n
    let s := { s with pads := { s.pads with
      gpioIn := if level then s.pads.gpioIn ||| bit else s.pads.gpioIn &&& ~~~bit } }
    if changed && s.tim.counting && s.pwr.configured && nth s.conf.gpio n 0 == 1 then
      { s with glb := { s.glb with int := s.glb.int.raise 2 } }
    else s

/-- A GPIO of function 3 drives PPS_OUT. -/
def State.hasPpsOut (s : State) : Bool := s.pwr.configured && s.conf.gpio.contains 3

/-- PPS_OUT goes high at a whole TAI second of the time map. -/
def ppsPulse (s : State) : State :=
  if s.tim.counting && s.hasPpsOut then { s with pads := { s.pads with ppsOut := true } } else s

/-- PPS_OUT goes low 100 µs later. -/
def ppsPulseEnd (s : State) : State := { s with pads := { s.pads with ppsOut := false } }

/-! ### Meanings -/

/-- RETRAIN, role OPERATOR (18 R400). -/
def execRetrain (h : Hdr) (blocks : List Nat) (s : State) : Host.Outcome State Fault Refusal :=
  s.done (s.command1 h 0x0016 1 fun s _ => retrainCmd s blocks)

/-- QS_REF, role OPERATOR (18 R400). -/
def execQsRef (h : Hdr) (mode : Nat) (blocks : List Nat) (s : State) : Host.Outcome State Fault Refusal :=
  s.done (s.command1 h 0x0017 1 fun s _ => qsRefCmd s mode blocks)

/-- BANK_SWAP, role OPERATOR (18 R400). -/
def execBankSwap (h : Hdr) (target nx : Nat) (s : State) : Host.Outcome State Fault Refusal :=
  s.done (s.command1 h 0x0018 1 fun s _ => bankSwapCmd s target nx)

/-- TELEMETRY (22 R478). -/
def execTelemetry (s : State) : Host.Outcome State Fault Refusal := s.done (telemetryRun s)

/-- GPIO_EDGE (23 R505). -/
def execGpioEdge (n : Nat) (level : Bool) (s : State) : Host.Outcome State Fault Refusal := s.done (gpioChange s n level)

/-- GPIO_PPS_PULSE (19 R410). -/
def execGpioPpsPulse (s : State) : Host.Outcome State Fault Refusal := s.done (ppsPulse s)

/-- GPIO_PPS_PULSE_END (19 R410). -/
def execGpioPpsPulseEnd (s : State) : Host.Outcome State Fault Refusal := s.done (ppsPulseEnd s)

end Sys2Proof.Machine
end

