-- ==== Sys2Proof/Machine/Dispatch.lean ====
section
/-! DEFINITION. Which meaning each command has: one arm per row of spec/opcode_table.json. -/

namespace Sys2Proof.Machine

def exec (i : Instr) (s : State) : Host.Outcome State Fault Refusal :=
  match i with
  -- status map, session commands READ and WRITE (R400, R494 to R500)
  | .read h addr count => Sys2Proof.Machine.execRead h addr count s
  | .write h addr data => Sys2Proof.Machine.execWrite h addr data s
  | .rcFieldRead h addr incs => Sys2Proof.Machine.execRcFieldRead h addr incs s
  | .latchedGroupRead h addr => Sys2Proof.Machine.execLatchedGroupRead h addr s
  | .w1cWrite h addr val hwSet => Sys2Proof.Machine.execW1cWrite h addr val hwSet s
  | .intEnableWrite h addr val => Sys2Proof.Machine.execIntEnableWrite h addr val s
  | .hkRdWrite h val => Sys2Proof.Machine.execHkRdWrite h val s
  | .logSelWrite h val => Sys2Proof.Machine.execLogSelWrite h val s
  | .gpioOutWrite h val => Sys2Proof.Machine.execGpioOutWrite h val s
  | .pwrPadfuseWrite h val => Sys2Proof.Machine.execPwrPadfuseWrite h val s
  | .blkrstReceiver h => Sys2Proof.Machine.execBlkrstReceiver h s
  | .blkrstTiller h => Sys2Proof.Machine.execBlkrstTiller h s
  | .blkrstZone h => Sys2Proof.Machine.execBlkrstZone h s
  | .blkrstHousekeeping h => Sys2Proof.Machine.execBlkrstHousekeeping h s
  | .blkrstDone failedTillers => Sys2Proof.Machine.execBlkrstDone failedTillers s
  -- session commands (R400)
  | .amend h type inst more group body => Sys2Proof.Machine.execAmend h type inst more group body s
  | .amendStatus h reqId => Sys2Proof.Machine.execAmendStatus h reqId s
  | .acqStart h => Sys2Proof.Machine.execAcqStart h s
  | .acqStop h => Sys2Proof.Machine.execAcqStop h s
  | .sleep h => Sys2Proof.Machine.execSleep h s
  | .standby h wakeS => Sys2Proof.Machine.execStandby h wakeS s
  | .standbyEntry => Sys2Proof.Machine.execStandbyEntry s
  | .laserArm h => Sys2Proof.Machine.execLaserArm h s
  | .sync h => Sys2Proof.Machine.execSync h s
  | .retrain h blocks => Sys2Proof.Machine.execRetrain h blocks s
  | .qsRef h mode blocks => Sys2Proof.Machine.execQsRef h mode blocks s
  | .bankSwap h target nx => Sys2Proof.Machine.execBankSwap h target nx s
  | .record h instant range => Sys2Proof.Machine.execRecord h instant range s
  | .recList h first max => Sys2Proof.Machine.execRecList h first max s
  | .recLock h recId => Sys2Proof.Machine.execRecLock h recId s
  | .recUnlock h recId => Sys2Proof.Machine.execRecUnlock h recId s
  | .recDelete h recId => Sys2Proof.Machine.execRecDelete h recId s
  | .recSend h stream recId => Sys2Proof.Machine.execRecSend h stream recId s
  | .rawArm h mode source tick f preF => Sys2Proof.Machine.execRawArm h mode source tick f preF s
  | .rawRelease h => Sys2Proof.Machine.execRawRelease h s
  | .timeSet h time => Sys2Proof.Machine.execTimeSet h time s
  | .stageBegin h target force length hash => Sys2Proof.Machine.execStageBegin h target force length hash s
  | .stageEraseDone => Sys2Proof.Machine.execStageEraseDone s
  | .stageWrite h ofs data => Sys2Proof.Machine.execStageWrite h ofs data s
  | .stageCheck h => Sys2Proof.Machine.execStageCheck h s
  | .activate h mode => Sys2Proof.Machine.execActivate h mode s
  | .attest h nonce => Sys2Proof.Machine.execAttest h nonce s
  | .certRead h ofs count => Sys2Proof.Machine.execCertRead h ofs count s
  | .streamKey h stream epoch => Sys2Proof.Machine.execStreamKey h stream epoch s
  | .streamRekey h => Sys2Proof.Machine.execStreamRekey h s
  | .credSalt h slot => Sys2Proof.Machine.execCredSalt h slot s
  | .credSet h slot credId role iter kc => Sys2Proof.Machine.execCredSet h slot credId role iter kc s
  | .credClear h slot => Sys2Proof.Machine.execCredClear h slot s
  | .keyFuse h slot hash => Sys2Proof.Machine.execKeyFuse h slot hash s
  | .keyRevoke h slot signer pub sig => Sys2Proof.Machine.execKeyRevoke h slot signer pub sig s
  | .lifecycle h target confirm => Sys2Proof.Machine.execLifecycle h target confirm s
  | .lifecycleFuseWrite => Sys2Proof.Machine.execLifecycleFuseWrite s
  | .mgmtRestart h => Sys2Proof.Machine.execMgmtRestart h s
  | .mgmtResume => Sys2Proof.Machine.execMgmtResume s
  | .pairSwitch h action force => Sys2Proof.Machine.execPairSwitch h action force s
  | .close h => Sys2Proof.Machine.execClose h s
  -- handshake and sessions (R391 to R399)
  | .hello via credId nh => Sys2Proof.Machine.execHello via credId nh s
  | .proof via sid hp => Sys2Proof.Machine.execProof via sid hp s
  | .mgmtTagFail via => Sys2Proof.Machine.execMgmtTagFail via s
  | .spiResponseFetch => Sys2Proof.Machine.execSpiResponseFetch s
  | .proofTimeout sid => Sys2Proof.Machine.execProofTimeout sid s
  | .credentialLockEnd slot => Sys2Proof.Machine.execCredentialLockEnd slot s
  | .sessionTimeout sid => Sys2Proof.Machine.execSessionTimeout sid s
  -- power, reset and start-up (R425 to R447)
  | .mainPowerOn => Sys2Proof.Machine.execMainPowerOn s
  | .vaoMonitorAssert => Sys2Proof.Machine.execVaoMonitorAssert s
  | .vaoMonitorRelease => Sys2Proof.Machine.execVaoMonitorRelease s
  | .vrstAssert busMv aMv bMv => Sys2Proof.Machine.execVrstAssert busMv aMv bMv s
  | .vrstRelease => Sys2Proof.Machine.execVrstRelease s
  | .feedLost feed mv => Sys2Proof.Machine.execFeedLost feed mv s
  | .feedRestored feed => Sys2Proof.Machine.execFeedRestored feed s
  | .vwarnAssert mv => Sys2Proof.Machine.execVwarnAssert mv s
  | .vwarnRelease => Sys2Proof.Machine.execVwarnRelease s
  | .rstNLow => Sys2Proof.Machine.execRstNLow s
  | .rstNRelease => Sys2Proof.Machine.execRstNRelease s
  | .wakeInEdge rising timerToo => Sys2Proof.Machine.execWakeInEdge rising timerToo s
  | .wakeTimerExpiry pinToo => Sys2Proof.Machine.execWakeTimerExpiry pinToo s
  | .railsGood => Sys2Proof.Machine.execRailsGood s
  | .systemPllLock elapsedMs => Sys2Proof.Machine.execSystemPllLock elapsedMs s
  | .mgmtCoreStart aosBad => Sys2Proof.Machine.execMgmtCoreStart aosBad s
  | .imageValidated => Sys2Proof.Machine.execImageValidated s
  | .dramCheckDone badChannels rowsPassing => Sys2Proof.Machine.execDramCheckDone badChannels rowsPassing s
  | .startupStep6Done failedTillers => Sys2Proof.Machine.execStartupStep6Done failedTillers s
  -- laser chain and launch schedule (R39 to R61)
  | .ilkNLow => Sys2Proof.Machine.execIlkNLow s
  | .ilkQualified => Sys2Proof.Machine.execIlkQualified s
  | .ldAmpDelayEnd => Sys2Proof.Machine.execLdAmpDelayEnd s
  | .ampSettleEnd => Sys2Proof.Machine.execAmpSettleEnd s
  | .floorSegmentEnd dark => Sys2Proof.Machine.execFloorSegmentEnd dark s
  | .initialCalDone meas => Sys2Proof.Machine.execInitialCalDone meas s
  | .launchPosition raman => Sys2Proof.Machine.execLaunchPosition raman s
  | .tracePeriodBoundary => Sys2Proof.Machine.execTracePeriodBoundary s
  | .shadowTablesReady => Sys2Proof.Machine.execShadowTablesReady s
  | .launchMonEdge m => Sys2Proof.Machine.execLaunchMonEdge m s
  | .lmonWindowEnd => Sys2Proof.Machine.execLmonWindowEnd s
  -- receiver and converters (R71 to R101)
  | .rangeFrameEnd peak clips => Sys2Proof.Machine.execRangeFrameEnd peak clips s
  | .rangeSwitch => Sys2Proof.Machine.execRangeSwitch s
  | .loPowerUpdate => Sys2Proof.Machine.execLoPowerUpdate s
  | .rotationBoundary => Sys2Proof.Machine.execRotationBoundary s
  | .calCommit lane m => Sys2Proof.Machine.execCalCommit lane m s
  | .sliceSelfTestDone lane slice devs => Sys2Proof.Machine.execSliceSelfTestDone lane slice devs s
  | .monitorWindowEnd stats => Sys2Proof.Machine.execMonitorWindowEnd stats s
  -- tillers (R113 to R121)
  | .tillerTake tiller => Sys2Proof.Machine.execTillerTake tiller s
  | .sheafCommit tiller inp => Sys2Proof.Machine.execSheafCommit tiller inp s
  | .sheafAbort tiller cause => Sys2Proof.Machine.execSheafAbort tiller cause s
  | .sheafOverrun tiller => Sys2Proof.Machine.execSheafOverrun tiller s
  | .tillerKatDone tiller pass => Sys2Proof.Machine.execTillerKatDone tiller pass s
  | .winnowRelease block => Sys2Proof.Machine.execWinnowRelease block s
  | .releaseDeadline block => Sys2Proof.Machine.execReleaseDeadline block s
  | .sheafAbandon r block => Sys2Proof.Machine.execSheafAbandon r block s
  -- decimation, Raman, zones, records (R193 to R289)
  | .syncPadEdge => Sys2Proof.Machine.execSyncPadEdge s
  | .dtsAverageEnd corrupt => Sys2Proof.Machine.execDtsAverageEnd corrupt s
  | .dtsPartnerTimeout => Sys2Proof.Machine.execDtsPartnerTimeout s
  | .zoneIntervalDecision errZones => Sys2Proof.Machine.execZoneIntervalDecision errZones s
  | .trigOutPulseEnd => Sys2Proof.Machine.execTrigOutPulseEnd s
  | .trigInEdge m => Sys2Proof.Machine.execTrigInEdge m s
  | .recordRowCopy src lost dramErr => Sys2Proof.Machine.execRecordRowCopy src lost dramErr s
  | .holdOffEnd src => Sys2Proof.Machine.execHoldOffEnd src s
  | .rawFrameWrite frame lost => Sys2Proof.Machine.execRawFrameWrite frame lost s
  -- DRAM controller (R302 to R312)
  | .dramRequest req ecc fill => Sys2Proof.Machine.execDramRequest req ecc fill s
  | .requestPromotion ch idx => Sys2Proof.Machine.execRequestPromotion ch idx s
  | .refreshDue ch bank => Sys2Proof.Machine.execRefreshDue ch bank s
  | .mr4Read ch band => Sys2Proof.Machine.execMr4Read ch band s
  | .selfRefreshEntry ch => Sys2Proof.Machine.execSelfRefreshEntry ch s
  | .selfRefreshExit ch => Sys2Proof.Machine.execSelfRefreshExit ch s
  | .rowTestDone ch bank row lasting badCols => Sys2Proof.Machine.execRowTestDone ch bank row lasting badCols s
  -- time base and TDC (R342 to R356)
  | .refQualified => Sys2Proof.Machine.execRefQualified s
  | .refDisqualified => Sys2Proof.Machine.execRefDisqualified s
  | .ppsEdge m => Sys2Proof.Machine.execPpsEdge m s
  | .ppsLost => Sys2Proof.Machine.execPpsLost s
  | .todSentence bytes msAfterEdge => Sys2Proof.Machine.execTodSentence bytes msAfterEdge s
  | .rateSegmentStart => Sys2Proof.Machine.execRateSegmentStart s
  | .todTxSend => Sys2Proof.Machine.execTodTxSend s
  | .tdc3Edge m => Sys2Proof.Machine.execTdc3Edge m s
  | .tdcCalDone ch n1 n2 => Sys2Proof.Machine.execTdcCalDone ch n1 n2 s
  | .tdcSelfTestDone ch devLsb => Sys2Proof.Machine.execTdcSelfTestDone ch devLsb s
  -- housekeeping (R363 to R377)
  | .hkScanStart => Sys2Proof.Machine.execHkScanStart s
  | .hkConversion input => Sys2Proof.Machine.execHkConversion input s
  | .rtdConversionEnd ch microvolts nanoamps => Sys2Proof.Machine.execRtdConversionEnd ch microvolts nanoamps s
  | .rtdBreak ch => Sys2Proof.Machine.execRtdBreak ch s
  -- ports and streams (R317 to R338)
  | .linkUp port => Sys2Proof.Machine.execLinkUp port s
  | .linkDown port => Sys2Proof.Machine.execLinkDown port s
  | .arpFrame port rx isReply senderIp senderMac targetIp => Sys2Proof.Machine.execArpFrame port rx isReply senderIp senderMac targetIp s
  | .arpRequestTimer port stream => Sys2Proof.Machine.execArpRequestTimer port stream s
  | .icmpEcho port rx srcMac srcIp dstIp payload => Sys2Proof.Machine.execIcmpEcho port rx srcMac srcIp dstIp payload s
  | .rxFrameDiscard port rx => Sys2Proof.Machine.execRxFrameDiscard port rx s
  | .dasUnitForm stream => Sys2Proof.Machine.execDasUnitForm stream s
  | .rowUnitForm stream => Sys2Proof.Machine.execRowUnitForm stream s
  | .eventFrameForm stream => Sys2Proof.Machine.execEventFrameForm stream s
  | .hkBatchForm stream => Sys2Proof.Machine.execHkBatchForm stream s
  | .telemetry => Sys2Proof.Machine.execTelemetry s
  | .heartbeatFrame stream => Sys2Proof.Machine.execHeartbeatFrame stream s
  | .frameTransmit port => Sys2Proof.Machine.execFrameTransmit port s
  -- FAULT_N, survey, GPIO (R443 to R447, R410, R505)
  | .faultPulseEnd => Sys2Proof.Machine.execFaultPulseEnd s
  | .surveyAcqEnd => Sys2Proof.Machine.execSurveyAcqEnd s
  | .surveyDrainEnd => Sys2Proof.Machine.execSurveyDrainEnd s
  | .gpioEdge n level => Sys2Proof.Machine.execGpioEdge n level s
  | .gpioPpsPulse => Sys2Proof.Machine.execGpioPpsPulse s
  | .gpioPpsPulseEnd => Sys2Proof.Machine.execGpioPpsPulseEnd s
  -- Dzirak ring and pair (R449 to R474)
  | .dzirakLinkUp lanes => Sys2Proof.Machine.execDzirakLinkUp lanes s
  | .laneCrcExcess dir lane crcErrors => Sys2Proof.Machine.execLaneCrcExcess dir lane crcErrors s
  | .laneBistDone dir lane pass => Sys2Proof.Machine.execLaneBistDone dir lane pass s
  | .heartbeat rh body => Sys2Proof.Machine.execHeartbeat rh body s
  | .heartbeatSend => Sys2Proof.Machine.execHeartbeatSend s
  | .memberLost rank => Sys2Proof.Machine.execMemberLost rank s
  | .joinReq rh body => Sys2Proof.Machine.execJoinReq rh body s
  | .joinAck rh => Sys2Proof.Machine.execJoinAck rh s
  | .joinRefuse rh reason => Sys2Proof.Machine.execJoinRefuse rh reason s
  | .joinRetry => Sys2Proof.Machine.execJoinRetry s
  | .timeSend => Sys2Proof.Machine.execTimeSend s
  | .time rh markTick masterTime delayPs => Sys2Proof.Machine.execTime rh markTick masterTime delayPs s
  | .slew rh target ec => Sys2Proof.Machine.execSlew rh target ec s
  | .slewTimeout rank => Sys2Proof.Machine.execSlewTimeout rank s
  | .state rh body => Sys2Proof.Machine.execState rh body s
  | .syncIdx rh ns => Sys2Proof.Machine.execSyncIdx rh ns s
  | .amendProp rh type inst body => Sys2Proof.Machine.execAmendProp rh type inst body s
  | .amendVote rh result => Sys2Proof.Machine.execAmendVote rh result s
  | .amendVoteTimeout => Sys2Proof.Machine.execAmendVoteTimeout s
  | .amendCommit rh period => Sys2Proof.Machine.execAmendCommit rh period s
  | .seedBegin rh => Sys2Proof.Machine.execSeedBegin rh s
  | .seedChunkReady block => Sys2Proof.Machine.execSeedChunkReady block s
  | .seedChunk rh block data => Sys2Proof.Machine.execSeedChunk rh block data s
  | .seedCommit rh block => Sys2Proof.Machine.execSeedCommit rh block s
  | .seedEnd rh => Sys2Proof.Machine.execSeedEnd rh s
  | .reseedTimer => Sys2Proof.Machine.execReseedTimer s
  | .release rh lastIdx => Sys2Proof.Machine.execRelease rh lastIdx s
  | .takeReq rh => Sys2Proof.Machine.execTakeReq rh s
  | .dtsTrace rh avg lnR => Sys2Proof.Machine.execDtsTrace rh avg lnR s
  | .arbGrantChange low => Sys2Proof.Machine.execArbGrantChange low s
  | .arbHbLost => Sys2Proof.Machine.execArbHbLost s
  | .soakEnd => Sys2Proof.Machine.execSoakEnd s
  -- background work (R478 to R490)
  | .sramScrub bank row word err => Sys2Proof.Machine.execSramScrub bank row word err s
  | .dramScrub ecc => Sys2Proof.Machine.execDramScrub ecc s
  | .tiaTrim step => Sys2Proof.Machine.execTiaTrim step s
  | .tdcCheck pass => Sys2Proof.Machine.execTdcCheck pass s
  | .sramRowTestDone bank row lasting => Sys2Proof.Machine.execSramRowTestDone bank row lasting s
  | .flash => Sys2Proof.Machine.execFlash s
  | .floorMeasurementStart => Sys2Proof.Machine.execFloorMeasurementStart s
  | .syncEdgeInstant rh instant => Sys2Proof.Machine.execSyncEdgeInstant rh instant s

end Sys2Proof.Machine
end

