-- ==== Sys2Proof/Machine/Idle.lean ====
section
/-! DEFINITION. What the module does while no command waits: time passes (01 R17), and records whose segments have ended are complete
(13 R278). -/

namespace Sys2Proof.Machine

/-- The timing-clock cycle in progress ends: the tick index stands at the next multiple of 16, while the main rails are on and the
system PLL is locked (01 R17), and a segment that ended in an earlier cycle is complete (13 R278); otherwise nothing changes (log 1). -/
def idle (s : State) : Host.Outcome State Fault Refusal :=
  .next (if s.tim.counting then
    closeSegments { s with tim := { s.tim with tick := afterCycle s.tim.tick % 2 ^ 64 } } (afterCycle s.tim.tick) else s)

end Sys2Proof.Machine
end

