-- ==== Sys2Proof/Safety.lean ====
section
/-! DEFINITION. The terms in which statements about the module are made: an accepted host command and its response, the state of the
laser chain and of the fuses that every command must respect, and the canonical form of the DRAM contents. -/

namespace Sys2Proof.Machine

/-! ### Host commands -/

/-- The command with header `h` runs in session `x`: the session is open, its datagram reaches the session engine, the management core
answers, SEQ is new to the replay window (18 R397), and neither the role nor the lifecycle state forbids the command (18 R400). -/
structure Ready (s : State) (h : Hdr) (code role : Nat) (x : Session) : Prop where
  session : s.session h.sid = some x
  link : (s.arrives h.via).isSome = true
  answers : s.answers = true
  fresh : x.replay h.seq = .run
  role : role ≤ x.role
  life : s.fuses.lifecycle ≠ 3 ∨ scrappedAllows code = true

/-- The session once it has accepted SEQ (18 R397). -/
def Session.entered (x : Session) (s : State) (h : Hdr) : Session :=
  ({ x.from h.via with lastCmd := s.tim.tick } : Session).accept h.seq s.tim.tick

/-- The state in which an accepted command takes its effect: the datagram is counted, the session has accepted SEQ, its responses go where
the datagram came from, and the command is counted. -/
def State.entered (s : State) (h : Hdr) : State :=
  let a := (s.arrives h.via).getD s
  let a := a.modSession h.sid fun y => { y.from h.via with lastCmd := a.tim.tick }
  let a := a.modSession h.sid fun y => y.accept h.seq a.tim.tick
  { a with sec := { a.sec with cmds := wrapAdd 32 a.sec.cmds 1 } }

/-- What waits to be sent on a transport (18 R391). -/
def State.outbox (s : State) : Transport → List MgmtSend
  | .spi => s.sec.spiTx
  | .udpA => s.net.portA.msgs.filterMap fun m => match m with | .mgmt x => some x | _ => none
  | .udpB => s.net.portB.msgs.filterMap fun m => match m with | .mgmt x => some x | _ => none

/-- The response `r` to the command with header `h` of session `x` waits to be sent where the command came from (18 R391, R396). -/
def State.Answered (t : State) (h : Hdr) (x : Session) (r : Response) : Prop :=
  ({ transport := h.via.tr, dst := h.via.src, msg := .response x.sid h.seq x.kM2h r } : MgmtSend) ∈ t.outbox h.via.tr

/-- A port apart from what a received datagram and its response change. -/
def Port.core (x : Port) : Port := { x with rx := 0, fecCorr := 0, fecUncorr := 0, msgs := [] }

/-- The state apart from the queue of commands and what every answered host command changes: the sessions and the responses that wait, the
counters of commands and received datagrams, and GLB_INT_STATUS. -/
def State.core (s : State) : State := { s with
  pending := []
  sec := { s.sec with sess := [], spiTx := [], cmds := 0 }
  net := { s.net with portA := s.net.portA.core, portB := s.net.portB.core }
  glb := { s.glb with int := { s.glb.int with st := 0 } } }

/-- The state with this GLB_INT_STATUS, whose FAULT and MODE bits any event can set (23 R505). -/
def State.withStatus (s : State) (w : Word) : State := { s with glb := { s.glb with int := { s.glb.int with st := w } } }

/-- Command `c` completes in `s` and leaves exactly `t`, the queue as in `s`; only the bits FAULT and MODE of GLB_INT_STATUS, which any
command can raise (23 R505), are left open here. -/
def Leaves (c : Instr) (s t : State) : Prop :=
  ∃ w : Word, exec c s = .next { t.withStatus w with pending := s.pending } ∧ ∀ b : Nat, 2 ≤ b → w.getLsbD b = t.glb.int.st.getLsbD b

/-- The host command `c` with header `h` completes in session `x` with response `r`, and leaves the core of `u`. -/
def Answers (c : Instr) (s : State) (h : Hdr) (x : Session) (r : Response) (u : State) : Prop :=
  ∃ t : State, exec c s = .next t ∧ t.core = u.core ∧ t.Answered h x r

/-! ### DRAM contents (14 R295) -/

/-- The DRAM contents in canonical form: byte addresses strictly rising, no byte listed that reads 0 anyway (log 10, log 11). -/
def Memory.wf (m : SMap Byte) : Bool := smWf (0 : Byte) m

/-! ### The laser chain and the fuses (02 R51 to R55; 18 R382, R386, R388; 20 R437) -/

/-- What the laser-chain and fuse rules speak of. -/
structure Guard where
  ldEn : Bool
  ampEn : Bool
  gate : Bool
  gateDts : Bool
  ilkOk : Bool
  arm : Arm
  laser : LaserRec
  fuses : Fuses
  phase : Phase
  lifePend : Option Nat
  data : SMap Byte

/-- That part of the state. -/
def State.guard (s : State) : Guard :=
  ⟨s.pads.ldEn, s.pads.ampEn, s.pads.gate, s.pads.gateDts, s.prb.ilkOk, s.prb.arm, s.conf.laser, s.fuses, s.pwr.phase, s.sec.lifePend,
   s.mem.data⟩

/-- The laser-chain record permits emission, and the module is not scrapped. -/
def Guard.emits (g : Guard) : Prop := g.laser.emit = 1 ∧ g.fuses.lifecycle ≠ 3

/-- The laser chain is where its arming sequence has brought it (02 R51 to R55), and a pending lifecycle transition runs forward
(18 R382). -/
structure Guard.Ok (g : Guard) : Prop where
  /-- The chain is armed, or being armed, only in acquisition and until its end. -/
  idle : g.phase ≠ .acquisition → g.phase ≠ .stopping → g.arm = .off
  /-- LD_EN is high only with the interlock qualified, emission permitted and step 1 of the arming done. -/
  ld : g.ldEn = true → g.ilkOk = true ∧ g.emits ∧ (g.arm = .ampDelay ∨ g.arm = .settle ∨ g.arm = .waitLaunch ∨ g.arm = .armed)
  /-- AMP_EN is high only with LD_EN high and step 2 done. -/
  amp : g.ampEn = true → g.ldEn = true ∧ (g.arm = .settle ∨ g.arm = .waitLaunch ∨ g.arm = .armed)
  /-- GATE and GATE_DTS pulse only with AMP_EN high and the chain armed. -/
  gate : g.gate = true ∨ g.gateDts = true → g.ampEn = true ∧ g.arm = .armed
  /-- From step 1 on the interlock is qualified and LD_EN is high. -/
  lit : g.emits → (g.arm = .ampDelay ∨ g.arm = .settle ∨ g.arm = .waitLaunch ∨ g.arm = .armed) → g.ilkOk = true ∧ g.ldEn = true
  /-- From step 2 on AMP_EN is high. -/
  bright : g.emits → (g.arm = .settle ∨ g.arm = .waitLaunch ∨ g.arm = .armed) → g.ampEn = true
  /-- The sequence goes past step 3 only where emission is permitted. -/
  live : g.arm = .waitLaunch ∨ g.arm = .armed → g.emits
  /-- A pending lifecycle transition names a later state. -/
  life : ∀ l, g.lifePend = some l → g.fuses.lifecycle < l ∧ l ≤ 3
  /-- The lifecycle state is one of the four. -/
  bound : g.fuses.lifecycle ≤ 3
  /-- The DRAM contents are in canonical form. -/
  canon : Memory.wf g.data = true

/-- The state meets the laser-chain and lifecycle rules. -/
def State.safe (s : State) : Prop := s.guard.Ok

/-- No fuse of `f` is lost or rewritten in `g`: a key slot and a GPIO code once fused, a revocation, the debug lock; the lifecycle state
and SVN_MIN only rise (18 R382, R386, R388; 20 R437). -/
structure FusesKept (f g : Fuses) : Prop where
  keys : ∀ (i : Nat) (h : List Byte), f.keys[i]? = some (some h) → g.keys[i]? = some (some h)
  revoked : ∀ i : Nat, f.revoked[i]? = some true → g.revoked[i]? = some true
  pads : ∀ i c : Nat, f.pads[i]? = some (some c) → g.pads[i]? = some (some c)
  lifecycle : f.lifecycle ≤ g.lifecycle
  debugLock : f.debugLock = true → g.debugLock = true
  svnMin : f.svnMin ≤ g.svnMin
  order : g.order = f.order

end Sys2Proof.Machine
end

