-- ==== Sys2Proof/Certificates/Slice0/Obligations.lean ====
section
/-! DEFINITION. The statements for the provers: what each command does, what no command changes, and what every step keeps. -/

open Sys2Proof Sys2Proof.Machine

/-! ### Steps -/

/-- A step takes the command at the front of the queue and runs it on the state with the queue's rest (log 1). -/
def Obligations.StepRunsFrontCommand : Prop :=
  ∀ (c : Instr) (s : State) (rest : List Instr), step { s with pending := c :: rest } = exec c { s with pending := rest }

/-- With no command waiting a step is the rest of one timing-clock cycle of 16 ticks while the tick counter runs (01 R17; the model's
choice, log 1). -/
def Obligations.IdleStepCountsTicks : Prop :=
  ∀ s : State, s.pending = [] →
    let next := 16 * (s.tim.tick / 16) + 16
    let t : State := { s with tim := { s.tim with tick := next % 2 ^ 64 } }
    (s.tim.counting = true → step s = .next (closeSegments t next) ∧
      ((∀ n, (s.acq.src n).seg = none) → step s = .next t)) ∧
    (s.tim.counting = false → step s = .next s)

/-- The effect of a command is on everything but the queue. -/
def Obligations.ExecKeepsQueue : Prop :=
  ∀ (c : Instr) (s t : State), exec c s = .next t → t.pending = s.pending

/-- Every command answers a next state in every state; a DRAM request whose address does not exist faults (14 R295, R296). -/
def Obligations.OnlyMissingAddressStops : Prop :=
  ∀ (c : Instr) (s : State), (∃ t, exec c s = .next t) ∨
    ∃ req ecc fill, c = .dramRequest req ecc fill ∧ (if s.fuses.order = 0 then 28 else 14) * 2 ^ 30 ≤ req.addr ∧
      exec c s = .fault .noSuchAddress

/-- GLB_INT_STATUS takes note of FAULT_N held and of a change of MODE (23 R505). -/
def Obligations.GlbRecordsFaultAndMode : Prop :=
  ∀ (c : Instr) (s t : State), exec c s = .next t → t.tim.counting = true →
    (s.faultHeld = false → t.faultHeld = true → t.glb.int.st.getLsbD 0 = true) ∧
    (t.mode ≠ s.mode → t.glb.int.st.getLsbD 1 = true)

/-! ### The rules every step keeps -/

/-- The state after reset meets the rules that every step keeps, with the laser chain dark and no command waiting. -/
def Obligations.ResetMeetsRules : Prop :=
  State.reset.safe ∧ State.reset.pads.ldEn = false ∧ State.reset.pads.ampEn = false ∧ State.reset.pads.gate = false ∧
    State.reset.pads.gateDts = false ∧ State.reset.pending = []

/-- Every step keeps the rules of the laser chain and the lifecycle and the canonical form of the DRAM contents (02 R51 to R55;
18 R382). -/
def Obligations.RulesKeptByEveryStep : Prop :=
  ∀ s t : State, s.safe → step s = .next t → t.safe

/-- One-time fuses: what is fused stays fused through every step (18 R381, R382, R386, R388; 20 R437). -/
def Obligations.FusesOnlyAdvance : Prop :=
  ∀ s t : State, s.safe → step s = .next t → FusesKept s.fuses t.fuses

/-- LD_EN and AMP_EN are high only under the conditions of 02 R51. -/
def Obligations.LaserNeedsInterlockAndImage : Prop :=
  ∀ s t : State, s.safe → step s = .next t → t.pads.ldEn = true ∨ t.pads.ampEn = true →
    t.prb.ilkOk = true ∧ t.conf.laser.emit = 1 ∧ t.fuses.lifecycle ≠ 3 ∧ t.prb.arm ≠ .off ∧ t.prb.arm ≠ .waitIlk ∧
      (t.pwr.phase = .acquisition ∨ t.pwr.phase = .stopping)

/-! ### The status map -/

/-- READ and its two forms (23 R495, R497, R498, R500). -/
def Obligations.ReadCommands : Prop :=
  ∀ (s : State) (h : Hdr) (x : Session), Ready s h 0x0001 0 x →
    (∀ addr count : Nat, spanOk addr count = false → Answers (.read h addr count) s h x (plain .invalid) s) ∧
    (∀ addr count : Nat, spanOk addr count = true →
      Answers (.read h addr count) s h x
        (withData .ok ((readWords (s.entered h) x.latches (spanAddrs addr count)).1.flatMap fun w => leBytes 4 w.toNat))
        ((spanAddrs addr count).foldl (fun t a => rcStore t a 0) (s.entered h))) ∧
    (∀ (addr : Nat) (incs : Word), spanOk addr 4 = false → Answers (.rcFieldRead h addr incs) s h x (plain .invalid) s) ∧
    (∀ (addr : Nat) (incs : Word), spanOk addr 4 = true →
      Answers (.rcFieldRead h addr incs) s h x
        (withData .ok ((readWords (s.entered h) x.latches [addr]).1.flatMap fun w => leBytes 4 w.toNat))
        (rcStore (s.entered h) addr incs.toNat)) ∧
    (∀ (addr : Nat) (incs : Word) (f : RcField), f ∈ rcSingles → f.addr = addr →
      ∃ t, exec (.rcFieldRead h addr incs) s = .next t ∧ f.get t = incs.toNat / 2 ^ f.lo % 2 ^ f.width) ∧
    (∀ (low : Nat) (up : List Nat), (low, up) ∈ latchGroups →
      Answers (.latchedGroupRead h low) s h x
        (withData .ok ((low :: up).flatMap fun a => leBytes 4 (BitVec.ofNat 32 (liveWord (s.entered h) a)).toNat))
        (s.entered h) ∧
      ∃ t y, exec (.latchedGroupRead h low) s = .next t ∧ t.session h.sid = some y ∧
        ∀ a ∈ up, (a, BitVec.ofNat 32 (liveWord (s.entered h) a)) ∈ y.latches) ∧
    (∀ addr : Nat, latchedBy addr = [] → spanOk addr 4 = false → Answers (.latchedGroupRead h addr) s h x (plain .invalid) s) ∧
    (∀ addr : Nat, latchedBy addr = [] → spanOk addr 4 = true →
      Answers (.latchedGroupRead h addr) s h x
        (withData .ok ((readWords (s.entered h) x.latches [addr]).1.flatMap fun w => leBytes 4 w.toNat))
        (rcStore (s.entered h) addr 0))

/-- WRITE (23 R495 to R497). -/
def Obligations.WriteCommand : Prop :=
  ∀ (s : State) (h : Hdr) (x : Session) (addr : Nat) (data : List Word), Ready s h 0x0002 1 x →
    let as := spanAddrs addr (4 * data.length)
    let e := s.entered h
    let y := x.entered s h
    (spanOk addr (4 * data.length) = false ∨ (as.all writable) = false → Answers (.write h addr data) s h x (plain .invalid) s) ∧
    (spanOk addr (4 * data.length) = true → as.all writable = true →
      (∀ r, ((as.zip data).findSome? fun p => writeRefused e y p.1 p.2) = some r → Answers (.write h addr data) s h x (plain r) s) ∧
      (((as.zip data).findSome? fun p => writeRefused e y p.1 p.2) = none →
        Answers (.write h addr data) s h x (plain .ok) ((as.zip data).foldl (fun t p => writeWord t y p.1 p.2 0) e)))

/-- W1C_WRITE and INT_ENABLE_WRITE (23 R499), and the writes of HK_RD, LOG_SEL and GPIO_OUT (17 R367; 22 R492; 23 R505). -/
def Obligations.StatusAndSelectorWrites : Prop :=
  (∀ (s : State) (h : Hdr) (x : Session) (val hw : Word), Ready s h 0x0002 1 x →
    let e := s.entered h
    let y := x.entered s h
    (∀ r ∈ intRegs, Answers (.w1cWrite h r.addr val hw) s h x (plain .ok)
      (r.set e { r.get e with st := ((r.get e).st &&& ~~~val) ||| (hw &&& BitVec.ofNat 32 (2 ^ r.bits - 1)) })) ∧
    (∀ r ∈ intRegs, Answers (.intEnableWrite h (r.addr + 4) val) s h x (plain .ok)
      (r.set e { r.get e with en := val &&& BitVec.ofNat 32 (2 ^ r.bits - 1) })) ∧
    Answers (.intEnableWrite h 0x00114 val) s h x (plain .ok) { s with glb := { s.glb with intMask := BitVec.ofNat 20 val.toNat } } ∧
    (∀ addr : Nat, spanOk addr 4 = false ∨ writable addr = false →
      Answers (.w1cWrite h addr val hw) s h x (plain .invalid) s ∧ Answers (.intEnableWrite h addr val) s h x (plain .invalid) s) ∧
    (∀ addr : Nat, spanOk addr 4 = true → writable addr = true → ∀ r, writeRefused e y addr val = some r →
      Answers (.w1cWrite h addr val hw) s h x (plain r) s ∧ Answers (.intEnableWrite h addr val) s h x (plain r) s) ∧
    (∀ addr : Nat, spanOk addr 4 = true → writable addr = true → writeRefused e y addr val = none →
      Answers (.w1cWrite h addr val hw) s h x (plain .ok) (writeWord e y addr val hw) ∧
      Answers (.intEnableWrite h addr val) s h x (plain .ok) (writeWord e y addr val 0))) ∧
  (∀ (s : State) (h : Hdr) (x : Session) (val : Word), Ready s h 0x0002 1 x →
    (let v := val.toNat % 65536
     let wrap := if v < s.hka.rd then s.hka.len else s.hka.rwrap
     (v = s.hka.wp → Answers (.hkRdWrite h val) s h x (plain .ok)
       { s with hka := { s.hka with rd := v, unread := 0, rwrap := wrap } }) ∧
     (v ≠ s.hka.wp → ∀ n, ((s.hka.reader.slots s.hka.len).findIdx? fun i => i == v) = some n →
       Answers (.hkRdWrite h val) s h x (plain .ok) { s with hka := { s.hka with rd := v, unread := s.hka.unread - n, rwrap := wrap } }) ∧
     (v ≠ s.hka.wp → v ∉ s.hka.reader.slots s.hka.len →
       Answers (.hkRdWrite h val) s h x (plain .ok) { s with hka := { s.hka with rdBad := true } })) ∧
    (∀ e : LogEntry, (s.flash.logEntries ++ s.logAll).find? (fun e => e.seq == val.toNat) = some e →
      Answers (.logSelWrite h val) s h x (plain .ok) { s with bgw := { s.bgw with
        logSel := val.toNat, logSelValid := true, logWords := (List.range 16).map fun i => BitVec.ofNat 32 (wordAt e.bytes (4 * i)) } }) ∧
    ((∀ e ∈ s.flash.logEntries ++ s.logAll, e.seq ≠ val.toNat) →
      Answers (.logSelWrite h val) s h x (plain .ok) { s with bgw := { s.bgw with
        logSel := val.toNat, logSelValid := false, logWords := List.replicate 16 0 } }) ∧
    Answers (.gpioOutWrite h val) s h x (plain .ok) { s with glb := { s.glb with gpioOut := BitVec.ofNat 8 val.toNat } })

/-! ### Supplies, resets and wake -/

/-- The feed monitors and VWARN (20 R425), and wake from standby (20 R431, R447). -/
def Obligations.SuppliesAndWake : Prop :=
  (
  ∀ (s : State) (mv : Nat),
    (s.pwr.feedAOk = true → Leaves (.feedLost 0 mv) s
      ((({ s with pwr := { s.pwr with feedAOk := false, feedALosses := satAdd 16 s.pwr.feedALosses 1, int := s.pwr.int.raise 2 } } :
        State).pulse).logAny 0x0102 2 0 (leBytes 2 mv))) ∧
    (s.pwr.feedBOk = true → Leaves (.feedLost 1 mv) s
      ((({ s with pwr := { s.pwr with feedBOk := false, feedBLosses := satAdd 16 s.pwr.feedBLosses 1, int := s.pwr.int.raise 2 } } :
        State).pulse).logAny 0x0102 2 1 (leBytes 2 mv))) ∧
    (s.pwr.feedAOk = false → Leaves (.feedLost 0 mv) s s) ∧ (s.pwr.feedBOk = false → Leaves (.feedLost 1 mv) s s) ∧
    (∀ f, 2 ≤ f → Leaves (.feedLost f mv) s s ∧ Leaves (.feedRestored f) s s) ∧
    (s.pwr.feedAOk = false → Leaves (.feedRestored 0) s
      { s with pwr := { s.pwr with feedAOk := true, int := s.pwr.int.raiseIf s.pwr.configured 3 } }) ∧
    (s.pwr.feedBOk = false → Leaves (.feedRestored 1) s
      { s with pwr := { s.pwr with feedBOk := true, int := s.pwr.int.raiseIf s.pwr.configured 3 } }) ∧
    (s.pwr.feedAOk = true → Leaves (.feedRestored 0) s s) ∧ (s.pwr.feedBOk = true → Leaves (.feedRestored 1) s s) ∧
    (s.pwr.vwarnMon = false → Leaves (.vwarnAssert mv) s
      (({ s with pwr := { s.pwr with vwarnMon := true, warn := true, warns := satAdd 16 s.pwr.warns 1, int := s.pwr.int.raise 0 } } :
        State).logAny 0x0103 0 0 (leBytes 2 mv))) ∧
    (s.pwr.vwarnMon = true → Leaves (.vwarnAssert mv) s s) ∧
    (s.pwr.vwarnMon = true → Leaves .vwarnRelease s
      (let t := if s.pwr.warn then s.holdFlags else s
       { t with pwr := { t.pwr with vwarnMon := false, warn := false, int := t.pwr.int.raiseIf t.pwr.configured 1 } })) ∧
    (s.pwr.vwarnMon = false → Leaves .vwarnRelease s s)) ∧
  (
  ∀ (s : State) (both : Bool),
    let pin := bit s.cfg.wakePolicy 1
    let timer := bit s.cfg.wakePolicy 0 && s.pwr.wakeTimer.isSome
    let started (b : BitVec 3) : State := { s with pwr := { s.pwr with
      phase := .rails, wakeKept := false, wakeCause := b, causeWake := true, woken := true, wakeTimer := none } }
    let kept (b : BitVec 3) : State :=
      if s.pwr.wakeKept then s else { s with pwr := { s.pwr with wakeKept := true, wakeCause := b } }
    let edge (b : BitVec 3) : State := if s.pwr.vrst then kept b else started b
    (s.pwr.phase = .standby → pin = true →
      Leaves (.wakeInEdge (!bit s.cfg.wakePolicy 2) both) s (edge (if both && timer then 3#3 else 2#3))) ∧
    Leaves (.wakeInEdge (bit s.cfg.wakePolicy 2) both) s s ∧
    (∀ rising, s.pwr.phase ≠ .standby ∨ pin = false → Leaves (.wakeInEdge rising both) s s) ∧
    (s.pwr.phase = .standby → timer = true → Leaves (.wakeTimerExpiry both) s (edge (if both && pin then 3#3 else 1#3))) ∧
    (s.pwr.phase = .standby → timer = false → Leaves (.wakeTimerExpiry both) s s) ∧
    (s.pwr.phase = .sleep → s.pwr.survey = true → s.pwr.wakeTimer.isSome = true → s.pwr.standbyWait = none →
      Leaves (.wakeTimerExpiry both) s (startAcq s)) ∧
    (s.pwr.phase = .sleep → s.pwr.survey = false ∨ s.pwr.wakeTimer = none ∨ s.pwr.standbyWait ≠ none →
      Leaves (.wakeTimerExpiry both) s s) ∧
    (s.pwr.phase ≠ .standby → s.pwr.phase ≠ .sleep → Leaves (.wakeTimerExpiry both) s s))

/-- Reset sources and their reaches (20 R425, R427, R431 to R436; log 9). -/
def Obligations.ResetSources : Prop :=
  ∀ s : State,
    Leaves .vaoMonitorAssert s { State.reset with
      pending := s.pending, free := s.free, flash := s.flash, fuses := s.fuses, fact := s.fact
      pads := { State.reset.pads with ilkN := s.pads.ilkN, gpioIn := s.pads.gpioIn }
      pwr := { State.reset.pwr with rstHeld := s.pwr.rstHeld }
      adc := adcFresh s.fact {} false } ∧
    Leaves .vaoMonitorRelease s { s with pwr := { s.pwr with vao := false } } ∧
    (s.pwr.phase = .standby ∨ s.pwr.phase = .rails →
      Leaves .rstNLow s { s with pwr := { s.pwr with rstHeld := true, causeRst := true } }) ∧
    (s.pwr.phase ≠ .standby → s.pwr.phase ≠ .rails →
      Leaves .rstNLow s (mainReset { s with pwr := { s.pwr with rstHeld := true, causeRst := true, woken := false } } .pll true true)) ∧
    Leaves .rstNRelease s { s with pwr := { s.pwr with rstHeld := false } } ∧
    (∀ bus a b : Nat, s.pwr.vrst = false →
      let t := s.logAos 0x0101 3 0 (leBytes 2 bus ++ leBytes 2 a ++ leBytes 2 b)
      let t := { t with
        aos := { t.aos with lossBoot := s.pwr.bootCount, lossRtc := t.rtcSec, lossCause := 2 }
        pwr := { s.pwr with vrst := true, causeVrst := true } }
      (s.pwr.phase = .standby → Leaves (.vrstAssert bus a b) s t) ∧
      (s.pwr.phase ≠ .standby → Leaves (.vrstAssert bus a b) s (mainReset { t with pwr := { t.pwr with woken := false } } .rails false false))) ∧
    (∀ bus a b : Nat, s.pwr.vrst = true → Leaves (.vrstAssert bus a b) s s) ∧
    (s.pwr.busSeen = true → ¬ (s.pwr.phase = .standby ∧ s.pwr.wakeKept = true) →
      Leaves .vrstRelease s { s with pwr := { s.pwr with vrst := false } }) ∧
    (s.pwr.busSeen = true → s.pwr.phase = .standby → s.pwr.wakeKept = true →
      Leaves .vrstRelease s { s with pwr := { s.pwr with
        vrst := false, phase := .rails, wakeKept := false, causeWake := true, woken := true, wakeTimer := none } }) ∧
    (∀ c, c = .mainPowerOn ∨ c = .vrstRelease → s.pwr.busSeen = false →
      let w := if s.flash.opt.good then s.flash.opt.wakePolicy else ({} : OptBytes).wakePolicy
      (s.pwr.vao = false → s.pwr.phase = .rails → bit w 3 = false →
        Leaves c s { s with pwr := { s.pwr with busSeen := true, vrst := false, causeMain := true, wakeCause := 4#3 } }) ∧
      (s.pwr.vao = false → s.pwr.phase = .rails → bit w 3 = true →
        Leaves c s { s with
          pwr := { s.pwr with busSeen := true, vrst := false, causeMain := true, phase := .standby, wakeTimer := none }
          cfg := { s.cfg with wakePolicy := w } }) ∧
      (s.pwr.vao = true ∨ s.pwr.phase ≠ .rails → Leaves c s s)) ∧
    (s.pwr.busSeen = true → Leaves .mainPowerOn s s)

/-- What a reset of reach B or C clears and keeps (20 R432, R436). -/
def Obligations.MainDomainRestart : Prop :=
  ∀ (s : State) (c : Instr), s.pwr.phase ≠ .standby → s.pwr.phase ≠ .rails →
    (c = .rstNLow ∨ ∃ bus a b, c = .vrstAssert bus a b ∧ s.pwr.vrst = false) →
    ∃ t, exec c s = .next t ∧ t.mode = 0 ∧ t.faultLow = true ∧ t.alive = false ∧ t.intN = false ∧
      t.pads = { State.reset.pads with ilkN := s.pads.ilkN, gpioIn := s.pads.gpioIn } ∧
      t.conf = State.reset.conf ∧ t.prb = State.reset.prb ∧ t.rxf = State.reset.rxf ∧ t.til = State.reset.til ∧ t.coh = State.reset.coh ∧
      t.dec = State.reset.dec ∧ t.qss = State.reset.qss ∧ t.dts = State.reset.dts ∧ t.zon = State.reset.zon ∧ t.acq = State.reset.acq ∧
      t.net = State.reset.net ∧ t.tim = State.reset.tim ∧ t.hka = State.reset.hka ∧ t.sec = State.reset.sec ∧ t.cas = State.reset.cas ∧
      t.bgw = State.reset.bgw ∧ t.mem.data = [] ∧ t.pwr.int = State.reset.pwr.int ∧ t.pwr.bootCount = s.pwr.bootCount ∧
      t.aos.tillers = s.aos.tillers ∧ t.aos.dram = s.aos.dram ∧ t.flash = s.flash ∧ t.fuses = s.fuses ∧ t.fact = s.fact

/-- PWR_PADFUSE (20 R437) and the block resets (20 R445). -/
def Obligations.PadFusesAndBlockResets : Prop :=
  (
  ∀ (s : State) (h : Hdr) (x : Session) (val : Word), Ready s h 0x0002 1 x →
    (s.fuses.lifecycle = 0 → x.role = 2 ∨ x.localSess = true →
      Answers (.pwrPadfuseWrite h val) s h x (plain .ok) { s with fuses := { s.fuses with pads := s.fuses.pads.mapIdx fun i f =>
        match f with
        | some c => some c
        | none => match val.toNat / 8 ^ i % 8 with
          | 0 => none
          | 5 | 6 | 7 => some 0
          | v => some v } }) ∧
    (s.fuses.lifecycle ≠ 0 ∨ (x.role ≠ 2 ∧ x.localSess = false) → Answers (.pwrPadfuseWrite h val) s h x (plain .denied) s)) ∧
  (∀ (s : State) (h : Hdr) (x : Session), Ready s h 0x0002 1 x →
    (s.mode ≠ 2 → s.mode ≠ 3 →
      Answers (.blkrstReceiver h) s h x (plain .ok) { s with
        rxf := { s.rxf with switches := 0, clips := 0, floorValid := false, endValid := false, floors := [0, 0, 0, 0], endRef := 0 }
        adc := { s.adc with
          rotCount := 0
          lanes := s.adc.lanes.mapIdx fun n l => { l with
            cals := 0, rejects := 0, suspects := 0, slices := l.slices.mapIdx fun i y => y.withTrim (s.factoryTrim n i) } }
        pwr := { s.pwr with blkrst := s.pwr.blkrst ||| 1 } } ∧
      Answers (.blkrstTiller h) s h x (plain .ok) { s with
        til := { s.til with
          queues := List.replicate 24 [], waiting := [], shots := [], tokens := [], held := [], winnow := [], cut := none
          tillers := s.til.tillers.filter fun e => match e.2 with | .running _ => false | _ => true }
        pwr := { s.pwr with blkrst := s.pwr.blkrst ||| 2 } } ∧
      Answers (.blkrstZone h) s h x (plain .ok) { s with
        zon := { s.zon with filt := [], pos := [], comps := [], queue := [], lostRun := none, cur := [], curTs := [], ints := [] }
        pwr := { s.pwr with blkrst := s.pwr.blkrst ||| 4 } } ∧
      ((∀ y ∈ s.conf.streams, y.en = 1 → y.stype ≠ 8) →
        Answers (.blkrstHousekeeping h) s h x (plain .ok) { s with
          hka := { s.hka with
            buf := [], unread := 0, rd := s.hka.wp, rwrap := s.hka.len, comps := List.replicate 32 {}
            rtd0 := { s.hka.rtd0 with settling := true, brkNow := false, endTick := none }, rtd1 := { s.hka.rtd1 with settling := true, brkNow := false, endTick := none }
            rtd2 := { s.hka.rtd2 with settling := true, brkNow := false, endTick := none }, rtd3 := { s.hka.rtd3 with settling := true, brkNow := false, endTick := none } }
          pwr := { s.pwr with blkrst := s.pwr.blkrst ||| 8 } })) ∧
    (s.mode = 2 ∨ s.mode = 3 → ∀ c, c = .blkrstReceiver h ∨ c = .blkrstTiller h ∨ c = .blkrstZone h ∨ c = .blkrstHousekeeping h →
      Answers c s h x (plain .busy) s) ∧
    (∀ y ∈ s.conf.streams, y.en = 1 → y.stype = 8 → Answers (.blkrstHousekeeping h) s h x (plain .busy) s)) ∧
  (∀ (s : State) (failed : List Nat),
    (s.pwr.blkrst = 0 → Leaves (.blkrstDone failed) s s) ∧
    (s.pwr.blkrst ≠ 0 → s.pwr.blkrst.getLsbD 1 = false →
      Leaves (.blkrstDone failed) s { s with pwr := { s.pwr with blkrst := 0, int := s.pwr.int.raise 5 } }) ∧
    (s.pwr.blkrst.getLsbD 1 = true → let t := retireFailed s failed
      Leaves (.blkrstDone failed) s { t with pwr := { t.pwr with blkrst := 0, int := t.pwr.int.raise 5 } }))

/-! ### Start-up -/

/-- Steps 1 to 3 of the start-up (20 R440; log 9). -/
def Obligations.StartUpSteps : Prop :=
  ∀ s : State,
    (s.pwr.phase = .rails → s.pwr.vao = false → s.pwr.vrst = false → s.pwr.busSeen = true →
      Leaves .railsGood s { s with
        free := s.free + 1
        aos := { s.aos with rtc := (s.aos.rtc + Config.freeNat s.free) % 2 ^ 48 }
        pwr := { s.pwr with phase := .pll, rails := true } }) ∧
    (s.pwr.phase ≠ .rails ∨ s.pwr.vao = true ∨ s.pwr.vrst = true ∨ s.pwr.busSeen = false → Leaves .railsGood s s) ∧
    (∀ ms : Nat, s.pwr.phase = .pll → s.pwr.rstHeld = false →
      let o : OptBytes := if s.flash.opt.good then s.flash.opt else {}
      Leaves (.systemPllLock ms) s { s with
        pwr := { s.pwr with phase := .mgmt, bootCount := (s.pwr.bootCount + 1) % 2 ^ 32 }
        glb := { s.glb with uptimeBase := ms }
        aos := { s.aos with rtcTick := 0 }
        tim := { s.tim with
          counting := true, tick := 0, map := { xa := 0, t := s.aos.rtc * (10 ^ 9 * 2 ^ 48), rho := 0 }, mapOld := []
          st := if s.aos.rtcSet then .rtc else .free }
        cfg := { s.cfg with wakePolicy := o.wakePolicy, overlay := o.overlay, wakeS := o.wakeS, optBad := !s.flash.opt.good } }) ∧
    (∀ ms : Nat, s.pwr.phase ≠ .pll ∨ s.pwr.rstHeld = true → Leaves (.systemPllLock ms) s s) ∧
    (∀ aosBad : List Nat, s.pwr.phase = .mgmt →
      let u := clearRetained s aosBad
      let p := u.flash.options.fw.slot
      let n := if u.fwRuns p then p else if u.fwRuns (1 - p) then 1 - p else 2
      let t := if n = p then u else fallBack u
      (u.flash.options.fw.trial = false → Leaves (.mgmtCoreStart aosBad) s { t with
        pwr := { u.pwr with phase := .image }
        fact := { u.fact with fwVersion := Config.fwVersion (u.flash.fw n) % 2 ^ 32, fwSvn := Config.fwSvn (u.flash.fw n) % 2 ^ 32 }
        cfg := { t.cfg with fwSlot := if n = 2 then u.cfg.fwSlot else n, fwGolden := n == 2 } }) ∧
      (u.flash.options.fw.trial = true →
        Leaves (.mgmtCoreStart aosBad) s { selectFirmware u with pwr := { (selectFirmware u).pwr with phase := .image } })) ∧
    clearRetained s [] = s ∧
    (∀ aosBad : List Nat, s.pwr.phase ≠ .mgmt → Leaves (.mgmtCoreStart aosBad) s s)

/-- Steps 4 to 7 of the start-up (20 R440, R441; 19 R412 to R416; log 67). -/
def Obligations.ImageSteps : Prop :=
  ∀ s : State,
    (s.pwr.phase = .image → s.fuses.lifecycle ≠ 3 →
      let t := trialStart s
      let p := t.flash.options.boot
      let slot := if t.cfg.tried = [] then p.slot else 1 - t.cfg.tried.headD 0
      (∀ v, validate t.vctx (t.flash.img slot) = .ok v → Leaves .imageValidated s { t with
        pwr := { t.pwr with phase := .dram }
        cfg := { t.cfg with
          activeSlot := slot, trial := p.trial && p.slot == slot, accepted := some v.conf, imgVersion := v.head.version
          imgHash := sha256 ((t.flash.img slot).take (fieldAt (t.flash.img slot) 8 4)), imgKey := keySlotOf v.head.recs } }) ∧
      (∀ r, validate t.vctx (t.flash.img slot) = .error r → Leaves .imageValidated s (rejectSlot t slot r))) ∧
    (s.pwr.phase ≠ .image ∨ s.fuses.lifecycle = 3 → Leaves .imageValidated s s) ∧
    (s.pwr.phase = .dram → ∀ (passing : List Nat) (c : Conf), s.cfg.accepted = some c →
      let w : State := { s with free := s.free + 2 ^ 20, mem := { s.mem with pattern := some s.free, patternGone := [] } }
      Leaves (.dramCheckDone [] passing) s ((List.range 8).foldl grantAll { w with
        conf := c
        aos := { s.aos with dram := s.aos.dram.filter fun e => match e.2 with
          | some slot => !passing.contains slot
          | none => false }
        pwr := { s.pwr with phase := .step6 }
        mem := { w.mem with ready := true }
        rxf := if c.receiver.mode = 1 ∨ s.rxf.range = c.receiver.fixedRange then s.rxf
          else s.rxf.setRange s.tim.tick c.receiver.fixedRange false
        cfg := { s.cfg with accepted := none, image := some c }
        coh := { s.coh with refReady := true, refBuilds := satAdd 16 s.coh.refBuilds 1, int := s.coh.int.raise 0 }
        hka := { s.hka with len := c.hk.len, rwrap := c.hk.len }
        til := { s.til with x := c.probe.throughput, blocksRun := c.probe.nblocks } }) ∧
      (∀ bad : List Nat, bad ≠ [] → Leaves (.dramCheckDone bad passing) s (rejectSlot w w.cfg.activeSlot (rejFree 10 0)))) ∧
    (∀ (bad passing : List Nat), s.pwr.phase ≠ .dram ∨ s.cfg.accepted = none → Leaves (.dramCheckDone bad passing) s s) ∧
    (∀ failed : List Nat, s.pwr.phase = .step6 →
      let u := copyAosLog (retireFailed s failed)
      let on : Bool := u.conf.power.surveyEn == 1
      let o := u.flash.options
      let w : State := { u with
        flash := if u.cfg.trial then { u.flash with opt := { o with
          boot := { slot := u.cfg.activeSlot }, good := true, lifecycle := u.fuses.lifecycle, debugLock := u.fuses.debugLock } } else u.flash
        cfg := { u.cfg with trial := false, int := u.cfg.int.raiseIf u.cfg.trial 2 }
        pwr := { u.pwr with configured := true, survey := on, int := u.pwr.int.raise 4 }
        hka := { u.hka with running := true } }
      let v := enterSleep (loScanStart w)
      v.mode = 1 ∧
        (u.conf.power.autostart = 1 ∨ (u.conf.power.surveyEn = 1 ∧ u.pwr.woken = true) → Leaves (.startupStep6Done failed) s (startAcq v)) ∧
        (u.conf.power.autostart ≠ 1 → u.conf.power.surveyEn ≠ 1 ∨ u.pwr.woken = false → Leaves (.startupStep6Done failed) s v)) ∧
    (∀ failed : List Nat, s.pwr.phase ≠ .step6 → Leaves (.startupStep6Done failed) s s)

/-- Staging (19 R417, R418). -/
def Obligations.Staging : Prop :=
  (∀ (s : State) (h : Hdr) (x : Session), Ready s h 0x0040 2 x → ∀ (t force len : Nat) (hash : List Byte),
    let cap := if t < 2 then 2 ^ 24 else 2 ^ 22
    let good := t ≤ 3 ∧ force ≤ 1 ∧ len ≤ cap ∧ hash.length = 32
    (¬ good → Answers (.stageBegin h t force len hash) s h x (plain .invalid) s) ∧
    (good → s.targetUsed t = true → Answers (.stageBegin h t force len hash) s h x (plain .conflict) s) ∧
    (good → s.targetUsed t = false → s.cfg.stage ≠ .none → force = 0 → Answers (.stageBegin h t force len hash) s h x (plain .busy) s) ∧
    (good → s.targetUsed t = false → s.cfg.stage = .none ∨ force = 1 →
      Answers (.stageBegin h t force len hash) s h x (plain .deferred) { s with
        flash := s.flash.setTarget t []
        cfg := { s.cfg with stage := .erasing, stageTarget := t, stageLen := len, stageHash := hash, staged := [] } })) ∧
  (∀ s : State,
    (s.cfg.stage = .erasing → Leaves .stageEraseDone s { s with
      flash := s.flash.setTarget s.cfg.stageTarget (List.replicate s.cfg.stageLen 0xFF)
      cfg := { s.cfg with stage := .opened, int := s.cfg.int.raise 3 } }) ∧
    (s.cfg.stage ≠ .erasing → Leaves .stageEraseDone s s)) ∧
  (∀ (s : State) (h : Hdr) (x : Session), Ready s h 0x0041 2 x → ∀ (ofs : Nat) (data : List Byte),
    let n := data.length
    let shaped := ofs % 4 = 0 ∧ n % 4 = 0 ∧ 4 ≤ n ∧ n ≤ 1024
    let over_ := s.cfg.staged.any fun e => decide (e.1 < ofs + n ∧ ofs < e.1 + e.2)
    (s.cfg.stage = .none ∨ ¬ shaped → Answers (.stageWrite h ofs data) s h x (plain .invalid) s) ∧
    (s.cfg.stage = .erasing → shaped → Answers (.stageWrite h ofs data) s h x (plain .busy) s) ∧
    (s.cfg.stage = .opened ∨ s.cfg.stage = .checked → shaped →
      (s.cfg.stageLen < ofs + n → Answers (.stageWrite h ofs data) s h x (plain .invalid) s) ∧
      (ofs + n ≤ s.cfg.stageLen → over_ = true → Answers (.stageWrite h ofs data) s h x (plain .conflict) s) ∧
      (ofs + n ≤ s.cfg.stageLen → over_ = false → Answers (.stageWrite h ofs data) s h x (plain .ok)
        (let l := s.flash.target s.cfg.stageTarget
         { s with
           flash := s.flash.setTarget s.cfg.stageTarget (l.take ofs ++ data ++ l.drop (ofs + n))
           cfg := { s.cfg with stage := .opened, staged := s.cfg.staged ++ [(ofs, n)] } })))) ∧
  (∀ (s : State) (h : Hdr) (x : Session), Ready s h 0x0042 2 x →
    (s.cfg.stage = .none → Answers (.stageCheck h) s h x (plain .invalid) s) ∧
    (s.cfg.stage = .erasing → Answers (.stageCheck h) s h x (plain .busy) s) ∧
    (s.cfg.stage = .opened ∨ s.cfg.stage = .checked →
      (∀ r, s.stageVerdict = some r → Answers (.stageCheck h) s h x (withData .invalid r.bytes)
        { s with cfg := { s.cfg with stage := .opened, rejStage := r, int := s.cfg.int.raise 4 } }) ∧
      (s.stageVerdict = none → Answers (.stageCheck h) s h x (plain .ok)
        { s with cfg := { s.cfg with stage := .checked, rejStage := {}, int := s.cfg.int.raise 4 } })))

/-! ### Modes, survey campaigns and the laser chain -/

/-- Mode commands (20 R428 to R430). -/
def Obligations.ModeCommands : Prop :=
  ∀ (s : State) (h : Hdr) (x : Session),
    let e := s.entered h
    (Ready s h 0x0010 1 x →
      (s.pwr.phase = .sleep → s.pwr.standbyWait = none →
        Leaves (.acqStart h) s ((startAcq e).answer h.sid h.seq (plain .deferred)) ∧ (startAcq e).mode = 2) ∧
      (s.pwr.phase = .acquisition → Leaves (.acqStart h) s (e.answer h.sid h.seq (plain .ok))) ∧
      (s.pwr.phase = .golden → Leaves (.acqStart h) s (e.answer h.sid h.seq (plain .denied))) ∧
      ((s.pwr.phase = .sleep ∧ s.pwr.standbyWait.isSome) ∨
        (s.pwr.phase ≠ .sleep ∧ s.pwr.phase ≠ .acquisition ∧ s.pwr.phase ≠ .golden) →
        Leaves (.acqStart h) s (e.answer h.sid h.seq (plain .busy)))) ∧
    (Ready s h 0x0011 1 x →
      (s.pwr.phase = .acquisition → Leaves (.acqStop h) s
        ((beginStop e (if s.pwr.survey then .survey else .sleep)).answer h.sid h.seq (plain .ok))) ∧
      (s.pwr.phase ≠ .acquisition → Leaves (.acqStop h) s (e.answer h.sid h.seq (plain .ok)))) ∧
    (Ready s h 0x0012 1 x → Leaves (.sleep h) s
      ((stopCheck (beginStop { e with pwr := { e.pwr with survey := false, wakeTimer := none } } .sleep)).answer h.sid h.seq (plain .ok))) ∧
    (∀ wakeS : Nat, Ready s h 0x0013 2 x →
      (s.pwr.phase = .golden → Leaves (.standby h wakeS) s (e.answer h.sid h.seq (plain .denied))) ∧
      (s.mode = 0 → s.pwr.phase ≠ .golden → Leaves (.standby h wakeS) s (e.answer h.sid h.seq (plain .busy))) ∧
      (s.mode ≠ 0 → Leaves (.standby h wakeS) s
        (({ e with pwr := { e.pwr with standbyWait := some wakeS, standbyTick := e.tim.tick } } : State).answer h.sid h.seq (plain .ok))))

/-- Stop procedure and survey campaigns (20 R430, R443, R447). -/
def Obligations.StopAndSurvey : Prop :=
  ∀ s : State,
    (∀ w, s.pwr.standbyWait = some w →
      let a := s.advance (s.pwr.standbyTick + 100 * msTicks)
      let t : State := { a with pwr := { a.pwr with standbyWait := none, survey := false } }
      (s.pwr.phase = .sleep →
        (let u := mainReset t.closeAll .standby false false
         Leaves .standbyEntry s { u with pwr := { u.pwr with wakeTimer := if w = 0 then none else some w, woken := false } })) ∧
      (s.pwr.phase ≠ .sleep → Leaves .standbyEntry s (stopCheck (beginStop t (.standby w))))) ∧
    (s.pwr.standbyWait = none → Leaves .standbyEntry s s) ∧
    (s.pwr.phase = .acquisition → s.pwr.survey = true → s.prb.launched = true →
      Leaves .surveyAcqEnd s (beginStop (s.advance (s.epochTick + s.pwr.cycle.surveyAcqS * secTicks)) .survey)) ∧
    (s.pwr.phase ≠ .acquisition ∨ s.pwr.survey = false ∨ s.prb.launched = false → Leaves .surveyAcqEnd s s) ∧
    (s.pwr.phase = .stopping → s.pwr.draining = true →
      Leaves .surveyDrainEnd s (stopCheck { s with pwr := { s.pwr with draining := false } })) ∧
    (s.pwr.phase ≠ .stopping ∨ s.pwr.draining = false → Leaves .surveyDrainEnd s s) ∧
    Leaves .faultPulseEnd s { s with pads := { s.pads with faultPulse := false } } ∧
    (∀ t : Nat, s.advance t = { s with tim := { s.tim with
      tick := max s.tim.tick (if s.tim.fromSample then t else (t + 15) / 16 * 16) } })

/-- Interlock and arming (02 R51 to R55, R520). -/
def Obligations.LaserArming : Prop :=
  (∀ s : State,
    (s.prb.ilkOk = true → Leaves .ilkNLow s
      (({ s with
        pads := { s.pads.dark with ilkN := false }
        rxf := s.rxf.suspend
        prb := { s.prb with
          ilkOk := false, ilkTripped := true, launching := false, rearm := s.prb.epoch.isSome, int := s.prb.int.raise 0
          arm := if s.emits = false ∨ s.prb.arm = .off then s.prb.arm else if s.conf.laser.autoResume = 1 then .waitIlk else .tripped } } :
        State).log 0x0201 0 0 (leBytes 8 s.prb.lastLaunch))) ∧
    s.pads.dark.ldEn = false ∧ s.pads.dark.ampEn = false ∧ s.pads.dark.gate = false ∧ s.pads.dark.gateDts = false ∧
    (s.prb.ilkOk = false → Leaves .ilkNLow s { s with pads := { s.pads with ilkN := false } }) ∧
    (s.prb.ilkOk = true ∨ s.mode = 0 → Leaves .ilkQualified s s) ∧
    (s.prb.ilkOk = false → s.mode ≠ 0 →
      let t : State := { s with
        pads := { s.pads with ilkN := true }
        prb := { s.prb with ilkOk := true, ilkTripped := false, int := s.prb.int.raiseIf s.prb.ilkTripped 1 } }
      (s.prb.arm ≠ .waitIlk → Leaves .ilkQualified s t) ∧
      (s.prb.arm = .waitIlk → Leaves .ilkQualified s { t with
        pads := { t.pads with ldEn := s.emits || s.pads.ldEn }
        rxf := { t.rxf with floorValid := false }
        prb := { t.prb with arm := .ampDelay } })) ∧
    (s.prb.arm = .ampDelay → Leaves .ldAmpDelayEnd s
      { s with prb := { s.prb with arm := .settle, settleFrom := s.tim.tick }, pads := { s.pads with ampEn := s.emits } }) ∧
    (s.prb.arm ≠ .ampDelay → Leaves .ldAmpDelayEnd s s) ∧
    (s.prb.arm = .settle → s.prb.epoch = none → s.conf.cascade.role = 0 ∨ s.cas.joined = false → s.cas.stateSeen = none →
      Leaves .ampSettleEnd s { s with prb := { s.prb with
        arm := if s.emits then .waitLaunch else .off
        epoch := some ((s.tim.tick + 15) / 16 * 16), m := 0, nextR := 0, j := 0, boundaryDone := false
        segs := [{ r0 := 0, m0 := 0, s := s.conf.probe.slots }] } }) ∧
    (s.prb.arm = .settle → s.prb.epoch.isSome → Leaves .ampSettleEnd s
      { s with prb := { s.prb with arm := if s.emits then .waitLaunch else .off } }) ∧
    (s.prb.arm = .settle → Leaves .ampSettleEnd s (setEpoch (settleEnd s))) ∧
    (s.prb.arm ≠ .settle → Leaves .ampSettleEnd s s)) ∧
  (∀ (s : State) (h : Hdr) (x : Session), Ready s h 0x0014 1 x →
    let e := s.entered h
    (s.pwr.phase = .golden ∨ s.emits = false → Leaves (.laserArm h) s (e.answer h.sid h.seq (plain .denied))) ∧
    (s.pwr.phase = .acquisition → s.emits = true → s.prb.arm = .tripped →
      Leaves (.laserArm h) s ((armStart e s.prb.epoch.isSome).answer h.sid h.seq (plain .deferred))) ∧
    (s.pwr.phase ≠ .golden → s.emits = true → s.pwr.phase ≠ .acquisition ∨ s.prb.arm ≠ .tripped →
      Leaves (.laserArm h) s (e.answer h.sid h.seq (plain .ok))))

/-! ### Launches, the launch monitor, the receiver and the converters -/

/-- Launch positions and trace-period boundaries (02 R39, R41, R54, R56). -/
def Obligations.LaunchSchedule : Prop :=
  ∀ s : State,
    (∀ raman : List (Nat × Nat),
      let u := if s.prb.j = 0 then boundary s else s
      let runs := u.prb.epoch.isSome ∧ u.prb.boundaryDone = true ∧ u.pwr.stopped = false ∧
        (u.pwr.phase = .acquisition ∨ u.pwr.phase = .stopping)
      (¬ runs → Leaves (.launchPosition raman) s u.settled) ∧
      (runs →
        let r := u.prb.nextR
        let j := u.prb.j
        let at' := u.launchTick r
        let v := lightOn (dispatchPass (u.advance at') at') r u.prb.m j at'
        ∃ w : State, Leaves (.launchPosition raman) s w.settled ∧ w.prb.rawIdx = r ∧ w.prb.nextR = r + 1 ∧
          (v.conf.probe.slots ≤ j + 1 → w.prb.m = u.prb.m + 1 ∧ w.prb.j = 0 ∧ w.prb.boundaryDone = false) ∧
          (j + 1 < v.conf.probe.slots → w.prb.m = u.prb.m ∧ w.prb.j = j + 1 ∧ w.prb.boundaryDone = true) ∧
          (u.prb.arm = .waitLaunch → w.prb.arm = .armed) ∧ (u.prb.arm ≠ .waitLaunch → w.prb.arm = u.prb.arm) ∧
          w.pads.gate = (v.prb.arm == .armed && v.drives) ∧ w.pads.muted = !w.pads.gate ∧
          w.pads.chirp.isSome = w.pads.gate ∧ w.prb.epoch = v.prb.epoch)) ∧
    (s.prb.epoch = none ∨ s.prb.boundaryDone = true ∨ s.pwr.stopped = true ∨
        (s.pwr.phase ≠ .acquisition ∧ s.pwr.phase ≠ .stopping) → Leaves .tracePeriodBoundary s s.settled) ∧
    (s.prb.epoch.isSome → s.prb.boundaryDone = false → s.pwr.stopped = false →
      let t := s.boundaryTick s.prb.m
      let u := joinNow (s.advance t)
      (s.pwr.phase = .stopping → Leaves .tracePeriodBoundary s (endLaunches u t).settled ∧
        (endLaunches u t).pads = u.pads.dark ∧ (endLaunches u t).prb.arm = .off ∧ (endLaunches u t).prb.launching = false ∧
        (endLaunches u t).pwr.stopped = true) ∧
      (s.pwr.phase = .acquisition → ∀ st, u.epochDiffers = some st → Leaves .tracePeriodBoundary s (epochRealign u st).settled) ∧
      (s.pwr.phase = .acquisition → u.epochDiffers = none →
        let m := u.prb.m
        let r := boundaryIdx u.planSegs m
        let v := installSeeds (dtsBoundaryClose { u with prb := { u.prb with boundaryDone := true, nextR := r } } m) r
        let role := roleBoundary v r
        let re := realignBoundary role.1 r
        let am := amendBoundary (commitBoundary (thinBoundary re.1 r m) t m) t r m
        let due := restartsDue (clearLost am.1) t
        let v := restartTraining due.1 r m 0 (am.2 ++ due.2 ++ role.2 ++ if re.2 then [(none, false)] else [])
        Leaves .tracePeriodBoundary s
          (qsStartAll (rejoin (sendState (zonGridSync (syncBoundary (lmonShift (beyondBoundary v)) r)) m))).settled))

/-- The launch monitor and the shadow tables (02 R46, R59). -/
def Obligations.LaunchMonitor : Prop :=
  (∀ s : State,
    (s.prb.lmonOpen = false → ∀ m : TdcIn, Leaves (.launchMonEdge m) s s ∧ Leaves .lmonWindowEnd s s) ∧
    (s.prb.lmonOpen = true → ∀ m : TdcIn,
      let e := s.tdcEdge 0 m
      (∀ at' fr c, e.2 = .measured at' fr c →
        let x := e.1.prb.lmonTick
        let num : Int := ((c : Int) * 4000 + (16 - (x % 16 : Nat)) * 250) * fr.2 - fr.1
        let d := if fr.2 = 0 then 0 else roundDiv num fr.2
        (c < 2 ^ 28 → 0 ≤ d → d ≤ 4095 * 250 → Leaves (.launchMonEdge m) s (lmonMeasure e.1 d.toNat)) ∧
        (2 ^ 28 ≤ c ∨ d < 0 ∨ 4095 * 250 < d → Leaves (.launchMonEdge m) s e.1)) ∧
      (∀ at', e.2 = .coarse at' → Leaves (.launchMonEdge m) s (if e.1.tim.tick ≤ e.1.prb.lmonTick + 4095 then
        { e.1 with prb := { e.1.prb with lmonOpen := false, lmonMissRun := 0, lmonGood := [] } } else e.1)) ∧
      (e.2 = .skipped → Leaves (.launchMonEdge m) s e.1)) ∧
    (s.prb.lmonOpen = true → Leaves .lmonWindowEnd s { s.expire (s.prb.lmonTick + 4095) with prb := { s.prb with
      lmonOpen := false, lmonMissRun := s.prb.lmonMissRun + 1, lmonMisses := satAdd 16 s.prb.lmonMisses 1, lmonGood := []
      lmonFrozen := s.prb.lmonFrozen || s.prb.lmonMissRun + 1 == 16, int := s.prb.int.raiseIf (s.prb.lmonMissRun + 1 == 16) 5 } }) ∧
    (∀ d : Nat,
      let p := (lmonMeasure s d).prb
      let good := d :: s.prb.lmonGood
      p.lmonD = d ∧ p.lmonMissRun = 0 ∧ p.lmonOpen = false ∧
      (s.prb.lmonFrozen = false →
        (within (lmonMean ((d :: s.prb.lmonSet).take 16) - s.conf.probe.lmonRef) lmonLimit = true →
          p.lmonFrozen = false ∧ p.lmonSet = (d :: s.prb.lmonSet).take 16 ∧
          p.lmonDrift = lmonMean ((d :: s.prb.lmonSet).take 16) - s.conf.probe.lmonRef) ∧
        (within (lmonMean ((d :: s.prb.lmonSet).take 16) - s.conf.probe.lmonRef) lmonLimit = false →
          p.lmonFrozen = true ∧ p.lmonSet = s.prb.lmonSet ∧ p.lmonDrift = s.prb.lmonDrift ∧ p.int = s.prb.int.raise 6)) ∧
      (s.prb.lmonFrozen = true → within ((d : Int) - s.conf.probe.lmonRef) lmonLimit = true →
        (good.length < 16 → p.lmonFrozen = true ∧ p.lmonGood = good) ∧
        (16 ≤ good.length → p.lmonFrozen = false ∧ p.lmonSet = good.take 16)) ∧
      (s.prb.lmonFrozen = true → within ((d : Int) - s.conf.probe.lmonRef) lmonLimit = false → p.lmonFrozen = true ∧ p.lmonGood = [])) ∧
    (∀ a, s.prb.pend = some a → a.ready = false → Leaves .shadowTablesReady s { s with
      prb := { s.prb with pend := some { a with ready := true } }
      coh := { s.coh with refBuilds := satAdd 16 s.coh.refBuilds 1, int := s.coh.int.raise 0 } }) ∧
    (∀ a, s.prb.pend = some a → a.ready = true → Leaves .shadowTablesReady s s) ∧
    (s.prb.pend = none → Leaves .shadowTablesReady s s))

/-- The receiver (03 R71 to R81). -/
def Obligations.Receiver : Prop :=
  ∀ s : State,
    (∀ peak clips : Nat, s.adc.running = true →
      let k := max (s.rxf.frame + 1) ((s.tim.tick + 255) / 256)
      let judging := s.autoRange = true ∧ s.rangeFrozen = false
      let low := if judging ∧ peak ≤ 52 then min 16 (s.rxf.lowRun + 1) else 0
      let free := s.rxf.pendSwitch = none ∧ (s.rxf.switched = true → s.rxf.switchTick + 4096 ≤ 256 * k + 32)
      let ask : Option Nat :=
        if clips ≠ 0 ∧ s.rxf.range < 3 then some 3
        else if 118 ≤ peak ∧ s.rxf.range < 3 then some (s.rxf.range + 1)
        else if 16 ≤ low ∧ 0 < s.rxf.range then some (s.rxf.range - 1)
        else none
      Leaves (.rangeFrameEnd peak clips) s { s.advance (256 * k) with
        rxf := { s.rxf with
          frame := k, lowRun := low, clips := satAdd 32 s.rxf.clips clips, int := s.rxf.int.raiseIf (clips != 0) 1
          pendSwitch := if judging ∧ free ∧ ask.isSome then ask.map fun r => (256 * k + 32, r, true) else s.rxf.pendSwitch } }) ∧
    (∀ peak clips : Nat, s.adc.running = false → Leaves (.rangeFrameEnd peak clips) s s) ∧
    (∀ t r a, s.rxf.pendSwitch = some (t, r, a) → Leaves .rangeSwitch s { s.advance t with
      rxf := { s.rxf with
        range := r, segs := { tick := t, range := r, erase := true } :: s.rxf.segs
        switchTick := t, switched := true, pendSwitch := none
        switches := satAdd 16 s.rxf.switches 1, int := s.rxf.int.raise 0 } }) ∧
    (s.rxf.pendSwitch = none → Leaves .rangeSwitch s s) ∧
    (s.rxf.loFrom = none → Leaves .loPowerUpdate s s) ∧
    (s.rxf.loFrom.isSome →
     let x := { s.rxf with loSum := 0, loCount := 0, loMs := s.rxf.loMs + 1 }
     let v := if s.rxf.loCount = 0 then s.rxf.loPwr else clampInt (-32767) 32767 (Config.loPower s.rxf.loSum s.rxf.loCount)
     let a := s.advance (msTicks * (s.rxf.loMs + 1))
     let known := ¬ (s.rxf.loCount = 0 ∧ s.rxf.loPwr = -32768)
     (known → Leaves .loPowerUpdate s { a with rxf := loJudge x s.conf.receiver.loMin v }) ∧
     (loJudge x s.conf.receiver.loMin v).loPwr = v ∧
     (¬ known → Leaves .loPowerUpdate s { a with rxf := x })) ∧
    (∀ k : Nat, s.floorTick k = (s.prb.settleFrom + (s.conf.laser.ampSettle - 1) * msTicks + k * 1000000 + 4095) / 4096 * 4096) ∧
    (s.prb.arm = .settle → Leaves .floorMeasurementStart s { s.advance (s.floorTick 0) with rxf := { s.rxf with
      range := 0, segs := { tick := s.floorTick 0, range := 0, erase := false } :: s.rxf.segs
      floorSeg := some 0, floorValid := false, pendSwitch := none } }) ∧
    (s.prb.arm ≠ .settle → Leaves .floorMeasurementStart s s) ∧
    (∀ (dark : List Sample) (k : Nat), s.rxf.floorSeg = some k →
      let f := modAt s.rxf.floors k fun _ => meanPower (floorPowers s (s.floorTick k) dark)
      let t := s.floorTick (k + 1)
      (k < 3 → Leaves (.floorSegmentEnd dark) s { s.advance t with rxf := { s.rxf with
        range := k + 1, segs := { tick := t, range := k + 1, erase := false } :: s.rxf.segs, floors := f, floorSeg := some (k + 1) } }) ∧
      (3 ≤ k → Leaves (.floorSegmentEnd dark) s { s with rxf := { s.rxf with floors := f, floorSeg := none, floorValid := true } })) ∧
    (∀ dark : List Sample, s.rxf.floorSeg = none → Leaves (.floorSegmentEnd dark) s s)

/-- The converters (04 R92 to R102). -/
def Obligations.Converters : Prop :=
  ∀ s : State,
    (∀ meas : List CalMeas, s.adc.running = true → s.adc.initDone = false →
      let t := meas.zipIdx.foldl (fun s e => initialCal s (e.2 / 9) (e.2 % 9) e.1) s
      Leaves (.initialCalDone meas) s { t with adc := { t.adc with initDone := true, int := t.adc.int.raise 0 } }) ∧
    (∀ meas : List CalMeas, s.adc.running = false ∨ s.adc.initDone = true → Leaves (.initialCalDone meas) s s) ∧
    (∀ (n : Nat) (m : CalMeas), s.adc.running = true → s.adc.initDone = true → ∀ i, (s.lane n).out = some i →
      let x := nth (s.lane n).slices i {}
      (calCheck rotationLimits (x.off, x.gain, x.taps) m (s.laneDelay n) = none → Leaves (.calCommit n m) s (s.modLane n fun l =>
        { (l.modSlice i fun x => { x with next := some (m.off1, m.gain1, calTaps m (s.laneDelay n)), rejRun := 0 }) with cals := satAdd 16 l.cals 1 })) ∧
      (∀ f, calCheck rotationLimits (x.off, x.gain, x.taps) m (s.laneDelay n) = some f →
        let t := s.modLane n fun l =>
          { (l.modSlice i fun x => { x with rejRun := x.rejRun + 1, testing := some f }) with rejects := satAdd 16 l.rejects 1 }
        Leaves (.calCommit n m) s { t with adc := { t.adc with int := t.adc.int.raise 1 } })) ∧
    (∀ (n : Nat) (m : CalMeas), s.adc.running = false ∨ s.adc.initDone = false ∨ (s.lane n).out = none →
      Leaves (.calCommit n m) s s) ∧
    (∀ (n i : Nat) (devs : SelfTestCodes),
      let x := nth (s.lane n).slices i {}
      let pass := (∀ d ∈ devs, -1 ≤ d ∧ d ≤ 1) ∧ x.rejRun < 3
      (x.testing = none → Leaves (.sliceSelfTestDone n i devs) s s) ∧
      (∀ f, x.testing = some f →
        (pass → Leaves (.sliceSelfTestDone n i devs) s
          ((s.modLane n fun l => l.modSlice i fun y => { y with testing := none }).transient 0x0301 (9 * n + i)
            (leBytes 4 f.1 ++ leBytes 4 (ofInt 32 f.2)))) ∧
        (¬ pass → Leaves (.sliceSelfTestDone n i devs) s (retireSlice s n i f s.tim.tick)))) ∧
    (s.adc.running = true →
      let b := max (alignUp s.tim.tick (2 ^ 24)) (s.adc.lastRot + 2 ^ 24)
      let losing (k : Nat) : Bool := ((s.adc.lanes.drop (2 * k)).take 2).any fun l => l.losing.isSome
      let t : State := { s.advance b with
        adc := { s.adc with
          lastRot := b, rotCount := wrapAdd 32 s.adc.rotCount 1
          lanes := s.adc.lanes.map fun l => if s.adc.initDone then { l.rotate b with losing := none } else l } }
      (losing 0 = false → losing 1 = false → Leaves .rotationBoundary s t) ∧
      (losing 0 = true → losing 1 = false → Leaves .rotationBoundary s (losePol t 0 b)) ∧
      (losing 0 = false → losing 1 = true → Leaves .rotationBoundary s (losePol t 1 b)) ∧
      (losing 0 = true → losing 1 = true → Leaves .rotationBoundary s (losePol (losePol t 0 b) 1 b))) ∧
    (s.adc.running = false → Leaves .rotationBoundary s s) ∧
    (∀ stats : List PhaseStat,
      (s.adc.running = true → s.pwr.phase = .acquisition →
        let w := max (alignUp s.tim.tick (2 ^ 20)) (s.adc.lastWin + 2 ^ 20)
        Leaves (.monitorWindowEnd stats) s
          ((List.range 4).foldl (fun t n => judgeLane t n w ((stats.drop (8 * n)).take 8))
            { s.advance w with adc := { s.adc with lastWin := w } })) ∧
      (s.adc.running = false ∨ s.pwr.phase ≠ .acquisition → Leaves (.monitorWindowEnd stats) s s))

/-! ### The tiller array and the winnow -/

/-- What tillers do (05 R113 to R117). -/
def Obligations.TillerWork : Prop :=
  ∀ (s : State) (i : Nat),
    let q := s.til.queue (i / 16)
    (384 ≤ i ∨ s.tiller i ≠ .idle ∨ s.til.running = false → Leaves (.tillerTake i) s s.settled) ∧
    (i < 384 → s.tiller i = .idle → s.til.running = true →
      (∀ h, q.find? Sheaf.isBlock = some h → Leaves (.tillerTake i) s (startSheaf s i (i / 16) h).settled) ∧
      (q.find? Sheaf.isBlock = none →
        let u : State := { s with til := s.til.passOver q }
        (∀ h, q.find? s.til.takeable = some h → Leaves (.tillerTake i) s (startSheaf u i (i / 16) h).settled) ∧
        (q.find? s.til.takeable = none →
          (∀ m, s.til.victim (i / 16) = some m →
            let tail := (s.til.queue m).reverse
            let v : State := { s with til := u.til.passOver tail }
            (∀ h, tail.find? s.til.takeable = some h →
              Leaves (.tillerTake i) s (startSheaf { v with til := { v.til with steals := wrapAdd 32 v.til.steals 1 } } i m h).settled) ∧
            (tail.find? s.til.takeable = none →
              (v.gleanDue i = true → q = [] → Leaves (.tillerTake i) s (startGlean v i).settled) ∧
              (v.gleanDue i = false ∨ q ≠ [] → Leaves (.tillerTake i) s v.settled))) ∧
          (s.til.victim (i / 16) = none →
            (u.gleanDue i = true → q = [] → Leaves (.tillerTake i) s (startGlean u i).settled) ∧
            (u.gleanDue i = false ∨ q ≠ [] → Leaves (.tillerTake i) s u.settled))))) ∧
    (∀ inp : SheafIn,
      let t := s.setTiller i .idle
      (∀ r b sh, s.tiller i = .running (.shot r b) → s.til.shot r = some sh →
        Leaves (.sheafCommit i inp) s (dropShots (commitShot t sh b inp)).settled) ∧
      (∀ r b, s.tiller i = .running (.shot r b) → s.til.shot r = none → Leaves (.sheafCommit i inp) s (dropShots t).settled) ∧
      (∀ b batch, s.tiller i = .running (.block b batch) → Leaves (.sheafCommit i inp) s (dropShots (commitBlock t b batch inp)).settled) ∧
      (∀ g, s.tiller i = .running (.glean g) → Leaves (.sheafCommit i inp) s (dropShots { t with bgw := { t.bgw with
        gleans := wrapAdd 32 t.bgw.gleans 1
        tasks := modAt t.bgw.tasks 4 fun x => { x with
          running := t.til.tillers.any fun e => match e.2 with | .running (.glean _) => true | _ => false } } }).settled) ∧
      ((∀ h, s.tiller i ≠ .running h) → Leaves (.sheafCommit i inp) s (dropShots s).settled))

/-- Sheaf faults and tiller tests (05 R118). -/
def Obligations.TillerFaults : Prop :=
  (∀ (s : State) (i cause : Nat),
    (∀ c k, (c = .sheafAbort i cause ∧ k = cause) ∨ (c = .sheafOverrun i ∧ k = 2) →
      (∀ h, s.tiller i = .running h →
        let n := match h with | .block b _ => s.homeOf b | _ => i / 16
        let glean : Bool := match h with | .glean _ => true | _ => false
        let x := s.til.putIn n (h :: s.til.queue n)
        (glean = true → Leaves c s (s.setTiller i (.test k h.ident)).settled) ∧
        (glean = false → Leaves c s
          (({ s with til := { x with aborts := satAdd 16 x.aborts 1 } } : State).setTiller i (.test k h.ident)).settled)) ∧
      ((∀ h, s.tiller i ≠ .running h) → Leaves c s s.settled))) ∧
  (∀ (s : State) (i : Nat),
    (∀ k ident, s.tiller i = .test k ident →
      Leaves (.tillerKatDone i false) s ((retireTiller s i).lasting 0x0401 i (leBytes 4 k ++ ident)).settled ∧
      (let times := recentFaults (smGet [] s.til.faultTimes i) s.tim.tick
       let t : State := { s with til := { s.til with faultTimes := smSet [] s.til.faultTimes i times } }
       (4 ≤ times.length → Leaves (.tillerKatDone i true) s ((retireTiller t i).lasting 0x0401 i (leBytes 4 4 ++ ident)).settled) ∧
       (times.length < 4 →
        let u := t.setTiller i .idle
        Leaves (.tillerKatDone i true) s
          ((({ u with til := { u.til with transient := satAdd 16 u.til.transient 1, int := u.til.int.raise 1 } } : State).transient
            0x0401 i (leBytes 4 k ++ ident)).settled)))) ∧
    (∀ pass : Bool, (∀ k ident, s.tiller i ≠ .test k ident) → Leaves (.tillerKatDone i pass) s s.settled) ∧
    retireTiller s i = evalThin (moveQueue { s with
      aos := { s.aos with tillers := addOnce s.aos.tillers i }
      til := { s.til with tillers := smSet .idle s.til.tillers i .retired, int := s.til.int.raise 0 } } (i / 16)))

/-- The winnow (05 R120 to R123). -/
def Obligations.Winnow : Prop :=
  (∀ (s : State) (b : Nat),
    let w := s.til.win b
    (∀ row sh, (w.done.find? fun d => d.r == w.nextR) = some row → s.til.shot w.nextR = some sh →
      (s.til.isCut sh b = false → Leaves (.winnowRelease b) s (release s b row).settled) ∧
      (s.til.isCut sh b = true → Leaves (.winnowRelease b) s s.settled) ∧
      Leaves (.releaseDeadline b) s s.settled) ∧
    (s.til.shot w.nextR = none → Leaves (.winnowRelease b) s s.settled ∧ Leaves (.releaseDeadline b) s s.settled) ∧
    (∀ sh, (w.done.find? fun d => d.r == w.nextR) = none → s.til.shot w.nextR = some sh →
      Leaves (.winnowRelease b) s s.settled ∧
      (sh.muted = true ∨ sh.thinned = true ∨ sh.blocks ≤ b ∨ s.til.isCut sh b = true → Leaves (.releaseDeadline b) s s.settled) ∧
      (sh.muted = false → sh.thinned = false → b < sh.blocks → s.til.isCut sh b = false →
        let t : State := s.expire (inputDone sh b + s.ttr).toNat
        let x := t.til.setWin b { w with late := sh.r :: w.late }
        Leaves (.releaseDeadline b) s
          (release { t with til := { x with late := satAdd 32 x.late 1, int := x.int.raise 4 } } b
            { r := sh.r, data := [], fl := qDegraded, placeholder := true, gap := false }).settled))) ∧
  (∀ (s : State) (r b : Nat),
    let waits := s.til.waiting.contains (r, b) || s.til.queues.any fun q => q.contains (.shot r b)
    (s.til.shot r = none → Leaves (.sheafAbandon r b) s s.settled) ∧
    (∀ sh, s.til.shot r = some sh →
      let key := tokenKey b sh.slot
      let started := s.til.held.contains key && s.til.dueShot b sh.slot == some r
      (waits = false ∨ started = true → Leaves (.sheafAbandon r b) s s.settled) ∧
      (waits = true → started = false →
        let t : State := s.expire (inputDone sh b + 2 * s.ttr).toNat
        let w := t.til.win b
        let w' := if w.late.contains r then { w with late := w.late.erase r }
          else { w with done := w.done ++ [{ r := r, data := [], fl := qDegraded, placeholder := true, gap := false }] }
        let x := t.til.setWin b w'
        Leaves (.sheafAbandon r b) s (dealMore (dropShots (({ t with
          til := { x with
            waiting := x.waiting.erase (r, b), queues := x.queues.map fun q => q.erase (.shot r b)
            gone := x.gone ++ [(r, b)]
            abandoned := satAdd 16 x.abandoned 1, int := x.int.raise 4 } } : State).askRestart (some [b]) false 0))).settled)))

/-! ### SYNC, training, the quasi-static and Raman channels -/

/-- SYNC (09 R193 to R195; 21 R461). -/
def Obligations.SyncSources : Prop :=
  (∀ s : State,
    let ignored : State := { s with dec := { s.dec with ignored := satAdd 16 s.dec.ignored 1 } }
    let member := s.conf.cascade.role ≠ 0 ∧ s.cas.joined = true
    (s.conf.dec.syncSrc ≠ 1 ∧ s.conf.dec.syncSrc ≠ 3 ∨ s.acquiring = false → Leaves .syncPadEdge s ignored) ∧
    (s.conf.dec.syncSrc = 1 ∨ s.conf.dec.syncSrc = 3 → s.acquiring = true →
      (¬ member → Leaves .syncPadEdge s (takeSync s (s.syncAfter msTicks))) ∧
      (member → s.cas.master = true → Leaves .syncPadEdge s ((takeSync s (s.syncAfter (2 * msTicks))).sendRing
        (.syncIdx (s.syncAfter (2 * msTicks))))) ∧
      (member → s.cas.master = false → Leaves .syncPadEdge s s)) ∧
    (∀ ns : Nat, takeSync s ns = { s with dec := { s.dec with
      syncPend := some ns
      replaced := if s.dec.syncPend.isSome ∧ s.dec.syncPend ≠ some ns then satAdd 16 s.dec.replaced 1 else s.dec.replaced } })) ∧
  (∀ (s : State) (h : Hdr) (x : Session), Ready s h 0x0015 1 x →
    let e := s.entered h
    let ignored : State := { e with dec := { e.dec with ignored := satAdd 16 e.dec.ignored 1 } }
    let src := e.conf.dec.syncSrc = 2 ∨ e.conf.dec.syncSrc = 3
    let follower := e.conf.cascade.role ≠ 0 ∧ e.cas.joined = true ∧ e.cas.master = false
    (¬ src → Leaves (.sync h) s (ignored.answer h.sid h.seq (plain .denied))) ∧
    (src → follower → Leaves (.sync h) s (e.answer h.sid h.seq (plain .conflict))) ∧
    (src → ¬ follower → e.acquiring = false → Leaves (.sync h) s (ignored.answer h.sid h.seq (plain .busy))) ∧
    (src → ¬ follower → e.acquiring = true → Leaves (.sync h) s
      ((chooseSync e (e.syncAfter msTicks)).answer h.sid h.seq (withData .deferred (leBytes 8 (e.syncAfter msTicks))))))

/-- RETRAIN and QS_REF (08 R179; 10 R229). -/
def Obligations.TrainingCommands : Prop :=
  ∀ (s : State) (h : Hdr) (x : Session) (blocks : List Nat),
    let e := s.entered h
    let wrong := ∃ b ∈ blocks, e.conf.probe.nblocks ≤ b
    let which := if blocks = [] then none else some blocks
    (Ready s h 0x0016 1 x →
      (wrong → Leaves (.retrain h blocks) s (e.answer h.sid h.seq (plain .invalid))) ∧
      (¬ wrong → e.acquiring = true →
        let t := e.tim.tick + 2 * msTicks
        Leaves (.retrain h blocks) s
          (({ e with coh := { e.coh with restartPend := e.coh.restartPend ++ [(which, false, t)] } } : State).answer h.sid h.seq
            (withData .deferred (leBytes 4 (e.trainEndOf (e.boundaryIdxFrom t) (e.boundaryFrom t) 0))))) ∧
      (¬ wrong → e.acquiring = false → Leaves (.retrain h blocks) s
        (e.answer h.sid h.seq (withData .deferred (leBytes 4 e.conf.phase.ntrain))))) ∧
    (Ready s h 0x0017 1 x → ∀ mode : Nat,
      (1 < mode ∨ wrong → Leaves (.qsRef h mode blocks) s (e.answer h.sid h.seq (plain .invalid))) ∧
      (mode ≤ 1 → ¬ wrong →
        let u := match e.qss.cmd with
          | some c => ({ e with qss := { e.qss with int := e.qss.int.raise 5 } } : State).setReq c.req .superseded 0
          | none => e
        let n := u.newReq
        Leaves (.qsRef h mode blocks) s (({ n.2 with qss := { n.2.qss with cmd := some {
          req := n.1, mode := mode, blocks := which, done := [], tick := n.2.tim.tick } } } : State).answer h.sid h.seq
            (withData .deferred (leBytes 4 n.1)))))

/-- BANK_SWAP (09 R202 to R204, R521). -/
def Obligations.BankSwapCommand : Prop :=
  ∀ (s : State) (h : Hdr) (x : Session), Ready s h 0x0018 1 x → ∀ target nx : Nat,
    let e := s.entered h
    let len := if nx = 0 then e.conf.dec.xfadeLen else nx
    let good := target ≤ 2 ∧ (nx = 0 ∨ (16 ≤ nx ∧ nx ≤ 4096)) ∧ (e.conf.bank target).loaded = true
    let c : Instr := .bankSwap h target nx
    let answered (u : State) (r : Response) : Prop := Leaves c s (u.answer h.sid h.seq r)
    let holds (u : State) : Prop :=
      answered { u.newReq.2 with dec := { u.newReq.2.dec with heldSwap := some { req := u.newReq.1, bank := target, len := len } } }
        (withData .deferred (reqData u.newReq.1 0))
    (¬ good → answered e (plain .invalid)) ∧
    (good → e.acquiring = true →
      (e.dec.xf = none →
        (target = e.dec.bank → answered e (plain .ok)) ∧
        (target ≠ e.dec.bank →
          let n := e.newReq
          answered { n.2 with dec := { n.2.dec with
            xf := some { req := n.1, src := n.2.dec.bank, dst := target, qx := e.swapStart, len := len, started := false }
            xfStart := e.swapStart, xfLen := len } } (withData .deferred (reqData n.1 e.swapStart)))) ∧
      (∀ y, e.dec.xf = some y →
        let u := match e.dec.swap with
          | some p => supersedeSwap { e with dec := { e.dec with swap := none } } p.req
          | none => e
        let n := u.newReq
        (target = y.dst → answered (n.2.setReq n.1 .applied y.qx) (withData .deferred (reqData n.1 y.qx))) ∧
        (target ≠ y.dst →
          answered { n.2 with dec := { n.2.dec with swap := some { req := n.1, bank := target, len := len } } }
            (withData .deferred (reqData n.1 (y.qx + y.len)))))) ∧
    (good → e.acquiring = false →
      (e.dec.heldSwap = none → target = e.bankNow → answered e (plain .ok)) ∧
      (e.dec.heldSwap = none → target ≠ e.bankNow → holds e) ∧
      (∀ p, e.dec.heldSwap = some p → holds (supersedeSwap e p.req)))

/-- Averages of the Raman channel (11 R243, R248 to R250). -/
def Obligations.RamanAverages : Prop :=
  ∀ s : State,
    (∀ corrupt : List Nat,
      let d := if s.dts.complete = [] ∧ s.dtsOver then s.dts.close s.conf else s.dts
      (s.dts.running = false ∨ d.complete = [] → Leaves (.dtsAverageEnd corrupt) s s) ∧
      (s.dts.running = true → ∀ (r : DtsRun) (l : List DtsRun), d.complete = r :: l →
        let w : State := { s with dts := { d with complete := l } }
        (r.nUsed = 0 → Leaves (.dtsAverageEnd corrupt) s { w with dts := { w.dts with empty := satAdd 16 w.dts.empty 1 } }) ∧
        (r.nUsed ≠ 0 →
          let a := dtsEvaluate w r corrupt
          let c := r.cfg
          let eighth (acc : SMap Nat) : Nat := (roundEven (8 * darkSum acc c) (r.nUsed * c.darkLen)).toNat % 65536
          let u : State := { w with dts := { w.dts with
            lnc := a.lnc, coilHeld := a.coilHeld, lastAvg := r.avg % 2 ^ 32
            tref := if a.tref.2 = 0 then -32768 else roundEven a.tref.1 a.tref.2
            bgAs := eighth r.accAs, bgSt := eighth r.accSt, readings := w.dts.readings.filter fun x => decide (r.lastG0 < x.1)
            corrupt := satAdd 16 w.dts.corrupt (corrupt.filter fun i => decide (i < c.pDts)).length
            int := (w.dts.int.raise 0).raiseIf a.coilHeld 1 } }
          let v : State := u.sendRing (.dtsTrace a.avg a.sent)
          let found := v.dts.partner.find? fun p => p.1 == a.avg
          (s.dualEnded = false → Leaves (.dtsAverageEnd corrupt) s (dtsRows u a .single)) ∧
          (s.dualEnded = true → found = none →
            Leaves (.dtsAverageEnd corrupt) s { v with dts := { v.dts with waits := v.dts.waits ++ [a] } }) ∧
          (s.dualEnded = true → ∀ p, found = some p → Leaves (.dtsAverageEnd corrupt) s
            (dtsRows { v with dts := { v.dts with partner := v.dts.partner.filter fun q => decide (a.avg < q.1) } } a (.dual p.2)))))) ∧
    (∀ (rh : RingHdr) (avg : Nat) (lnR : List (Option Int)),
      s.inRing = true → rh.crcOk = true → rh.src ≠ s.conf.cascade.rank → rh.dst = s.conf.cascade.rank →
      (s.dualEnded = false → Leaves (.dtsTrace rh avg lnR) s s) ∧
      (s.dualEnded = true → ∀ a, (s.dts.waits.find? fun a => a.avg == avg) = some a → Leaves (.dtsTrace rh avg lnR) s
        (dtsRows { s with dts := { s.dts with waits := s.dts.waits.filter fun b => b.avg != avg } } a (.dual lnR))) ∧
      (s.dualEnded = true → (s.dts.waits.find? fun a => a.avg == avg) = none →
        let next := (s.dts.complete.head?.map DtsRun.avg).getD s.dts.avg
        (avg < next → Leaves (.dtsTrace rh avg lnR) s s) ∧
        (next ≤ avg → Leaves (.dtsTrace rh avg lnR) s { s with dts := { s.dts with partner := s.dts.partner ++ [(avg, lnR)] } }))) ∧
    (s.dts.waits = [] → Leaves .dtsPartnerTimeout s s) ∧
    (∀ a l, s.dts.waits = a :: l →
      let t := dtsRows { s.expire (a.tick + secTicks) with dts := { s.dts with waits := l } } a .fallback
      Leaves .dtsPartnerTimeout s t ∧ t.dts.fallback = satAdd 16 s.dts.fallback 1 ∧ t.dts.int = s.dts.int.raise 2)

/-! ### Zones, records and raw captures -/

/-- Interval decisions and TRIG_OUT (12 R264 to R266). -/
def Obligations.ZoneDecisions : Prop :=
  ∀ s : State,
    (∀ errs : List Nat,
      let t := zoneErrors s errs
      (t.zoneDue = none → Leaves (.zoneIntervalDecision errs) s t) ∧
      (∀ (i : ZInt) (c : ZCfg), t.zoneDue = some (i, c) →
        let best (b : ZBand) : Nat := ((bandLevel i b).map fun x => x.2.1).getD 0
        Leaves (.zoneIntervalDecision errs) s
          ((zoneDecide t i c).2.foldl (fun u x => zoneTrigger u x.1 x.2.1 x.2.2 (best x.2.2)) (zoneDecide t i c).1))) ∧
    zoneErrors s [] = s ∧
    (∀ (i : ZInt) (c : ZCfg), s.zoneDue = some (i, c) ↔ s.zon.ints.head? = some i ∧ zcfgAt s.zon.cfgs i.first = some c ∧
      ∀ b < s.conf.probe.nblocks, b ∈ i.got ∨ s.shedAt i.last b = true ∨
        ∀ z ∈ zoneBands c.zones, ¬ (z.zone.start < 1024 * (b + 1) ∧ 1024 * b < z.zone.start + z.zone.len)) ∧
    (trigOut s).zon.trigouts = satAdd 32 s.zon.trigouts 1 ∧
    (trigOut s).zon.trigMerged = (if s.pads.trigOut then satAdd 16 s.zon.trigMerged 1 else s.zon.trigMerged) ∧
    (trigOut s).pads.trigOut = (!s.standbyRole || s.pads.trigOut) ∧
    Leaves .trigOutPulseEnd s { s with pads := { s.pads with trigOut := false } }

/-- Triggers and segments (13 R274 to R282). -/
def Obligations.TriggersAndSegments : Prop :=
  ∀ s : State,
    (∀ m : TdcIn,
      let e := s.tdcEdge 2 m
      (e.2.instant = none → Leaves (.trigInEdge m) s e.1) ∧
      (∀ x, e.2.instant = some x → Leaves (.trigInEdge m) s
        (trigger e.1 1 { tT := tsOf48 x, arrival := e.1.arrival, pos := e.1.conf.acq.pad.recStart, npos := e.1.conf.acq.pad.recLen,
                         seq := 0xFFFFFFFF, zone := 0xFFFF }).1)) ∧
    (∀ (n : Nat) (t : Trigger),
      let u : State := { s with acq := { s.acq with triggers := satAdd 32 s.acq.triggers 1 } }
      ((s.conf.acq.src n).en ≠ 1 ∨ (n ≠ 2 ∧ s.acq.running = false) → trigger s n t = (u, .disabled)) ∧
      ((s.conf.acq.src n).en = 1 → n = 2 ∨ s.acq.running = true → trigger s n t = takeTrigger u n t)) ∧
    (∀ (n : Nat) (t : Trigger),
      let u := closeSegment s n t.arrival
      (∀ seg, (u.acq.src n).seg = some seg → takeTrigger s n t = (rawTrigger (mergeTrigger u n seg t) n t, .merged seg.recId)) ∧
      ((u.acq.src n).seg = none →
        (∀ h, Hold.judge (u.acq.src n).hold t.arrival = some h → takeTrigger s n t = (holdOff u n h, .heldOff)) ∧
        (Hold.judge (u.acq.src n).hold t.arrival = none →
          let o := openSegment { u with acq := u.acq.setSrc n { u.acq.src n with hold := none } } n t
          takeTrigger s n t = (rawTrigger o.1 n t, o.2)))) ∧
    (∀ (n : Nat) (lost dram : List Nat),
      let t := resolveTriggers s
      ((t.acq.src n).seg = none → Leaves (.recordRowCopy n lost dram) s t) ∧
      (∀ seg, (t.acq.src n).seg = some seg →
        (seg.kT = none → Leaves (.recordRowCopy n lost dram) s t) ∧
        (∀ k, seg.kT = some k →
          (seg.n ≤ seg.rows.length → seg.done = false → Leaves (.recordRowCopy n lost dram) s t) ∧
          (seg.n ≤ seg.rows.length → ∀ e, seg.endTick = some e → seg.merges = [] →
            Leaves (.recordRowCopy n lost dram) s (finishSegment (t.expire e) n seg false)) ∧
          (seg.rows.length < seg.n → t.copyRow seg k false lost dram = none → Leaves (.recordRowCopy n lost dram) s t) ∧
          (seg.rows.length < seg.n → ∀ seg' m, t.copyRow seg k false lost dram = some (seg', m) →
            Leaves (.recordRowCopy n lost dram) s { t with mem := m, acq := t.acq.setSrc n { t.acq.src n with seg := some { seg' with
              modflags := seg'.modflags ||| t.modflags, endTick := if seg'.n ≤ seg'.rows.length then some t.tim.tick else none } } }))))

/-- Record commands (13 R274, R522; 18 R400). -/
def Obligations.RecordCommands : Prop :=
  ∀ (s : State) (h : Hdr) (x : Session),
    let e := s.entered h
    let gives (c : Instr) (u : State) (r : Response) : Prop := Leaves c s (u.answer h.sid h.seq r)
    (Ready s h 0x0020 1 x → ∀ (instant : Option Nat) (range : Option (Nat × Nat)),
      let c := e.conf.acq.cmd
      let pos := (range.getD (c.recStart, c.recLen)).1
      let npos := (range.getD (c.recStart, c.recLen)).2
      let tT := match instant with
        | none => some (e.tsAt e.arrival)
        | some w => tsOfLayout w
      (tT = none ∨ e.conf.probe.p < pos + npos ∨ npos = 0 → gives (.record h instant range) e (plain .invalid)) ∧
      (∀ t, tT = some t → pos + npos ≤ e.conf.probe.p → npos ≠ 0 →
        let o := trigger e 2 { tT := t, arrival := e.arrival, pos := pos, npos := npos, seq := 0xFFFFFFFF, zone := 0xFFFF }
        let nothing := e.acq.running = false ∧ (e.acq.ended = false ∨ e.acq.newQ = 0)
        (nothing → gives (.record h instant range) e (plain .busy)) ∧
        (¬ nothing → gives (.record h instant range) (if o.1.acq.running then o.1 else endSegment o.1 2) (withData .ok o.2.bytes)))) ∧
    (Ready s h 0x0021 0 x → ∀ first max : Nat,
      (max = 0 ∨ 36 < max → gives (.recList h first max) e (plain .invalid)) ∧
      (1 ≤ max → max ≤ 36 → gives (.recList h first max) e
        (withData .ok (((e.acq.dir.filter fun y => decide (first ≤ y.recId)).take max).flatMap fun y =>
          leBytes 4 y.recId ++ leBytes 1 y.type ++ leBytes 1 (b2n y.complete + 2 * b2n y.locked + 4 * b2n (y.sending != [])) ++
          zeros 2 ++ leBytes 8 y.length ++ leBytes 12 (tsLayout y.tTrig))))) ∧
    (∀ (id : Nat) (on : Bool) (c : Instr) (code : Nat),
      (c = .recLock h id ∧ on = true ∧ code = 0x0022) ∨ (c = .recUnlock h id ∧ on = false ∧ code = 0x0023) → Ready s h code 1 x →
        (e.acq.find id = none → gives c e (plain .invalid)) ∧
        (∀ y, e.acq.find id = some y → gives c { e with acq := { e.acq with
          dir := e.acq.dir.map fun z => if z = y then { z with locked := on } else z } } (plain .ok))) ∧
    (Ready s h 0x0024 1 x → ∀ id : Nat,
      (e.acq.find id = none → gives (.recDelete h id) e (plain .invalid)) ∧
      (∀ y, e.acq.find id = some y →
        (y.complete = false ∨ y.sending ≠ [] → gives (.recDelete h id) e (plain .busy)) ∧
        (y.complete = true → y.sending = [] → y.locked = true → gives (.recDelete h id) e (plain .denied)) ∧
        (y.complete = true → y.sending = [] → y.locked = false → gives (.recDelete h id)
          { e with acq := { e.acq with
            dir := e.acq.dir.erase y, raw := if y.type = 3 ∧ e.acq.raw.recId = id then {} else e.acq.raw } } (plain .ok)))) ∧
    (Ready s h 0x0025 1 x → ∀ n id : Nat,
      (15 < n → gives (.recSend h n id) e (plain .invalid)) ∧
      (n ≤ 15 → (e.strCfg n).stype ≠ 5 ∨ (e.strCfg n).rsend ≠ 1 → gives (.recSend h n id) e (plain .conflict)) ∧
      (n ≤ 15 → (e.strCfg n).stype = 5 → (e.strCfg n).rsend = 1 →
        (e.acq.find id = none → gives (.recSend h n id) e (plain .invalid)) ∧
        (∀ y, e.acq.find id = some y →
          gives (.recSend h n id) (e.modStream n fun z => { z with recs := z.recs ++ [id] }) (plain .deferred))))

/-- Raw captures and hold-offs (13 R282, R288, R289). -/
def Obligations.RawCapture : Prop :=
  (∀ (s : State) (h : Hdr) (x : Session),
    let e := s.entered h
    (Ready s h 0x0026 1 x → ∀ mode source tick f preF : Nat,
      let bad := 1 < mode ∨ 2 < source ∨ f = 0 ∨ rawCapacity e.conf < f ∨ (mode = 1 ∧ f ≤ preF)
      let gives (u : State) (r : Response) : Prop := Leaves (.rawArm h mode source tick f preF) s (u.answer h.sid h.seq r)
      let arms (a : Acq) : Prop := gives { e with acq := { a with
          nextId := wrapAdd 32 a.nextId 1
          raw := { st := 1, byTrigger := mode == 1, src := source, tick := tick, f := f, preF := if mode = 1 then preF else 0
                   recId := a.nextId, modflags := e.modflags, next := alignUp (if mode = 0 then max tick e.tim.tick else e.tim.tick) 4096 }
          dir := a.dir ++ [{ recId := a.nextId, type := 3, complete := false, locked := false, sending := [], length := 16400 * f
                             tTrig := 0, body := .raw }] } } (plain .ok)
      (bad → gives e (plain .invalid)) ∧
      (¬ bad → e.acq.raw.st ≠ 0 → gives e (plain .busy)) ∧
      (¬ bad → e.acq.raw.st = 0 → e.acq.dir.length < 65536 → arms e.acq) ∧
      (¬ bad → e.acq.raw.st = 0 → 65536 ≤ e.acq.dir.length →
        (e.conf.acq.fullMode ≠ 0 → gives e (plain .busy)) ∧
        (e.conf.acq.fullMode = 0 →
          (e.acq.makeRoom (storeBytes e.conf) 0 e.acq.dir.length = none → gives e (plain .busy)) ∧
          (∀ a, e.acq.makeRoom (storeBytes e.conf) 0 e.acq.dir.length = some a → arms a)))) ∧
    (Ready s h 0x0027 1 x →
      let u := flushRawRun e
      Leaves (.rawRelease h) s (({ u with acq := { u.acq with
        raw := {}, dir := u.acq.dir.filter fun y => !(y.type == 3 && y.recId == u.acq.raw.recId) } } : State).answer h.sid h.seq (plain .ok)))) ∧
  (∀ s : State,
    (∀ (frame : List Byte) (lost : Bool),
      (s.adc.running = false ∨ (s.acq.raw.st ≠ 1 ∧ s.acq.raw.st ≠ 2) → Leaves (.rawFrameWrite frame lost) s s) ∧
      (s.adc.running = true → s.acq.raw.st = 1 ∨ s.acq.raw.st = 2 →
        let t0 := s.acq.raw.next
        let o := s.mem.lose 2
        let a : State := { s.advance (t0 + 4096) with mem := o.2 }
        let b := if lost = true ∨ o.1 = true then { a with acq := { a.acq with
              rawLost := satAdd 32 a.acq.rawLost 1
              raw := { a.acq.raw with lostRun := some ((a.acq.raw.lostRun.map fun x => (x.1, x.2 + 1)).getD (t0, 1)) } } }
          else flushRawRun a
        let kept : Option (List Byte) := if lost = true ∨ o.1 = true then none else some (converterFrame b t0 frame)
        Leaves (.rawFrameWrite frame lost) s (rawUpdate b { b.acq.raw with
          next := t0 + 4096, st := if b.acq.raw.byTrigger then b.acq.raw.st else 2, frames := b.acq.raw.frames ++ [(t0, kept)] }))) ∧
    (∀ r : RawCap,
      let u := if r.byTrigger then { r with frames := keepFrames s r } else r
      let t : State := { s with acq := { s.acq with raw := u } }
      (u.st = 2 ∧ u.f ≤ u.frames.length → rawUpdate s r = rawDone t) ∧
      (¬ (u.st = 2 ∧ u.f ≤ u.frames.length) → rawUpdate s r = t)) ∧
    (∀ n : Nat,
      (∀ ms f, (s.acq.src n).hold = some (.time ms f) → Leaves (.holdOffEnd n) s { s.expire (f + ms * msTicks) with
        acq := s.acq.setSrc n { s.acq.src n with hold := none } }) ∧
      ((∀ ms f, (s.acq.src n).hold ≠ some (.time ms f)) → Leaves (.holdOffEnd n) s s)))

/-! ### The memory controller -/

/-- DRAM requests (14 R295, R302 to R305, R311). -/
def Obligations.DramRequests : Prop :=
  ∀ s : State,
    (∀ (q : DramReq) (ecc : EccResult) (fill : Nat), q.addr < s.dramUsable →
      let r : MemReq := { req := q, ecc := ecc, promoted := false }
      let n := (s.dramAt q.addr).channel
      let f := setFill { s with mem := s.mem.settle s.tim.tick } q.code fill
      let t : State := { f with mem := f.mem.modCh n fun c => { c.arrive r with lastReq := s.tim.tick } }
      Leaves (.dramRequest q ecc fill) s (grantAll (if q.code ≤ 2 ∧ nth t.mem.panic q.code false = true ∧ (nth t.mem.chans n {}).selfRef = true
        then exitSelfRef t n else t) n) ∧
      (∀ c : Channel, f.mem.chans[n]? = some c → c.queue = [] → c.waiting = [] → c.selfRef = false → s.mem.ready = true →
        f.reqReady r = true →
        ∃ v : State, exec (.dramRequest q ecc fill) s = .next v ∧
          v.mem.fill = f.mem.fill ∧ v.mem.panic = f.mem.panic ∧
          (let unit := q.addr / 64
           let old := s.unitBytes q.addr
           let whole := ∃ o d, q.write = some (o, d) ∧ 64 ≤ d.length
           let holds (l : List Byte) : Prop := (∀ i < 64, smGet 0 v.mem.data (unit * 64 + i) = nth l i 0) ∧
             ∀ a, a / 64 ≠ unit → smGet 0 v.mem.data a = smGet 0 s.mem.data a
           let good := unit ∉ s.mem.poison ∧ (ecc = .clean ∨ ∃ syn, ecc = .corrected syn)
           (∀ o d, q.write = some (o, d) → 64 ≤ d.length →
             holds d ∧ unit ∉ v.mem.poison ∧ v.mem.ce = s.mem.ce ∧ v.mem.ue = s.mem.ue) ∧
           (∀ o d, q.write = some (o, d) → d.length < 64 → good → holds (old.take o ++ d ++ old.drop (o + d.length))) ∧
           (q.write = none → v.mem.data = s.mem.data ∧ (good → v.mem.lastRead = some (q.addr, some old))) ∧
           (¬ whole →
             (unit ∉ s.mem.poison → ecc = .clean → v.mem.ce = s.mem.ce ∧ v.mem.ue = s.mem.ue) ∧
             (∀ syn, unit ∉ s.mem.poison → ecc = .corrected syn →
               v.mem.ce = satAdd 32 s.mem.ce 1 ∧ v.mem.ue = s.mem.ue ∧ v.mem.int = f.mem.int.raise 0) ∧
             (unit ∈ s.mem.poison ∨ (∃ syn, ecc = .uncorrectable syn) →
               v.mem.data = s.mem.data ∧ unit ∈ v.mem.poison ∧ v.mem.ue = satAdd 32 s.mem.ue 1 ∧
               v.mem.err.addr = q.addr ∧ v.mem.err.req = q.code ∧ (q.write = none → v.mem.lastRead = some (q.addr, none))))))) ∧
    (∀ n i : Nat, Leaves (.requestPromotion n i) s (grantAll { s with mem := s.mem.modCh n fun c => { c with
      queue := modAt c.queue i fun q => if 3 ≤ q.req.code ∧ q.req.code ≤ 5 then { q with promoted := true } else q } } n))

/-- Refresh, self-refresh and row tests (14 R306 to R313). -/
def Obligations.DramUpkeep : Prop :=
  ∀ (s : State) (n : Nat),
    let c := nth s.mem.chans n {}
    (∀ i : Nat,
      (c.selfRef = true ∨ c.mr4Due = true → Leaves (.refreshDue n i) s s) ∧
      (c.selfRef = false → c.mr4Due = false →
        let t := applyBand { s with mem := s.mem.settle s.tim.tick } n
        let d := (nth (nth t.mem.chans n {}).banks i {}).debt
        (t.mem.inPanic = true → d < 8 →
          let m := t.mem.modCh n fun c => { c with banks := modAt c.banks i fun b => { b with debt := d + 1 } }
          Leaves (.refreshDue n i) s { t with mem := { m with postponed := satAdd 32 m.postponed 1 } }) ∧
        (t.mem.inPanic = false ∨ 8 ≤ d → Leaves (.refreshDue n i) s { t with mem := t.mem.modCh n fun c => { c with
          banks := modAt c.banks i fun b => { b with repayAt := max b.repayAt (t.tim.tick + refreshTicks), openRow := none } } }))) ∧
    (∀ band : Nat,
      (c.selfRef = true → Leaves (.mr4Read n band) s s) ∧
      (c.selfRef = false →
        let t : State := { s with mem := s.mem.modCh n fun c => { c with
          newBand := if min band 2 = c.band then none else some (min band 2), mr4Due := false } }
        (2 ≤ band → c.newBand.getD c.band ≠ 2 → Leaves (.mr4Read n band) s
          (({ t with mem := { t.mem with int := t.mem.int.raise 5 } } : State).log 0x0603 0 n [])) ∧
        (band < 2 ∨ c.newBand.getD c.band = 2 → Leaves (.mr4Read n band) s t))) ∧
    (let idle := c.queue = [] ∧ c.waiting = []
     (∀ us, s.srIdle = some us → c.selfRef = false → idle → s.mem.ready = true →
       let t := s.expire (c.lastReq + 4000 * us)
       let m := t.mem.modCh n fun c => { c with selfRef := true, banks := c.banks.map fun b => { b with debt := 0, openRow := none } }
       Leaves (.selfRefreshEntry n) s { t with mem := { m with srEntries := satAdd 32 m.srEntries 1 } }) ∧
     (s.srIdle = none ∨ c.selfRef = true ∨ ¬ idle ∨ s.mem.ready = false → Leaves (.selfRefreshEntry n) s s) ∧
     (c.selfRef = true → ¬ idle ∨ s.mem.inPanic = true → Leaves (.selfRefreshExit n) s (grantAll { s with
       mem := s.mem.modCh n fun c => { c with
         selfRef := false, mr4Due := true, banks := c.banks.map fun b => { b with pred := 1, openRow := none } } } n)) ∧
     (c.selfRef = false ∨ (idle ∧ s.mem.inPanic = false) → Leaves (.selfRefreshExit n) s s)) ∧
    (∀ (bank row : Nat) (cols : List Nat),
      let found := s.mem.tests.find? fun t => t.ch == n && t.bank == bank && t.row == row
      (∀ bad : Bool, found = none → Leaves (.rowTestDone n bank row bad cols) s s) ∧
      (∀ t, found = some t →
        let units := (cols.filter fun c => decide (c < 28)).map fun c => dramSlot t.addr * 28 + c
        let o : State := { s with mem := { s.mem with tests := s.mem.tests.erase t, poison := units.foldl addOnce s.mem.poison } }
        let a : State := { o with mem := { o.mem with transient := satAdd 16 o.mem.transient 1 } }
        let e := s.mem.err
        let b : State := { o with mem := { o.mem with
          err := { e with lasting := e.lasting || (e.ch == n && e.bank == bank && e.row == row) } } }
        let data := rowData s.conf.dram t
        Leaves (.rowTestDone n bank row false cols) s (grantAll (a.transient 0x0601 n data) n) ∧
        (∀ i, freeSpare s.aos.dram = some i → Leaves (.rowTestDone n bank row true cols) s (grantAll (({ b with
          aos := { b.aos with dram := smSet none b.aos.dram i (some (s.slotOf t.addr)) }
          mem := { b.mem with int := b.mem.int.raise 2 } } : State).lasting 0x0601 n data) n)) ∧
        (freeSpare s.aos.dram = none →
          let l := b.lasting 0x0601 n data
          let x : State := { l with mem := { l.mem with spareOut := true, spareHold := true, int := l.mem.int.raise 6 } }
          Leaves (.rowTestDone n bank row true cols) s (grantAll (x.log 0x0604 2 n (leBytes 4 (x.slotOf t.addr))) n))))

/-! ### The time base and the TDC -/

/-- The time base (16 R342 to R352). -/
def Obligations.TimeReference : Prop :=
  (∀ s : State,
    (∀ c ok, (c = .refQualified ∧ ok = true) ∨ (c = .refDisqualified ∧ ok = false) →
      (s.tim.refOk = ok → Leaves c s s) ∧
      (s.tim.refOk ≠ ok → Leaves c s { s with tim := { s.tim with
        refOk := ok, int := s.tim.int.raise 0
        refSwitches := if s.conf.time.refSel ≠ 0 then satAdd 16 s.tim.refSwitches 1 else s.tim.refSwitches } })) ∧
    (∀ m : TdcIn,
      let t := (s.tdcEdge 1 m).1
      (s.conf.time.timeSrc ≠ 1 → Leaves (.ppsEdge m) s s) ∧
      (s.conf.time.timeSrc = 1 → (s.tdcEdge 1 m).2.instant = none → Leaves (.ppsEdge m) s t) ∧
      (s.conf.time.timeSrc = 1 → ∀ x, (s.tdcEdge 1 m).2.instant = some x →
        (t.tim.ppsLast = none → Leaves (.ppsEdge m) s { t with tim := { t.tim with ppsLast := some x, ppsRun := 1 } }) ∧
        (∀ a, t.tim.ppsLast = some a →
          let run := t.tim.ppsRun + 1
          let u : State := { t with tim := { t.tim with
            ppsLast := some x, ppsTick := if 3 ≤ run then some t.tim.tick else t.tim.ppsTick, ppsRun := run, ppsOk := decide (3 ≤ run) } }
          (spacingOk a x = true → 3 ≤ run → Leaves (.ppsEdge m) s (ppsSteer u x)) ∧
          (spacingOk a x = true → run < 3 → Leaves (.ppsEdge m) s { u with tim := { u.tim with label := none } }) ∧
          (spacingOk a x = false → Leaves (.ppsEdge m) s { t with tim := { t.tim with
            ppsLast := none, ppsRun := 0, ppsOk := false, ppsRejects := satAdd 16 t.tim.ppsRejects 1 } })))) ∧
    (let e := match s.tim.ppsTick with
       | some t => s.expire (t + 4000008000)
       | none => s
     let t : State := { e with tim := { e.tim with ppsOk := false, ppsRun := 0, ppsLast := none, ppsTick := none, lockRun := 0 } }
     (s.tim.st = .locked →
       let u := t.newSeg t.tim.tick (rhoMean t)
       Leaves .ppsLost s { u with tim := { u.tim with st := .holdover, pendRate := none, int := u.tim.int.raise 2 } }) ∧
     (s.tim.st ≠ .locked → Leaves .ppsLost s t)) ∧
    (s.tim.pendRate = none → Leaves .rateSegmentStart s s) ∧
    (∀ x rho, s.tim.pendRate = some (x, rho) →
      let u := s.newSeg x rho
      Leaves .rateSegmentStart s { u with tim := { u.tim with
        tick := (u.advance x).tim.tick, pendRate := none } })) ∧
  (∀ (s : State) (h : Hdr) (x : Session), Ready s h 0x0030 1 x → ∀ w : Nat,
    let e := s.entered h
    (e.conf.time.timeSrc ≠ 0 → Leaves (.timeSet h w) s (e.answer h.sid h.seq (plain .conflict))) ∧
    (e.conf.time.timeSrc = 0 → e.acquiring = true ∨ e.prb.epoch ≠ none → Leaves (.timeSet h w) s (e.answer h.sid h.seq (plain .busy))) ∧
    (e.conf.time.timeSrc = 0 → e.acquiring = false → e.prb.epoch = none → tsOfLayout w = none →
      Leaves (.timeSet h w) s (e.answer h.sid h.seq (plain .invalid))) ∧
    (e.conf.time.timeSrc = 0 → e.acquiring = false → e.prb.epoch = none → ∀ ts, tsOfLayout w = some ts →
      let u := e.stepMap (ts * 2 ^ 32) 0
      Leaves (.timeSet h w) s ((({ u with tim := { u.tim with st := .set, secMismatch := false, stepOwed := none } } :
        State).reloadRtc).answer h.sid h.seq (plain .ok))))

/-- TOD, TDC and TIA trims (16 R350 to R356; 22 R478, R483). -/
def Obligations.TodAndTdc : Prop :=
  ∀ s : State,
    (∀ (l : List Byte) (ms : Nat),
      let valid (n : Nat) := ∃ fl, todParse l = some (n, fl) ∧ 100 ≤ ms ∧ ms ≤ 900 ∧ fl % 2 = 1
      (∀ n, valid n → Leaves (.todSentence l ms) s { s with tim := { s.tim with
        label := if s.tim.label = none ∨ s.tim.label = some (some n) then some (some n) else some none } }) ∧
      ((∀ n, ¬ valid n) → Leaves (.todSentence l ms) s { s with tim := { s.tim with todRejects := satAdd 16 s.tim.todRejects 1 } })) ∧
    (s.tim.st = .free ∨ s.tim.st = .rtc → Leaves .todTxSend s s) ∧
    (s.tim.st ≠ .free → s.tim.st ≠ .rtc → Leaves .todTxSend s
      { s with pads := { s.pads with todTx := todSentenceOf (tsSec s.now + 1) s.timeGood } }) ∧
    (∀ m : TdcIn,
      let t := (s.tdcEdge 3 m).1
      let i := (s.tdcEdge 3 m).2.instant
      (i = none ∨ t.conf.cascade.role = 0 ∨ t.conf.time.tdc3Sel ≠ 1 → Leaves (.tdc3Edge m) s t) ∧
      (∀ x, i = some x → t.conf.cascade.role ≠ 0 → t.conf.time.tdc3Sel = 1 →
        let u : State := { t with cas := { t.cas with syncInst := x } }
        (t.cas.master = true → Leaves (.tdc3Edge m) s u) ∧
        (t.cas.master = false → Leaves (.tdc3Edge m) s (u.sendRing (.syncInstant x))))) ∧
    (∀ ch n1 n2 : Nat,
      let d := s.tim.tdc ch
      (s.aos.tdcs.contains ch = true → Leaves (.tdcCalDone ch n1 n2) s s) ∧
      (s.aos.tdcs.contains ch = false → calOk n1 n2 = true → Leaves (.tdcCalDone ch n1 n2) s { s with
        tim := s.tim.setTdc ch { d with n1 := n1 % 2 ^ 11, n2 := n2 % 2 ^ 11, lsb := lsbFs n1 n2, busy := false } }) ∧
      (s.aos.tdcs.contains ch = false → calOk n1 n2 = false → Leaves (.tdcCalDone ch n1 n2) s { s with
        tim := s.tim.setTdc ch { d with
          calBad := satAdd 16 d.calBad 1, busy := true, testing := some (lsbFs n1 n2, 2 * (n1 : Int) - n2) } })) ∧
    (∀ (ch : Nat) (dev : List Int),
      ((s.tim.tdc ch).testing = none → Leaves (.tdcSelfTestDone ch dev) s s) ∧
      (∀ t, (s.tim.tdc ch).testing = some t →
        ((∀ e ∈ dev, -2 ≤ e ∧ e ≤ 2) → Leaves (.tdcSelfTestDone ch dev) s (tdcTestEnd s ch true t)) ∧
        ((∃ e ∈ dev, e < -2 ∨ 2 < e) → Leaves (.tdcSelfTestDone ch dev) s (tdcTestEnd s ch false t)))) ∧
    (let ch := s.bgw.tdcNext % 4
     let u := endTask (startTask s 3 0 secTicks) 3
     let t : State := { u with bgw := { u.bgw with tdcNext := (ch + 1) % 4 } }
     let d := t.tim.tdc ch
     (∀ pass : Bool, s.coreRuns = false ∨ (s.aos.tdcs.contains ch = false ∧ s.checkFits ch = false) → Leaves (.tdcCheck pass) s s) ∧
     (∀ pass : Bool, s.coreRuns = true → s.aos.tdcs.contains ch = true →
       Leaves (.tdcCheck pass) s { s with bgw := { s.bgw with tdcNext := (ch + 1) % 4 } }) ∧
     (s.coreRuns = true → s.aos.tdcs.contains ch = false → s.checkFits ch = true →
       Leaves (.tdcCheck true) s t ∧ Leaves (.tdcCheck false) s { t with tim := t.tim.setTdc ch { d with
         calBad := satAdd 16 d.calBad 1, busy := true, testing := some (d.lsb, 2 * (d.n1 : Int) - d.n2) } })) ∧
    (∀ step : List Int,
      (s.acquiring = false ∨ s.coreRuns = false → Leaves (.tiaTrim step) s s) ∧
      (s.acquiring = true → s.coreRuns = true →
        let a := s.advance (alignUp s.tim.tick 256)
        let t := endTask (startTask a 2 a.bgw.acqFrom msTicks) 2
        Leaves (.tiaTrim step) s { t with rxf := { t.rxf with
          tiaTrim := t.rxf.tiaTrim.mapIdx fun i v => v + clampInt (-1) 1 (nth step i 0) } }))

/-! ### Housekeeping, ports, streams and GPIO -/

/-- Housekeeping and RTD (17 R363 to R378). -/
def Obligations.HousekeepingEvents : Prop :=
  ∀ s : State,
    (s.hka.running = true → s.hka.scan = [] → 
      let t := s.advance s.hka.nextScan
      Leaves .hkScanStart s { t with hka := { t.hka with
        scanTick := some t.tim.tick, scan := hkChannels (hkMask t.conf.hk.mask), first := true
        maskEff := hkMask t.conf.hk.mask, period := t.conf.hk.period
        maskNew := t.hka.maskNew || t.hka.maskEff != hkMask t.conf.hk.mask } }) ∧
    (s.hka.running = false ∨ s.hka.scan ≠ [] → Leaves .hkScanStart s s) ∧
    (∀ input : HkIn, s.hka.running = false ∨ s.hka.scan = [] → Leaves (.hkConversion input) s s) ∧
    (∀ (input : HkIn) (ch : Nat) (rest : List Nat), s.hka.running = true → s.hka.scan = ch :: rest →
      let k := match input with
        | .volts uv => min 4095 (roundEven (uv * 4096) 2500000).toNat
        | .code n => min n 4095
      let v := s.advance s.hka.convEnd
      let t : State := { v with
        hka := { v.hka with
          scan := rest, maskNew := v.hka.maskNew && !v.hka.first, first := false
          scans := if rest = [] then wrapAdd 32 v.hka.scans 1 else v.hka.scans, last := smSet none v.hka.last ch (some k) } }
      Leaves (.hkConversion input) s
        ((List.range 32).foldl (fun u n => cmpEval u n ch k v.hka.widx)
          (hkStore (if ch = 16 then loReading t k else t) (hkWord k v.hka.first v.hka.maskNew)))) ∧
    (∀ n : Nat,
      let r := s.hka.rtd n
      let a := s.hka.setRtd n { r with brk := true, brkNow := true, breaks := if r.brk then r.breaks else satAdd 16 r.breaks 1 }
      (r.cfg.en ≠ 1 → Leaves (.rtdBreak n) s s) ∧
      (r.cfg.en = 1 → Leaves (.rtdBreak n) s { s with hka := { a with int := a.int.raiseIf (!r.brk) 5 } })) ∧
    (∀ n uv na : Nat,
      let v := rtdTime s n
      let t := if 10 * na < 9 * excNa (v.hka.rtd n).cfg.exc ∨ rtdLimit ≤ uv then rtdSeeBreak v n else v
      let r := t.hka.rtd n
      let new := nth t.conf.rtd n {}
      let settle : Bool := new.en == 1 && (r.cfg.en != 1 || r.cfg.type != new.type || r.cfg.exc != new.exc)
      (r.cfg.en ≠ 1 → Leaves (.rtdConversionEnd n uv na) s
        { t with hka := t.hka.setRtd n { r with cfg := new, settling := settle || r.settling } }) ∧
      (r.cfg.en = 1 →
        let cause := rtdCause r r.brkNow uv na
        let temp := if cause = 0 then rtdTemp r.cfg.type uv na else -32768
        let restored := r.brk && cause != 1
        let a := t.hka.setRtd n { r with
          temp := temp, cause := cause, convs := wrapAdd 16 r.convs 1
          res := if na = 0 then r.res else min (2 ^ 32 - 1) (roundDiv (100000 * uv) na).toNat
          brk := r.brk && !restored, brkNow := false, settling := settle, cfg := new }
        let u : State := { t with hka := { a with int := a.int.raiseIf restored 6 } }
        (cause = 0 → u.dts.running = true → u.conf.dts.coilRtd = n → Leaves (.rtdConversionEnd n uv na) s
          { u with dts := { u.dts with readings := u.dts.readings ++ [(u.tim.tick, temp)] } }) ∧
        (cause ≠ 0 ∨ u.dts.running = false ∨ u.conf.dts.coilRtd ≠ n → Leaves (.rtdConversionEnd n uv na) s u)))

/-- Ports (15 R317 to R325). -/
def Obligations.NetworkPorts : Prop :=
  ∀ (s : State) (p : Nat),
    let able := (s.mode ≠ 0 ∨ s.pwr.phase = .golden) ∧ s.conf.net.mode p ≠ 0 ∧ p ≤ 1
    let mine (rx : RxMeta) := rx.vlan = if s.conf.net.vlanEn = 1 then some s.conf.net.vid else none
    let drop (rx : RxMeta) : State := (s.received p rx).modPort p fun x => { x with rxDropped := satAdd 32 x.rxDropped 1 }
    (able → (s.net.port p).up = false →
      let t := s.modPort p fun x => { x with up := true, arp := [], msgs := x.msgs ++ [.gratuitousArp] }
      Leaves (.linkUp p) s
        (arpEnsure (evalShed { t with net := { t.net with bothDown := false, int := t.net.int.raise 0 } }) p)) ∧
    (¬ able ∨ (s.net.port p).up = true → Leaves (.linkUp p) s s) ∧
    ((s.net.port p).up = false ∨ 1 < p → Leaves (.linkDown p) s s.settled) ∧
    ((s.net.port p).up = true → p ≤ 1 →
      let x := s.net.port p
      let of (n : Nat) (l : List Frame) : List Frame := l.filter fun f => f.stream == n
      let t := s.modPort p fun x => { x with up := false, frames := [], beats := [], msgs := [], linkDowns := satAdd 16 x.linkDowns 1 }
      let u := (List.range 16).foldl (fun (a : State × List Frame) n =>
        let o := losePart a.1 p n (of n x.frames)
        (o.1, a.2 ++ o.2)) ({ t with net := { t.net with int := t.net.int.raise 1 } }, [])
      Leaves (.linkDown p) s (releaseOwned ((List.range 16).foldl
        (fun v n => clearFull (moveFrames v p n (of n u.2) (of n x.beats)) n) (evalShed u.1))).settled) ∧
    (∀ (rx : RxMeta) (reply : Bool) (ip mac target : Nat),
      let got := s.received p rx
      let t : State := if ip = got.conf.net.ip ∧ mac ≠ got.ownMac then
        { got with net := { got.net with arpConflict := true, int := got.net.int.raise 5 } } else got
      let c := Instr.arpFrame p rx reply ip mac target
      ((s.net.port p).up = false → Leaves c s s) ∧
      ((s.net.port p).up = true → ¬ mine rx → Leaves c s (drop rx)) ∧
      ((s.net.port p).up = true → mine rx → reply = true → Leaves c s (t.modPort p fun x => { x with
        arp := x.arp.map fun e => if e.ip = ip then { e with mac := some mac, tries := 0, unresolved := false } else e })) ∧
      ((s.net.port p).up = true → mine rx → reply = false → target = t.conf.net.ip →
        Leaves c s (t.modPort p fun x => { x with msgs := x.msgs ++ [.arpReply ip mac] })) ∧
      ((s.net.port p).up = true → mine rx → reply = false → target ≠ t.conf.net.ip → Leaves c s t)) ∧
    (∀ n : Nat,
      let ip := nextHop s.conf.net (s.strCfg n)
      ((s.net.port p).entry ip = none ∨ (s.net.port p).up = false → Leaves (.arpRequestTimer p n) s s.settled) ∧
      (∀ e, (s.net.port p).entry ip = some e → (s.net.port p).up = true →
        (e.tries < 3 → Leaves (.arpRequestTimer p n) s (s.modPort p fun x => { x with
          arp := x.arp.map fun d => if d.ip = ip then { d with tries := d.tries + 1 } else d, msgs := x.msgs ++ [.arpRequest ip] }).settled) ∧
        (3 ≤ e.tries →
          let t := s.modPort p fun x => { x with
            arp := x.arp.map fun d => if d.ip = ip then { d with mac := none, tries := 0, unresolved := true } else d }
          Leaves (.arpRequestTimer p n) s (dropUnresolved { t with net := { t.net with int := t.net.int.raise 3 } } p).settled))) ∧
    (∀ (rx : RxMeta) (srcMac srcIp dst : Nat) (payload : List Byte),
      let sec := s.tim.tick / secTicks
      let c := Instr.icmpEcho p rx srcMac srcIp dst payload
      ((s.net.port p).up = false → Leaves c s s) ∧
      ((s.net.port p).up = true → dst ≠ s.conf.net.ip ∨ ¬ mine rx → Leaves c s (drop rx)) ∧
      ((s.net.port p).up = true → dst = s.conf.net.ip → mine rx → Leaves c s ((s.received p rx).modPort p fun x =>
        let cnt := if x.icmp.1 = sec then x.icmp.2 else 0
        if cnt < 100 then { x with icmp := (sec, cnt + 1), msgs := x.msgs ++ [.icmpReply srcIp srcMac payload] } else x))) ∧
    (∀ rx : RxMeta,
      ((s.net.port p).up = false → Leaves (.rxFrameDiscard p rx) s s) ∧
      ((s.net.port p).up = true → Leaves (.rxFrameDiscard p rx) s (drop rx)))

/-- Units of the streams (15 R326 to R334). -/
def Obligations.StreamUnits : Prop :=
  ∀ (s : State) (n : Nat),
    let b := unitBoundary s n
    let c := b.strCfg n
    let on (ty : Nat) := b.net.running = true ∧ (b.stream n).ending = false ∧ c.en = 1 ∧ c.stype = ty
    (¬ on 1 ∨ b.dasReady n = false → Leaves (.dasUnitForm n) s b) ∧
    (on 1 → b.dasReady n = true →
      let q := (b.stream n).nextUnit
      let fs := dasFrames b.conf c
      let parts := fs.map fun l =>
        let segs := l.map (dasSegment b c.qmode q)
        (segs.flatMap Prod.fst, orAll (segs.map Prod.snd))
      let k := ((b.gridOfQ q).map fun g => (b.til.kAt (g.newest q)).2.1).getD 0
      let ts := ((b.acq.outTs.find? fun e => e.1 == q).map Prod.snd).getD 0
      Leaves (.dasUnitForm n) s (pruneRows
        ((formFrames b n { stype := 1, unit := q, ts := ts, thinK := k, frags := fs.length, own := none, newest := (b.gridOfQ q).map fun g => g.newest q } 0 parts).modStream n
          fun x => { x with nextUnit := q + 1 }))) ∧
    (let t := if (s.stream n).part = none then b else s
     let c := t.strCfg n
     (t.net.running = false ∨ (t.stream n).ending = true → Leaves (.rowUnitForm n) s t) ∧
     (t.net.running = true → (t.stream n).ending = false →
       (c.stype = 2 ∨ c.stype = 3 →
         (c.en ≠ 1 ∨ (t.stream n).units = [] → Leaves (.rowUnitForm n) s t) ∧
         (∀ u l, c.en = 1 → (t.stream n).units = u :: l →
           (t.rowMayLeave c.stype u = true →
             Leaves (.rowUnitForm n) s (formBytes (t.modStream n fun x => { x with units := l }) n c.stype u)) ∧
           (t.rowMayLeave c.stype u = false → Leaves (.rowUnitForm n) s t))) ∧
       (c.stype = 5 →
         ((t.stream n).part.isSome → Leaves (.rowUnitForm n) s (formRecord t n)) ∧
         ((t.stream n).part = none → c.en = 1 → t.sendsRecords = true → t.suppressed n = false → Leaves (.rowUnitForm n) s (formRecord (nextRecord t n) n)) ∧
         ((t.stream n).part = none → c.en ≠ 1 ∨ t.sendsRecords = false ∨ t.suppressed n = true → Leaves (.rowUnitForm n) s t)) ∧
       (c.stype = 7 →
         (c.en = 1 → t.sendsRecords = true → t.suppressed n = false → Leaves (.rowUnitForm n) s (formRaw t n)) ∧
         (c.en ≠ 1 ∨ t.sendsRecords = false ∨ t.suppressed n = true → Leaves (.rowUnitForm n) s t)) ∧
       (c.stype ≠ 2 → c.stype ≠ 3 → c.stype ≠ 5 → c.stype ≠ 7 → Leaves (.rowUnitForm n) s t))) ∧
    (¬ on 4 → Leaves (.eventFrameForm n) s b) ∧
    (on 4 →
      let t := handEvents b (b.zon.queue.length + 1)
      let es := (t.stream n).events.take (fragCap t.conf / 64)
      (es = [] → Leaves (.eventFrameForm n) s t) ∧
      (∀ e l, es = e :: l → Leaves (.eventFrameForm n) s
        (let u := t.modStream n fun x => { x with events := x.events.drop es.length }
         formFrames u n { stype := 4, unit := e.seq, ts := u.now, thinK := u.til.k, frags := 1, own := none, newest := none } 0
           [(es.flatMap Event.bytes, 0)]))) ∧
    (let x := b.stream n
     let cnt := min x.hkUnread ((fragCap b.conf - 16) / 2)
     (¬ on 8 ∨ cnt = 0 → Leaves (.hkBatchForm n) s b) ∧
     (on 8 → cnt ≠ 0 →
       let first := b.hka.widx - x.hkUnread
       let lost := min x.hkLost 65535
       let payload := leBytes 8 first ++ leBytes 2 cnt ++ leBytes 2 lost ++ zeros 4 ++
         ((x.hkReader.slots b.hka.len).take cnt).flatMap fun i => leBytes 2 (smGet 0 b.hka.buf i)
       let r := (List.range cnt).foldl (fun r _ => { HkReader.advance r b.hka.len with unread := r.unread - 1 }) x.hkReader
       let u := b.modStream n fun x => x.setHkReader { r with lost := x.hkLost - lost }
       Leaves (.hkBatchForm n) s
         (formFrames u n { stype := 8, unit := first, ts := u.now, thinK := u.til.k, frags := 1, own := none, newest := none } 0 [(payload, 0)]))) ∧
    (s.acquiring = true → s.coreRuns = true → Leaves .telemetry s
      ((List.range 16).foldl snapshot (endTask (startTask s 6 s.bgw.acqFrom secTicks) 6))) ∧
    (s.acquiring = false ∨ s.coreRuns = false → Leaves .telemetry s s)

/-- What ports send, and the GPIOs (15 R335, R338). -/
def Obligations.StreamSending : Prop :=
  ∀ s : State,
    (∀ p : Nat,
      let x := s.net.port p
      let sends (f : Frame) (t : State) : State :=
        let d := takeDrops t f
        d.2.modPort p fun y => { y with
          beats := y.beats.filter fun g => !g.same d.1, frames := y.frames.filter fun g => !g.same d.1
          sent := some (.frame (d.2.wire d.1 ((d.2.hopMac d.1.cfg p).getD 0))), tx := wrapAdd 32 y.tx 1 }
      (x.up = false → Leaves (.frameTransmit p) s s.settled) ∧
      (∀ m l, x.up = true → x.msgs = m :: l →
        Leaves (.frameTransmit p) s (s.modPort p fun y => { y with
          msgs := l, sent := some (.msg m (if s.conf.net.vlanEn = 1 then some s.conf.net.vid else none)), tx := wrapAdd 32 y.tx 1 }).settled) ∧
      (∀ f, x.up = true → x.msgs = [] → (x.beats.find? fun f => (s.hopMac f.cfg p).isSome) = some f →
        Leaves (.frameTransmit p) s (sends f s).settled) ∧
      (x.up = true → x.msgs = [] → (x.beats.find? fun f => (s.hopMac f.cfg p).isSome) = none →
        (pickFrame (s.maySend p) (headFrames x.frames) = none → Leaves (.frameTransmit p) s s.settled) ∧
        (∀ f, pickFrame (s.maySend p) (headFrames x.frames) = some f → Leaves (.frameTransmit p) s
          (releaseOwned (clearFull (sends f (charge s f)) f.stream)).settled))) ∧
    (∀ n : Nat,
      let c := s.strCfg n
      let on := s.net.running = true ∧ c.en = 1 ∧ (s.stream n).ending = false
      (¬ on → Leaves (.heartbeatFrame n) s s.settled) ∧
      (on →
        let ending := s.endingNow && s.streamDone n
        let x := s.stream n
        let ports := (List.range 2).filter fun p => s.conf.net.path == 0 || x.port == p
        let payload := leBytes 8 x.lastUnit ++ leBytes 2 x.dropsTotal ++
          leBytes 1 (b2n x.shed + 2 * b2n (ports.any (s.unresolved c)) + 4 * b2n x.bufFull + 8 * b2n (s.suppressed n) + 16 * b2n ending) ++
          leBytes 1 s.cas.pairRole ++ leBytes 1 (b2n s.net.portA.up + 2 * b2n s.net.portB.up) ++ zeros 3
        let u : UnitInfo := { stype := 0, unit := Config.freeNat s.free % 2 ^ 64, ts := Config.freeNat (s.free + 1), thinK := s.til.k
                              frags := 1, own := none, newest := none }
        let f := takeFrame { s with free := s.free + 2 } n u 0 payload 0
        let d := dropFrames f.2 n 1
        ((f.2.outPorts n).isEmpty = true → Leaves (.heartbeatFrame n) s
          ((({ d with net := { d.net with bothDown := d.net.bothDown || (!d.net.portA.up && !d.net.portB.up) } } : State).modStream n
            fun y => { y with ending := ending }).settled)) ∧
        ((f.2.outPorts n).isEmpty = false → Leaves (.heartbeatFrame n) s
          (((enqueue f.2 n f.1 true).modStream n fun y => { y with ending := ending }).settled)))) ∧
    (∀ (n : Nat) (level : Bool),
      let one : BitVec 8 := 1#8 <<< n
      let t : State := { s with pads := { s.pads with gpioIn := if level then s.pads.gpioIn ||| one else s.pads.gpioIn &&& ~~~one } }
      let told := s.pads.gpioIn.getLsbD n ≠ level ∧ s.tim.counting = true ∧ s.pwr.configured = true ∧ nth s.conf.gpio n 0 = 1
      (8 ≤ n → Leaves (.gpioEdge n level) s s) ∧
      (n < 8 → told → Leaves (.gpioEdge n level) s { t with glb := { t.glb with int := t.glb.int.raise 2 } }) ∧
      (n < 8 → ¬ told → Leaves (.gpioEdge n level) s t)) ∧
    (s.tim.counting = true → s.hasPpsOut = true → Leaves .gpioPpsPulse s { s with pads := { s.pads with ppsOut := true } }) ∧
    (s.tim.counting = false ∨ s.hasPpsOut = false → Leaves .gpioPpsPulse s s) ∧
    Leaves .gpioPpsPulseEnd s { s with pads := { s.pads with ppsOut := false } }

/-! ### The cascade and the redundant pair -/

/-- This member takes a ring message with this header: the ring is up, the CRC is right, another member originated the message, and it is
addressed to this rank or to all (21 R450). -/
def RingTaken (s : State) (h : RingHdr) : Prop :=
  (s.conf.cascade.role ≠ 0 ∧ s.cas.link = true) ∧ h.crcOk = true ∧ h.src ≠ s.conf.cascade.rank ∧
    (h.dst = s.conf.cascade.rank ∨ h.dst = 255)

/-- The header and the message as it is forwarded, of a command that is the reception of a ring message. -/
def ringReceived (s : State) : Instr → Option (RingHdr × RingMsg)
  | .heartbeat h b => some (h, .heartbeat b)
  | .joinReq h j => some (h, .joinReq j)
  | .joinAck h => some (h, .joinAck h.dst)
  | .joinRefuse h reason => some (h, .joinRefuse h.dst reason)
  | .time h mark mt d => some (h, .time mark mt (d + s.conf.cascade.hopDly + s.fact.throughPs))
  | .slew h target ec => some (h, .slew target ec)
  | .state h st => some (h, .state st)
  | .syncIdx h ns => some (h, .syncIdx ns)
  | .amendProp h type inst body => some (h, .amendProp type inst body)
  | .amendVote h result => some (h, .amendVote result)
  | .amendCommit h period => some (h, .amendCommit period)
  | .seedBegin (some h) => some (h, .seedBegin)
  | .seedChunk h b data => some (h, .seedChunk b data)
  | .seedCommit h b => some (h, .seedCommit b)
  | .seedEnd h => some (h, .seedEnd)
  | .release h last => some (h, .release last)
  | .takeReq h => some (h, .takeReq)
  | .dtsTrace h avg lnR => some (h, .dtsTrace avg lnR)
  | .syncEdgeInstant h inst => some (h, .syncInstant inst)
  | _ => none

/-- The links of the ring and the loss of a member (21 R451 to R468; 22 R485 to R487). -/
def Obligations.RingLinksAndLosses : Prop :=
  (
  ∀ s : State,
    (∀ lanes : Nat,
      let able := s.conf.cascade.role ≠ 0 ∧ s.mode ≠ 0 ∧ s.cas.link = false ∧ lanes ≠ 0
      let good (d : Nat) : List Bool := [!s.aos.lanes.contains (2 * d), !s.aos.lanes.contains (2 * d + 1)]
      let take (l : List Bool) : List Bool := if lanes = 1 ∧ l = [true, true] then [true, false] else l
      let rx := take (good 0)
      let tx := take (good 1)
      let t : State := { s with cas := { s.cas with
        link := true, rxDir := { s.cas.rxDir with lanes := rx }, txDir := { s.cas.txDir with lanes := tx } } }
      (¬ able ∨ true ∉ rx ∨ true ∉ tx → Leaves (.dzirakLinkUp lanes) s s) ∧
      (able → true ∈ rx → true ∈ tx → s.conf.cascade.rank ≠ 0 → Leaves (.dzirakLinkUp lanes) s (sendJoin t)) ∧
      (able → true ∈ rx → true ∈ tx → s.conf.cascade.rank = 0 →
        let u := t.holdFlags
        Leaves (.dzirakLinkUp lanes) s (settleRole { u with cas := { u.cas with
          joined := true, master := true, int := u.cas.int.raise 0 } }))) ∧
    (∀ dir lane n : Nat,
      let d := s.cas.dir dir
      let out := dir ≤ 1 ∧ lane ≤ 1 ∧ 16 < n ∧ nth d.lanes lane false = true ∧ s.cas.link = true
      (out → Leaves (.laneCrcExcess dir lane n) s { s with cas := s.cas.setDir dir { d with
        lanes := modAt d.lanes lane fun _ => false, testing := modAt d.testing lane fun _ => some n } }) ∧
      (¬ out → Leaves (.laneCrcExcess dir lane n) s s)) ∧
    (∀ (dir lane : Nat) (pass : Bool),
      let d := s.cas.dir dir
      (nth d.testing lane none = none → Leaves (.laneBistDone dir lane pass) s s) ∧
      (∀ n, nth d.testing lane none = some n →
        let d := { d with testing := modAt d.testing lane fun _ => none }
        let times := recentFaults (nth d.faults lane []) s.tim.tick
        let kept := { d with faults := modAt d.faults lane fun _ => times }
        let lost (x : RingDir) : State :=
          let l := addOnce s.aos.lanes (2 * dir + lane)
          let c := s.cas.setDir dir x
          State.lasting { s with
            aos := { s.aos with lanes := l }
            cas := { c with int := c.int.raise 8, link := c.link && !(l.contains (2 * dir) && l.contains (2 * dir + 1)) } }
            0x0801 (2 * dir + lane) (leBytes 4 n)
        (pass = false → Leaves (.laneBistDone dir lane pass) s (lost d)) ∧
        (pass = true → 4 ≤ times.length → Leaves (.laneBistDone dir lane pass) s (lost kept)) ∧
        (pass = true → times.length < 4 → Leaves (.laneBistDone dir lane pass) s
          (State.transient { s with cas := s.cas.setDir dir { kept with lanes := modAt kept.lanes lane fun _ => true } }
            0x0801 (2 * dir + lane) (leBytes 4 n)))))) ∧
  (
  ∀ (s : State) (rank : Nat),
    let own := s.conf.cascade.rank
    let partner := s.isPair = true ∧ rank = s.partnerRank ∧ s.cas.partnerLost = false
    let old := nth s.cas.members rank {}
    let goes := s.conf.cascade.role ≠ 0 ∧ rank ≠ own ∧ rank < 16 ∧ s.mode ≠ 0 ∧ (old.present = true ∨ partner)
    let e := if old.present = true then s.expire (old.beat + msTicks) else s
    let t : State := { e with cas := { e.cas with
      members := modAt e.cas.members rank fun m => { m with present := false, joined := false }
      losses := satAdd 16 e.cas.losses 1, int := e.cas.int.raise 2
      lost0 := e.cas.lost0 || (rank == 0 && e.conf.cascade.role != 3) } }
    let leads : Bool := t.cas.joined &&
      !((List.range own).any fun n => (nth t.cas.members n {}).present && (nth t.cas.members n {}).joined)
    let u := if rank < own ∧ leads = true ∧ t.cas.master = false ∧ t.conf.time.timeSrc = 2 then holdTime t else t
    let v : State := { u with cas := { u.cas with master := u.cas.master || leads } }
    let w := abortSeeding v
    (¬ goes → Leaves (.memberLost rank) s s) ∧
    (goes → v.isPair = false → Leaves (.memberLost rank) s v) ∧
    (goes → v.isPair = true → Leaves (.memberLost rank) s (settleRole { w with cas := { w.cas with
      partnerLost := true, partner := false, seedAsk := []
      takeover := if w.cas.pairRole = 2 ∧ w.cas.released = none then some w.lostFrom else w.cas.takeover
      switchPending := false } })))

/-- The members of the ring (21 R450, R456, R457, R464 to R467). -/
def Obligations.RingMembers : Prop :=
  ∀ s : State,
    let ring := s.conf.cascade.role ≠ 0 ∧ s.cas.link = true
    let own := s.conf.cascade.rank
    let isolated (p : State) (reason : Nat) : State := settleRole { p with cas := { p.cas with
      joined := false, acked := false, timed := false, slewing := false, refuse := reason, excluded := p.cas.excluded || reason == 6
      refusals := satAdd 16 p.cas.refusals 1, int := p.cas.int.raise 1 } }
    (∀ (c : Instr) (h : RingHdr) (m : RingMsg), ringReceived s c = some (h, m) →
      (¬ ring → Leaves c s s) ∧
      (ring → h.crcOk = false → Leaves c s { s with cas := { s.cas with crcErr := satAdd 32 s.cas.crcErr 1 } }) ∧
      (ring → h.crcOk = true → h.src = own → Leaves c s s) ∧
      (ring → h.crcOk = true → h.src ≠ own → h.dst ≠ own → h.dst ≠ 255 → Leaves c s (s.passOn h m)) ∧
      (∃ l, s.passOn h m = { s with cas := { s.cas with tx := l } } ∧ (h.dst = own → l = s.cas.tx) ∧
        (h.dst ≠ own → ring → s.cas.tx.length < 64 →
          l = s.cas.tx ++ [{ src := h.src, dst := h.dst, hops := (h.hops + 1) % 2 ^ 8, seq := h.seq, msg := m }]))) ∧
    (¬ ring → Leaves .heartbeatSend s s.settled) ∧
    (ring →
      let t := soakCheck s
      Leaves .heartbeatSend s (settleRole (State.sendRing
        { t with pads := { t.pads with arbHb := t.eligible && t.alive && !t.cas.releaseReq } }
        (.heartbeat (State.beat { t with pads := { t.pads with arbHb := t.eligible && t.alive && !t.cas.releaseReq } })))).settled) ∧
    (∀ (h : RingHdr) (b : BeatBody), RingTaken s h →
      let p := s.passOn h (.heartbeat b)
      let c := Instr.heartbeat h b
      let own := p.conf.cascade.rank
      (b.rank = own ∨ 16 ≤ b.rank → Leaves c s p) ∧
      (b.rank ≠ own → b.rank < 16 →
        let old := nth p.cas.members b.rank {}
        let t := if p.cas.lost0 = true ∧ b.rank = 0 ∧ b.joined = true then
          ({ p.holdFlags with cas := { p.holdFlags.cas with lost0 := false } } : State) else p
        let t : State := { t with cas := { t.cas with
          members := modAt t.cas.members b.rank fun _ => { old with
            present := true, joined := b.joined, excluded := old.excluded && !b.joined, pairRole := b.pairRole
            reason := if b.joined then 0 else old.reason, hotPct := b.hotPct, fw := b.fw, eligible := b.eligible
            takebackReq := b.takebackReq, beat := p.tim.tick }
          int := t.cas.int.raiseIf (b.joined && !old.joined) 0
          master := t.cas.master && !(b.joined && decide (b.rank < own) && t.prb.epoch.isNone) } }
        (t.isPair = false → Leaves c s t) ∧
        (t.isPair = true →
          let u : State := { t with cas := { t.cas with
            partner := true, partnerLost := false, hbLost := t.cas.hbLost && !b.eligible
            released := if b.pairRole = 1 then none else t.cas.released
            int := t.cas.int.raiseIf (t.conf.pair.arbMode == 1 && own == 1 && t.cas.pairRole == 1 && b.pairRole == 1) 7 } }
          let seeds := b.joined = true ∧ b.pairRole = 2 ∧ ¬ (old.joined = true ∧ old.pairRole = 2) ∧ u.cas.pairRole = 1
          (seeds → Leaves c s (settleRole (askSeeds u))) ∧
          (¬ seeds → Leaves c s (settleRole u))))) ∧
    (∀ (h : RingHdr) (j : JoinBody), RingTaken s h →
      let p := s.passOn h (.joinReq j)
      let c := Instr.joinReq h j
      let why :=
        if j.fw ≠ p.fact.fwVersion then 1 else if j.fingerprint ≠ fingerprint p.conf then 2
        else if j.rank = 0 ∧ p.conf.cascade.rank = 0 then 3
        else if j.rank = p.conf.cascade.rank ∨ (nth p.cas.members j.rank {}).joined = true then 4
        else if j.role ≠ p.conf.cascade.role then 5 else 0
      (p.cas.master = false → Leaves c s p) ∧
      (p.cas.master = true → why = 0 → Leaves c s (p.sendRing (.joinAck j.rank))) ∧
      (p.cas.master = true → why ≠ 0 → Leaves c s (State.sendRing { p with cas := { p.cas with
        members := if j.rank = p.conf.cascade.rank then p.cas.members else modAt p.cas.members j.rank fun m =>
          if m.joined = true ∧ why ≠ 6 then m else { m with joined := false, excluded := true, reason := why }
        refusals := satAdd 16 p.cas.refusals 1, int := p.cas.int.raise 1 } } (.joinRefuse j.rank why)))) ∧
    (∀ h : RingHdr, RingTaken s h →
      let p := s.passOn h (.joinAck h.dst)
      (p.conf.cascade.rank = 0 ∨ p.cas.joined = true → Leaves (.joinAck h) s p) ∧
      (p.conf.cascade.rank ≠ 0 → p.cas.joined = false →
        Leaves (.joinAck h) s { p with cas := { p.cas with acked := true, timed := false, excluded := false, refuse := 0 } }) ∧
      (∀ reason : Nat,
        let p := s.passOn h (.joinRefuse h.dst reason)
        let mine := p.conf.cascade.rank ≠ 0 ∧ reason ≠ 0 ∧ reason ≤ 6 ∧ (p.cas.joined = true → reason = 6)
        (¬ mine → Leaves (.joinRefuse h reason) s p) ∧ (mine → Leaves (.joinRefuse h reason) s (isolated p reason)))) ∧
    (¬ ring ∨ s.cas.joined = true ∨ s.cas.refuse = 0 → Leaves .joinRetry s s) ∧
    (ring → s.cas.joined = false → s.cas.refuse ≠ 0 → Leaves .joinRetry s (sendJoin s))

/-- Time in the ring (21 R459, R477). -/
def Obligations.RingTime : Prop :=
  ∀ s : State,
    let ring := s.conf.cascade.role ≠ 0 ∧ s.cas.link = true
    let own := s.conf.cascade.rank
    (ring → s.cas.master = true → Leaves .timeSend s (s.sendRing (.time s.tim.tick s.now 0))) ∧
    (¬ ring ∨ s.cas.master = false → Leaves .timeSend s s) ∧
    (∀ (h : RingHdr) (mark mt d : Nat), RingTaken s h →
      let p := s.passOn h (s.timeOn mark mt d)
      let c := Instr.time h mark mt d
      let e : Int := (p.t48 mark : Int) - (mt * 2 ^ 32 : Nat) - ps48 d 1
      let ps := clampInt (-2147483648) 2147483647 (roundDiv (e * 1000) (2 ^ 48))
      let joining := p.cas.acked && !p.cas.joined
      let near := decide (-20000 ≤ ps ∧ ps ≤ 20000)
      let t : State := { p with cas := { p.cas with
        terr := ps, timed := p.cas.timed || (joining && near)
        slewing := (p.cas.slewing || (joining && !near)) && !decide (-1000 ≤ ps ∧ ps ≤ 1000) } }
      (p.cas.master = true → Leaves c s p) ∧
      (p.cas.master = false → t.conf.time.timeSrc = 2 → Leaves c s (timeSteer t e)) ∧
      (p.cas.master = false → t.conf.time.timeSrc ≠ 2 → Leaves c s t)) ∧
    (∀ (h : RingHdr) (target : Nat) (ec : Int), RingTaken s h →
      let p := s.passOn h (.slew target ec)
      (target = p.conf.cascade.rank → Leaves (.slew h target ec) s { p with cas := { p.cas with
        slewing := true, slewTick := p.tim.tick, slews := satAdd 16 p.cas.slews 1
        terr := clampInt (-2147483648) 2147483647 ec } }) ∧
      (target ≠ p.conf.cascade.rank → Leaves (.slew h target ec) s p)) ∧
    (∀ rank : Nat,
      let late := s.cas.slewing = true ∧ (s.cas.terr < -20000 ∨ 20000 < s.cas.terr)
      let far := s.cas.master = true ∧ 200 < (nth s.cas.members rank {}).terr
      let x := s.expire (s.cas.slewTick + secTicks)
      let y := s.expire ((nth s.cas.members rank {}).slewTick + secTicks)
      (ring → rank = own → late → Leaves (.slewTimeout rank) s (settleRole { x with cas := { x.cas with
        joined := false, acked := false, timed := false, slewing := false, refuse := 6, excluded := true
        refusals := satAdd 16 x.cas.refusals 1, int := x.cas.int.raise 1 } })) ∧
      (ring → rank ≠ own → far → Leaves (.slewTimeout rank) s (State.sendRing { y with cas := { y.cas with
        members := modAt y.cas.members rank fun m => { m with joined := false, excluded := true, reason := 6 }
        refusals := satAdd 16 y.cas.refusals 1, int := y.cas.int.raise 1 } } (.joinRefuse rank 6))) ∧
      (¬ ring ∨ rank = own ∧ ¬ late ∨ rank ≠ own ∧ ¬ far → Leaves (.slewTimeout rank) s s)) ∧
    (∀ (h : RingHdr) (inst : Nat), RingTaken s h →
      let p := s.passOn h (.syncInstant inst)
      let rank := h.src
      let c := Instr.syncEdgeInstant h inst
      let mine := p.cas.master = true ∧ rank < 16 ∧ rank ≠ p.conf.cascade.rank
      let e : Int := (inst : Int) - p.cas.syncInst
      let ps := roundDiv (e * 1000) (2 ^ 48)
      let t : State := { p with cas := { p.cas with members := modAt p.cas.members rank fun m => { m with
        terr := min (roundDiv (e.natAbs * 10 : Nat) (2 ^ 48)).toNat 65535 } } }
      (¬ mine → Leaves c s p) ∧
      (mine → -20000 ≤ ps → ps ≤ 20000 → Leaves c s t) ∧
      (mine → ps < -20000 ∨ 20000 < ps →
        let u := t.sendRing (.slew rank ps)
        Leaves c s { u with cas := { u.cas with
          slews := satAdd 16 u.cas.slews 1, members := modAt u.cas.members rank fun m => { m with slewTick := t.tim.tick } } }))

/-- State, SYNC and amendments in the ring (21 R460, R461). -/
def Obligations.RingShared : Prop :=
  ∀ s : State,
    let member (p : State) := p.cas.joined = true ∧ p.cas.master = false
    let failed (s : State) (p : Proposal) : State :=
      let r := refuseAmend { s with cas := { s.cas with proposal := none } } p.req .conflict []
      r.1.answer p.sid p.seq r.2
    (∀ (h : RingHdr) (st : StateBody), RingTaken s h →
      let p := s.passOn h (.state st)
      let t : State := { p with cas := { p.cas with stateSeen := some st, master := false } }
      let t := if t.prb.epoch = none then joinNow t else t
      let waits := t.acquiring = true ∧ t.prb.epoch = none ∧ t.prb.arm = .waitLaunch ∧ t.cas.joined = true
      (waits → Leaves (.state h st) s (settleRole (gridOnMaster (takeSchedule t st) st.ns (takeSchedule t st).prb.nextR))) ∧
      (¬ waits → Leaves (.state h st) s (settleRole t))) ∧
    (∀ (h : RingHdr) (ns : Nat), RingTaken s h →
      let t := s.passOn h (.syncIdx ns)
      (¬ member t → Leaves (.syncIdx h ns) s t) ∧
      (member t → t.acquiring = true → Leaves (.syncIdx h ns) s (takeSync t ns)) ∧
      (member t → t.acquiring = false → Leaves (.syncIdx h ns) s
        { t with dec := { t.dec with ignored := satAdd 16 t.dec.ignored 1 } })) ∧
    (∀ (h : RingHdr) (type inst : Nat) (body : List Byte), RingTaken s h →
      let p := s.passOn h (.amendProp type inst body)
      let old := if p.tim.tick ≤ p.cas.proposedTick + 2 * msTicks then p.cas.proposed else []
      let recs := (old.filter fun x => !(x.type == type && x.inst == inst)) ++ [{ type := type, inst := inst, body := body }]
      let c := Instr.amendProp h type inst body
      (¬ member p → Leaves c s p) ∧
      (member p → (∃ v, amendVerdict p (recs.map GroupRec.raw) = .valid v) →
        Leaves c s (State.sendRing { p with cas := { p.cas with proposed := recs, proposedTick := p.tim.tick } } (.amendVote 0))) ∧
      (member p → (∀ v, amendVerdict p (recs.map GroupRec.raw) ≠ .valid v) →
        Leaves c s (State.sendRing { p with cas := { p.cas with proposed := [], proposedTick := p.tim.tick } } (.amendVote 1)))) ∧
    (∀ (h : RingHdr) (result : Nat), RingTaken s h →
      let x := s.passOn h (.amendVote result)
      let c := Instr.amendVote h result
      (x.cas.proposal = none → Leaves c s x) ∧
      (∀ p, x.cas.proposal = some p →
        (h.src ∉ p.waiting → Leaves c s x) ∧
        (h.src ∈ p.waiting → result ≠ 0 → Leaves c s (failed x p)) ∧
        (h.src ∈ p.waiting → result = 0 → p.waiting.erase h.src = [] →
          let r := commitOwn { x with cas := { x.cas with proposal := none } } p.req p.recs
          Leaves c s (r.1.answer p.sid p.seq r.2)) ∧
        (h.src ∈ p.waiting → result = 0 → p.waiting.erase h.src ≠ [] → Leaves c s
          { x with cas := { x.cas with proposal := some { p with waiting := p.waiting.erase h.src } } }))) ∧
    (s.cas.proposal = none → Leaves .amendVoteTimeout s s) ∧
    (∀ p, s.cas.proposal = some p → Leaves .amendVoteTimeout s (failed (s.expire (p.tick + 2 * msTicks)) p)) ∧
    (∀ (h : RingHdr) (period : Nat), RingTaken s h →
      let p := s.passOn h (.amendCommit period)
      (p.cas.master = true ∨ p.cas.proposed = [] → Leaves (.amendCommit h period) s p) ∧
      (p.cas.master = false → p.cas.proposed ≠ [] → Leaves (.amendCommit h period) s
        (commitAmend { p with cas := { p.cas with proposed := [] } } { req := 0, recs := p.cas.proposed, period := period })))

/-- Seeding (21 R470 to R472). -/
def Obligations.PairSeeding : Prop :=
  ∀ s : State,
    let pair := s.isPair = true
    let standby := s.partnerMem.present = true ∧ s.partnerMem.joined = true ∧ s.partnerMem.pairRole = 2
    let l := (List.range s.procBlocks).filter fun b => s.cas.seedAsk.contains b
    let starts := pair ∧ s.cas.seeding = false ∧ s.cas.pairRole = 1 ∧ l ≠ [] ∧ standby ∧ s.prb.epoch.isSome = true
    (∀ h : RingHdr, RingTaken s h →
      let p := s.passOn h .seedBegin
      let begins := p.isPair = true ∧ p.cas.seeding = false ∧ p.cas.pairRole = 2
      (begins → Leaves (.seedBegin (some h)) s { p with cas := { p.cas with seeding := true } }) ∧
      (¬ begins → Leaves (.seedBegin (some h)) s p)) ∧
    (starts →
      let t := s.sendRing .seedBegin
      Leaves (.seedBegin none) s { t with cas := { t.cas with
        seeding := true, seedAsk := [], seedAcked := [], seedLeft := l, seedBuf := [], seedR0 := some (boundaryIdx s.planSegs s.nextM) } }) ∧
    (¬ starts → Leaves (.seedBegin none) s s) ∧
    (∀ b : Nat,
      (∀ r0 rest, s.cas.seedR0 = some r0 → s.cas.seedLeft = b :: rest → s.cas.seeding = true → s.cas.pairRole = 1 →
        (∀ k < s.conf.probe.slots, (∃ e ∈ s.cas.seedBuf, e.1 = tokenKey b k) ∨
          r0 + s.conf.probe.slots ≤ smGet 0 s.til.tokens (tokenKey b k)) →
        let t := s.sendRing (.seedChunk b (seedChunkBytes s b))
        let u : State := { t with cas := { t.cas with seedLeft := rest, seedBuf := t.cas.seedBuf.filter fun e => e.1 / 128 != b } }
        let v := u.sendRing .seedEnd
        (rest ≠ [] → Leaves (.seedChunkReady b) s u) ∧
        (rest = [] → Leaves (.seedChunkReady b) s { v with cas := { v.cas with
          seeding := false, seedR0 := none, seedBuf := [], seeds := satAdd 16 v.cas.seeds 1, int := v.cas.int.raise 4 } })) ∧
      (s.cas.seedR0 = none ∨ s.cas.seedLeft.head? ≠ some b ∨ s.cas.seeding = false ∨ s.cas.pairRole ≠ 1 →
        Leaves (.seedChunkReady b) s s) ∧
      (∀ (h : RingHdr) (data : List Byte), RingTaken s h →
        let p := s.passOn h (.seedChunk b data)
        let whole := p.isPair = true ∧ p.cas.pairRole = 2 ∧ b < p.procBlocks ∧ data.length = chunkLen p.fuses.order p.conf
        (whole → Leaves (.seedChunk h b data) s { p with cas := { p.cas with
          seedRx := (p.cas.seedRx.filter fun x => x.block != b) ++ [chunkOf p b data] } }) ∧
        (¬ whole → Leaves (.seedChunk h b data) s p)) ∧
      (∀ h : RingHdr, RingTaken s h →
        let p := s.passOn h (.seedCommit b)
        let active := p.isPair = true ∧ p.cas.pairRole = 1
        (active → Leaves (.seedCommit h b) s { p with cas := { p.cas with seedAcked := addOnce p.cas.seedAcked b } }) ∧
        (¬ active → Leaves (.seedCommit h b) s p))) ∧
    (∀ h : RingHdr, RingTaken s h →
      let p := s.passOn h .seedEnd
      let ends := p.isPair = true ∧ p.cas.pairRole = 2 ∧ p.cas.seeding = true
      (ends → Leaves (.seedEnd h) s { p with cas := { p.cas with
        seeding := false, seeds := satAdd 16 p.cas.seeds 1, int := p.cas.int.raise 4 } }) ∧
      (¬ ends → Leaves (.seedEnd h) s p)) ∧
    (let again := pair ∧ s.cas.pairRole = 1 ∧ standby ∧ s.conf.pair.reseedS ≠ 0
     (again → Leaves .reseedTimer s { s with cas := { s.cas with seedAsk := List.range s.procBlocks } }) ∧
     (¬ again → Leaves .reseedTimer s s))

/-- Taking and giving the role (21 R465 to R474). -/
def Obligations.PairRoles : Prop :=
  (∀ s : State,
    let pair := s.isPair = true
    (∀ (h : RingHdr) (last : Nat), RingTaken s h →
      let p := s.passOn h (.release last)
      (p.isPair = true → p.cas.pairRole ≠ 1 → Leaves (.release h last) s (settleRole { p with cas := { p.cas with
        released := some last, takeover := some (last + 1) } })) ∧
      (p.isPair = false ∨ p.cas.pairRole = 1 → Leaves (.release h last) s p)) ∧
    (∀ h : RingHdr, RingTaken s h →
      let p := s.passOn h .takeReq
      let gives := p.isPair = true ∧ p.cas.pairRole = 1 ∧ p.conf.pair.arbMode = 1
      (gives → Leaves (.takeReq h) s (settleRole { p with cas := { p.cas with switchPending := true } })) ∧
      (¬ gives → Leaves (.takeReq h) s p)) ∧
    (∀ low : Bool,
      (pair → s.conf.pair.arbMode = 0 → Leaves (.arbGrantChange low) s (settleRole { s with pads := { s.pads with granted := low } }).settled) ∧
      (¬ pair ∨ s.conf.pair.arbMode ≠ 0 → Leaves (.arbGrantChange low) s s.settled)) ∧
    (pair → s.conf.pair.arbMode = 1 → Leaves .arbHbLost s (settleRole { s with cas := { s.cas with hbLost := true } })) ∧
    (¬ pair ∨ s.conf.pair.arbMode ≠ 1 → Leaves .arbHbLost s s) ∧
    (s.cas.soaking = false ∨ s.soakable = false → Leaves .soakEnd s s) ∧
    (s.cas.soaking = true → s.soakable = true →
      let x := s.advance s.cas.soakEndTick
      let t : State := { x with cas := { x.cas with soaking := false, int := x.cas.int.raise 6 } }
      let u := t.sendRing .takeReq
      (s.conf.pair.arbMode = 1 → Leaves .soakEnd s { u with cas := { u.cas with switchPending := true } }) ∧
      (s.conf.pair.arbMode ≠ 1 → Leaves .soakEnd s { t with cas := { t.cas with takebackReq := true } }))) ∧
  (∀ (s : State) (h : Hdr) (x : Session), Ready s h 0x0071 1 x → ∀ action force : Nat,
    let e := s.entered h
    let gives (r : Result) : Prop := Leaves (.pairSwitch h action force) s (e.answer h.sid h.seq (plain r))
    let done (t : State) : Prop := Leaves (.pairSwitch h action force) s ((settleRole t).answer h.sid h.seq
      (withData .deferred (leBytes 8 (if e.prb.epoch.isSome then e.nextM else 0))))
    let own := action = 1 ∧ e.conf.pair.preferred = e.conf.cascade.rank
    let busy := e.cas.seeding = true ∨ e.cas.switchPending = true
    let fit := e.cas.pairRole = 1 ∧ e.partnerMem.present = true ∧ e.partnerMem.eligible = true ∧ (force = 0 → 100 ≤ e.partnerMem.hotPct)
    let fitOwn := e.cas.pairRole = 2 ∧ e.eligible = true ∧ (force = 0 → 100 ≤ e.hotPct)
    (2 < action ∨ 1 < force → gives .invalid) ∧
    (action ≤ 2 → force ≤ 1 →
      (e.isPair = false → gives .denied) ∧
      (e.isPair = true →
        (action = 2 → Leaves (.pairSwitch h action force) s ((({ e with cas := { e.cas with
          soaking := false, soakSkip := e.cas.soaking || e.cas.soakSkip } } : State)).answer h.sid h.seq (plain .ok))) ∧
        (action ≠ 2 →
          (busy → gives .busy) ∧
          (¬ busy → ¬ own → ¬ fit → gives .denied) ∧
          (¬ busy → ¬ own → fit → e.conf.pair.arbMode = 1 → done { e with cas := { e.cas with switchPending := true } }) ∧
          (¬ busy → ¬ own → fit → e.conf.pair.arbMode ≠ 1 → done { e with
            pads := { e.pads with arbHb := false }, cas := { e.cas with switchPending := true, releaseReq := true } }) ∧
          (¬ busy → own → ¬ fitOwn → gives .denied) ∧
          (¬ busy → own → fitOwn → done (askRole { e with cas := { e.cas with soaking := false } }))))))

/-! ### Sessions, credentials, keys and the lifecycle -/

/-- The replay window (18 R397), for every command `c` that does `f` when it executes; `a` is the state in which its datagram has
arrived. -/
def Obligations.ReplayWindow : Prop :=
  (∀ (c : Instr) (h : Hdr) (code role : Nat) (f : State → Session → State × Response),
    (∀ s, exec c s = s.done (s.command1 h code role f)) →
    ∀ (s a : State) (x : Session), s.session h.sid = some x → s.arrives h.via = some a → s.answers = true →
    let t := a.modSession h.sid fun y => { y.from h.via with lastCmd := a.tim.tick }
    let z := x.from h.via
    (h.seq = 0 → Leaves c s (t.respond z h.seq (plain .invalid))) ∧
    (h.seq ≠ 0 → h.seq + 63 < x.hMax →
      Leaves c s (State.respond { t with sec := { t.sec with stale := satAdd 16 t.sec.stale 1 } } z h.seq (plain .stale))) ∧
    (h.seq ≠ 0 → x.hMax ≤ h.seq + 63 → h.seq ≤ x.hMax → ∀ d, (x.window.find? fun d => d.seq == h.seq) = some d →
      (∀ r, d.resp = some r → Leaves c s (State.respond { t with sec := { t.sec with dup := satAdd 16 t.sec.dup 1 } } z d.seq r)) ∧
      (d.resp = none → Leaves c s (t.modSession x.sid fun y => { y with window := y.window.map fun k =>
        if k.seq = d.seq then { k with copies := k.copies + 1 } else k }))) ∧
    (h.seq ≠ 0 → x.hMax ≤ h.seq + 63 → x.hMax < h.seq ∨ (∀ d ∈ x.window, d.seq ≠ h.seq) → role ≤ x.role → s.fuses.lifecycle ≠ 3 →
      let e := s.entered h
      let y := x.entered s h
      Leaves c s ((f e y).1.answer h.sid h.seq (f e y).2) ∧ e.session h.sid = some y ∧ y.hMax = max x.hMax h.seq ∧
      { seq := h.seq, resp := none, copies := 0 } ∈ y.window ∧ (∀ d ∈ y.window, y.hMax ≤ d.seq + 63) ∧
      (∀ d ∈ x.window, y.hMax ≤ d.seq + 63 → d ∈ y.window))) ∧
  (∀ (s : State) (y : Session) (sid seq : Nat) (r : Response), s.session sid = some y →
    let n := ((y.window.find? fun d => d.seq == seq).map Cached.copies).getD 0
    s.answer sid seq r = (List.range (n + 1)).foldl (fun t _ => t.respond y seq r) (s.modSession sid fun z => { z with
      window := z.window.map fun d => if d.seq = seq then { d with resp := some r, copies := 0 } else d })) ∧
  (∀ (s t : State) (v : Via) (credId : Nat) (nh : List Byte), exec (.hello v credId nh) s = .next t →
    ∀ y ∈ t.sec.sess, y ∈ s.sec.sess ∨ (y.isOpen = false ∧ y.hMax = 0 ∧ y.window = []))

/-- Opening and closing a session (18 R383, R391 to R400). -/
def Obligations.Handshake : Prop :=
  (∀ (s : State) (v : Via),
    (portOf v.tr = none → s.arrives v = some s) ∧
    (∀ p, portOf v.tr = some p →
      let fits := v.rx.vlan = (if s.conf.net.vlanEn = 1 then some s.conf.net.vid else none) ∧ v.frag = false ∧
        v.dstIp = s.conf.net.ip ∧ v.dstUdp = s.conf.net.mgmtUdp
      ((s.net.port p).up = true → fits → s.arrives v = some (s.received p v.rx)) ∧
      ((s.net.port p).up = true → ¬ fits → s.arrives v = none ∧ Leaves (.mgmtTagFail v) s (s.discard p v.rx)) ∧
      ((s.net.port p).up = false → s.arrives v = none ∧ Leaves (.mgmtTagFail v) s s)) ∧
    (∀ a : State, s.arrives v = some a →
      (a.answers = true → Leaves (.mgmtTagFail v) s { a with sec := { a.sec with
        tagFail := satAdd 32 a.sec.tagFail 1, int := a.sec.int.raise 4 } }) ∧
      (a.answers = false → Leaves (.mgmtTagFail v) s a))) ∧
  (∀ (s : State) (v : Via) (cred : Nat) (nh : List Byte),
    let c := Instr.hello v cred nh
    let tr := v.tr
    let src := v.src
    (s.arrives v = none → Leaves c s (s.turnedAway v)) ∧
    (∀ a : State, s.arrives v = some a →
      let half := a.sec.sess.find? fun x => !x.isOpen && x.credId == cred && x.nh == nh
      let shaped := a.answers = true ∧ cred < 65536 ∧ nh.length = 32
      (¬ shaped → Leaves c s a) ∧
      (∀ x, shaped → half = some x → Leaves c s (a.sendMgmt { transport := tr, dst := src, msg := x.challenge })) ∧
      (shaped → half = none → 4 ≤ a.sec.sess.length → Leaves c s (State.sendMgmt
        { a with sec := { a.sec with busy := satAdd 16 a.sec.busy 1 } } { transport := tr, dst := src, msg := .refuse 0 .busy })) ∧
      (shaped → half = none → a.sec.sess.length < 4 →
        let loc : Bool := cred == 0 && nh == zeros 32 && tr == .spi && a.fuses.lifecycle == 0
        let slot := (a.flash.credSlot cred).filter fun i => !nth a.sec.locked i false
        let r := drawBytes a 2
        let b := drawBytes r.2 32
        let d := drawBytes b.2 16
        let sid := freeSid (a.sec.sess.map Session.sid) 5 (leNat r.1)
        let si := match slot.bind a.flash.cred with
          | some k => (k.salt, k.iter)
          | none => if loc then (d.1, Config.freeNat d.2.free % 2 ^ 32) else (d.2.decoySalt cred, decoyIter cred)
        let x : Session := {
          sid := sid, slot := freeSlot a.sec.sess, isOpen := false, role := 0, localSess := loc, transport := tr, src := src
          credId := cred, credSlot := slot, nh := nh, nd := b.1, salt := si.1, iter := si.2, hMax := 0, window := []
          lastCmd := a.tim.tick, salts := [], latches := [], group := none, kH2m := [], kM2h := [] }
        Leaves c s (State.sendMgmt { d.2 with free := d.2.free + 1, sec := { d.2.sec with sess := d.2.sec.sess ++ [x] } }
          { transport := tr, dst := src, msg := x.challenge })))) ∧
  (∀ (s : State) (v : Via) (sid : Nat) (hp : List Byte),
    let c := Instr.proof v sid hp
    (s.arrives v = none → Leaves c s (s.turnedAway v)) ∧
    (∀ a : State, s.arrives v = some a →
      let half := a.sec.sess.find? fun x => !x.isOpen && x.sid == sid
      let reply := a.sec.replies.find? fun m => m.sid == sid && m.hp == hp
      (a.answers = false → Leaves c s a) ∧
      (a.answers = true → half = none → reply = none → Leaves c s a) ∧
      (∀ m, a.answers = true → half = none → reply = some m → Leaves c s (a.sendMgmt { m.msg with transport := v.tr, dst := v.src })) ∧
      (∀ z, a.answers = true → half = some z →
        let x := z.from v
        let a := a.modSession sid fun y => y.from v
        (∀ kc, a.proofKey x = some kc → hp = hostProof x kc →
          let t := a.modSession x.sid fun y => { y with
            isOpen := true, role := a.openRole x, lastCmd := a.tim.tick
            kH2m := sessionKey x kc "KT7-SESS-H2M", kM2h := sessionKey x kc "KT7-SESS-M2H" }
          Leaves c s (State.proofReply { t with sec := { t.sec with int := t.sec.int.raise 0 } } x hp
            (.accept x.sid (deviceProof x kc) t.conf.sessionTimeout (a.openRole x) t.fact.serial))) ∧
        (a.proofKey x = none ∨ (∃ kc, a.proofKey x = some kc ∧ hp ≠ hostProof x kc) →
          let t := match x.credSlot with
            | some i => if x.localSess = true ∨ a.proofKey x = none then a else wrongProof a i
            | none => a
          Leaves c s ((State.closeSession { t with sec := { t.sec with
            hsFail := satAdd 16 t.sec.hsFail 1, int := t.sec.int.raise 2 } } x.sid).proofReply x hp (.refuse x.sid .denied)))))) ∧
  (∀ s : State,
    (s.sec.spiTx = [] → Leaves .spiResponseFetch s { s with sec := { s.sec with spiLast := none } }) ∧
    (∀ m l, s.sec.spiTx = m :: l → Leaves .spiResponseFetch s { s with sec := { s.sec with spiLast := some m, spiTx := l } }) ∧
    (∀ sid : Nat,
      (∀ x, (s.sec.sess.find? fun x => !x.isOpen && x.sid == sid) = some x →
        Leaves (.proofTimeout sid) s ((s.expire (x.lastCmd + 5 * secTicks)).closeSession sid)) ∧
      ((∀ x ∈ s.sec.sess, x.isOpen = false → x.sid ≠ sid) → Leaves (.proofTimeout sid) s s) ∧
      (s.session sid = none → Leaves (.sessionTimeout sid) s s) ∧
      (∀ x, s.session sid = some x → Leaves (.sessionTimeout sid) s
        ((s.expire (x.lastCmd + s.conf.sessionTimeout * secTicks)).closeSession sid))) ∧
    (∀ slot : Nat,
      let t := s.expire (nth s.sec.lockTicks slot 0 + 60 * secTicks)
      (nth s.sec.locked slot false = true → Leaves (.credentialLockEnd slot) s
        { t with sec := { t.sec with locked := modAt t.sec.locked slot fun _ => false } }) ∧
      (nth s.sec.locked slot false = false → Leaves (.credentialLockEnd slot) s s))) ∧
  (∀ (s : State) (h : Hdr) (x : Session), Ready s h 0x007F 0 x →
    Leaves (.close h) s (((s.entered h).answer h.sid h.seq (plain .ok)).closeSession x.sid))

/-- Credentials (18 R389, R390). -/
def Obligations.Credentials : Prop :=
  ∀ (s : State) (h : Hdr) (x : Session), Ready s h 0x0060 2 x → ∀ slot : Nat,
    let e := s.entered h
    let y := x.entered s h
    let last := (e.fuses.lifecycle = 1 ∨ e.fuses.lifecycle = 2) ∧ e.flash.admins = [slot]
    let put (c : Option Cred) : State := { e with
      flash := { e.flash with creds := modAt e.flash.creds slot fun _ => c }
      sec := { e.sec with fails := modAt e.sec.fails slot fun _ => [], locked := modAt e.sec.locked slot fun _ => false } }
    (8 ≤ slot → Leaves (.credSalt h slot) s (e.answer h.sid h.seq (plain .invalid))) ∧
    (slot < 8 →
      let d := drawBytes e 16
      Leaves (.credSalt h slot) s ((d.2.modSession x.sid fun z => { z with
        salts := (slot, d.1) :: z.salts.filter fun a => a.1 != slot }).answer h.sid h.seq (withData .ok d.1))) ∧
    (∀ (id role iter : Nat) (kc : List Byte),
      let c := Instr.credSet h slot id role iter kc
      let fits := slot < 8 ∧ 0 < id ∧ id < 65536 ∧ role ≤ 2 ∧ 10000 ≤ iter ∧ iter ≤ 10000000 ∧ kc.length = 32 ∧
        (∀ i, e.flash.credSlot id = some i → i = slot)
      let salt := y.salts.find? fun a => a.1 == slot
      (¬ fits ∨ salt = none → Leaves c s (e.answer h.sid h.seq (plain .invalid))) ∧
      (∀ a, fits → salt = some a →
        (last → role ≠ 2 → Leaves c s (e.answer h.sid h.seq (plain .denied))) ∧
        (¬ last ∨ role = 2 → Leaves c s (closeUnder slot
          ((put (some { credId := id, role := role, salt := a.2, iter := iter, kc := kc })).answer h.sid h.seq (plain .ok)))))) ∧
    (8 ≤ slot → Leaves (.credClear h slot) s (e.answer h.sid h.seq (plain .invalid))) ∧
    (slot < 8 → last → Leaves (.credClear h slot) s (e.answer h.sid h.seq (plain .denied))) ∧
    (slot < 8 → ¬ last → Leaves (.credClear h slot) s (closeUnder slot ((put none).answer h.sid h.seq (plain .ok))))

/-- Keys, lifecycle and restarts (18 R381, R382, R388; 01 R21). -/
def Obligations.KeysAndLifecycle : Prop :=
  let restarted (s : State) : State :=
    let t := s.closeAll
    { t with sec := { t.sec with restarting := true, replies := [], spiLast := none }, cas := { t.cas with proposal := none } }
  (∀ (s : State) (h : Hdr) (x : Session), Ready s h 0x0063 2 x →
    let e := s.entered h
    let lives (n : Nat) := (nth e.fuses.keys n none).isSome = true ∧ nth e.fuses.revoked n false = false
    (∀ (slot : Nat) (hash : List Byte),
      let c := Instr.keyFuse h slot hash
      let shaped := slot < 3 ∧ hash.length = 32
      let free := e.fuses.lifecycle < 2 ∧ nth e.fuses.keys slot none = none
      (¬ shaped → Leaves c s (e.answer h.sid h.seq (plain .invalid))) ∧
      (shaped → ¬ free → Leaves c s (e.answer h.sid h.seq (plain .denied))) ∧
      (shaped → free → Leaves c s (State.answer
        { e with fuses := { e.fuses with keys := modAt e.fuses.keys slot fun _ => some hash } } h.sid h.seq (plain .ok)))) ∧
    (∀ (slot signer : Nat) (pub sig : List Byte),
      let c := Instr.keyRevoke h slot signer pub sig
      let shaped := lives slot ∧ signer < 3 ∧ pub.length = 65 ∧ sig.length = 64
      let other := ∃ i < 3, i ≠ slot ∧ lives i
      let signed := signer ≠ slot ∧ lives signer ∧ nth e.fuses.keys signer none = some (sha256 pub) ∧
        ecdsaOk pub (sha256 (ascii "KT7-REVOKE" ++ leBytes 8 e.fact.serial ++ leBytes 1 slot)) sig = true
      (¬ shaped → Leaves c s (e.answer h.sid h.seq (plain .invalid))) ∧
      (shaped → ¬ other → Leaves c s (e.answer h.sid h.seq (plain .denied))) ∧
      (shaped → other → ¬ signed → Leaves c s (e.answer h.sid h.seq (plain .invalid))) ∧
      (shaped → other → signed → e.cfg.imgKey = slot → Leaves c s (e.answer h.sid h.seq (plain .conflict))) ∧
      (shaped → other → signed → e.cfg.imgKey ≠ slot → Leaves c s (State.answer
        { e with fuses := { e.fuses with revoked := modAt e.fuses.revoked slot fun _ => true } } h.sid h.seq (plain .ok)))) ∧
    (∀ target confirm : Nat,
      let c := Instr.lifecycle h target confirm
      let now := e.sec.lifePend.getD e.fuses.lifecycle
      let noPlain := ∀ i, e.cfg.image = some i → ∀ y ∈ i.streams, y.en = 1 → y.auth ≠ 0
      let may := (target = 1 ∧ now = 0 ∧ e.flash.admins ≠ [] ∧ (∃ k ∈ e.fuses.keys, k.isSome = true) ∧ noPlain) ∨
        (target = 2 ∧ now = 1 ∧ lives e.cfg.imgKey) ∨ (target = 3 ∧ now ≠ 3)
      let known := target ≤ 3 ∧ confirm = (e.fact.serial % 2 ^ 32) ^^^ 0xA5A5A5A5
      (¬ known → Leaves c s (e.answer h.sid h.seq (plain .invalid))) ∧
      (known → ¬ may → Leaves c s (e.answer h.sid h.seq (plain .denied))) ∧
      (known → may → Leaves c s (State.answer { e with sec := { e.sec with lifePend := some target } } h.sid h.seq (plain .ok)))) ∧
    Leaves (.mgmtRestart h) s (restarted (e.answer h.sid h.seq (plain .ok)))) ∧
  (∀ s : State,
    (s.sec.lifePend = none → Leaves .lifecycleFuseWrite s s) ∧
    (∀ t, s.sec.lifePend = some t →
      let u : State := { s with
        fuses := { s.fuses with lifecycle := t, debugLock := s.fuses.debugLock || t == 2 }
        sec := { s.sec with lifePend := none, int := s.sec.int.raise 6 } }
      let v := u.modOpt id
      Leaves .lifecycleFuseWrite s (restarted (stopCheck (if t = 3 then scrap v else v)))) ∧
    (s.sec.restarting = false → Leaves .mgmtResume s s) ∧
    (s.sec.restarting = true → Leaves .mgmtResume s
      (selectFirmware { s with sec := { s.sec with restarting := false }, cfg := { s.cfg with fell := false } })))

/-- Attestation and stream keys (18 R384, R385, R402, R403). -/
def Obligations.AttestAndStreamKeys : Prop :=
  (∀ (s : State) (h : Hdr) (x : Session), Ready s h 0x0050 0 x →
    let e := s.entered h
    (∀ nonce : List Byte,
      let d := drawBytes e 32
      let b := e.attestBody nonce
      (nonce.length ≠ 32 → Leaves (.attest h nonce) s (e.answer h.sid h.seq (plain .invalid))) ∧
      (nonce.length = 32 → Leaves (.attest h nonce) s (d.2.answer h.sid h.seq
        (withData .ok (b ++ ecdsaSign e.fact.devKey (sha256 b) (1 + beNat d.1 % (p256N - 1))))))) ∧
    (∀ ofs count : Nat,
      (1024 < count ∨ 65536 ≤ ofs → Leaves (.certRead h ofs count) s (e.answer h.sid h.seq (plain .invalid))) ∧
      (count ≤ 1024 → ofs < 65536 → Leaves (.certRead h ofs count) s
        (e.answer h.sid h.seq (withData .ok ((e.fact.cert.drop ofs).take count)))))) ∧
  (∀ (s : State) (h : Hdr) (x : Session), Ready s h 0x0053 1 x →
    let e := s.entered h
    (∀ stream epoch : Nat,
      (∀ k, e.ksmOf epoch = some k → stream < 16 → Leaves (.streamKey h stream epoch) s
        (e.answer h.sid h.seq (withData .ok (streamKeyOf k e.fact.serial stream epoch)))) ∧
      (e.ksmOf epoch = none ∨ 16 ≤ stream → Leaves (.streamKey h stream epoch) s (e.answer h.sid h.seq (plain .invalid)))) ∧
    (e.acquiring = false ∨ e.sec.rekeyPend = true → Leaves (.streamRekey h) s (e.answer h.sid h.seq (plain .busy))) ∧
    (e.acquiring = true → e.sec.rekeyPend = false →
      let n := (e.sec.kepoch + 1) % 256
      let d := drawBytes e 32
      let t : State := if n = 0 then { d.2 with sec := { d.2.sec with ksmPend := some d.1, rekeyPend := true } }
        else { e with sec := { e.sec with rekeyPend := true } }
      Leaves (.streamRekey h) s (((List.range 16).foldl (fun u n => if (u.strCfg n).en = 1 then u else moveEpoch u n) t).answer h.sid h.seq
        (withData .deferred (leBytes 1 n)))))

/-! ### Amendments, activation and background work -/

/-- AMEND and AMEND_STATUS (19 R420 to R423; 18 R401; 21 R461). -/
def Obligations.AmendCommand : Prop :=
  (∀ (s : State) (h : Hdr) (x : Session), Ready s h 0x0003 1 x → ∀ (type inst : Nat) (more : Bool) (group : Nat) (body : List Byte),
    let e := s.entered h
    let c := Instr.amend h type inst more group body
    let starts (req : Nat) (t : State) (parts : List GroupRec) : Prop :=
      (x.group = none ∧ group = 0 ∧ body.length ≤ 2 ^ 20 ∧ (req, t) = e.newReq ∧ parts = []) ∨
      (∃ g, x.group = some g ∧ group = g.req ∧ req = g.req ∧ t = e ∧ parts = g.parts)
    ((x.group = none ∧ (group ≠ 0 ∨ 2 ^ 20 < body.length)) ∨ (∃ g, x.group = some g ∧ group ≠ g.req) →
      Leaves c s (e.answer h.sid h.seq (plain .invalid))) ∧
    (∀ (req : Nat) (t : State) (parts : List GroupRec), starts req t parts →
      let recs := addPart parts type inst body
      let raw := recs.map GroupRec.raw
      let u := t.modSession x.sid fun y => { y with group := none }
      let no (r : Result) (d : List Byte) : Prop :=
        Leaves c s ((State.setReq { u with cfg := { u.cfg with refused := satAdd 16 u.cfg.refused 1, int := u.cfg.int.raise 5 } }
          req .refused 0).answer h.sid h.seq (withData r (leBytes 4 req ++ d)))
      (fitsGroup parts type body = false → Leaves c s (t.answer h.sid h.seq (plain .invalid))) ∧
      (fitsGroup parts type body = true → more = true → Leaves c s
        ((t.modSession x.sid fun y => { y with group := some { req := req, parts := recs } }).answer h.sid h.seq
          (withData .ok (reqData req 0)))) ∧
      (fitsGroup parts type body = true → more = false →
        (u.cfg.activeSlot = 2 → no .denied []) ∧
        (u.cfg.activeSlot ≠ 2 → u.mode = 0 → no .busy []) ∧
        (u.cfg.activeSlot ≠ 2 → u.mode ≠ 0 →
          (∀ r d, amendVerdict u raw = .refuse r d → no r d) ∧
          (∀ v, amendVerdict u raw = .valid v →
            let shared := u.conf.cascade.role ≠ 0 ∧ fingerBytes v ≠ fingerBytes (u.pendConf true) ∧ u.cas.joined = true
            let sent := recs.foldl (fun w g => w.sendRing (.amendProp g.type g.inst g.body)) u
            (shared → u.cas.master = false → no .conflict []) ∧
            (shared → u.cas.master = true → u.cas.proposal ≠ none → no .busy []) ∧
            (shared → u.cas.master = true → u.cas.proposal = none → sent.joinedRanks = [] →
              let r := commitOwn sent req recs
              Leaves c s (r.1.answer h.sid h.seq r.2)) ∧
            (shared → u.cas.master = true → u.cas.proposal = none → sent.joinedRanks ≠ [] →
              Leaves c s { sent with cas := { sent.cas with proposal := some {
                req := req, tick := sent.tim.tick, sid := x.sid, seq := h.seq, recs := recs, waiting := recs.flatMap fun _ => sent.joinedRanks } } }) ∧
            (¬ shared →
              let a := acceptGroup u req v raw
              Leaves c s ((rejoin a.1).answer h.sid h.seq (withData (if a.2.1 then .deferred else .ok) (reqData req a.2.2))))))))) ∧
  (∀ (s : State) (h : Hdr) (x : Session), Ready s h 0x0004 0 x → ∀ id : Nat,
    let e := s.entered h
    (∀ q, (e.sec.reqs.find? fun q => q.id == id) = some q →
      Leaves (.amendStatus h id) s (e.answer h.sid h.seq (withData .ok (leBytes 1 q.state.code ++ leBytes 8 q.index)))) ∧
    ((e.sec.reqs.find? fun q => q.id == id) = none →
      Leaves (.amendStatus h id) s (e.answer h.sid h.seq (withData .ok (leBytes 1 4 ++ leBytes 8 0)))))

/-- ACTIVATE (19 R417, R419; 18 R386; 21 R475). -/
def Obligations.Activation : Prop :=
  ∀ (s : State) (h : Hdr) (x : Session), Ready s h 0x0043 2 x → ∀ mode : Nat,
    let e := s.entered h
    let c := Instr.activate h mode
    let later (t : State) : State := activateCheck (if t.cfg.actSwitch then settleRole t else t)
    let gives (r : Result) : Prop := Leaves c s (later (e.answer h.sid h.seq (plain r)))
    let n := e.cfg.stageTarget
    (2 < mode ∨ e.cfg.stage ≠ .checked → gives .invalid) ∧
    (mode ≤ 2 → e.cfg.stage = .checked →
      (n < 2 →
        (∀ err, validate e.vctx (e.flash.img n) = .error err → gives .invalid) ∧
        (∀ v, validate e.vctx (e.flash.img n) = .ok v →
          let put (t : State) : State :=
            let o := optionsOf v.head.recs
            let t := t.modOpt fun b => { b with
              boot := { slot := n, trial := true, tries := 0 }, wakePolicy := o.1, overlay := o.2.1, wakeS := o.2.2 }
            { t with cfg := { t.cfg with stage := .none, staged := [] } }
          let reset : Prop := Leaves c s (activateReset ((dropPending (put e)).answer h.sid h.seq (plain .ok)))
          let same := e.isPair = true ∧ v.conf.cascade.role = 3 ∧ fingerprint v.conf = fingerprint e.conf
          (mode = 0 → reset) ∧
          (mode = 1 → Leaves c s (later (State.answer { put e with cfg := { (put e).cfg with actNext := true } } h.sid h.seq (plain .ok)))) ∧
          (mode = 2 → ¬ same → gives .conflict) ∧
          (mode = 2 → same → e.cas.pairRole ≠ 1 → reset) ∧
          (mode = 2 → same → e.cas.pairRole = 1 →
            (∀ r, switchAway e 0 = .error r → gives r) ∧
            (∀ t, switchAway e 0 = .ok t →
              let u := dropPending (put t)
              Leaves c s (later (State.answer { u with cfg := { u.cfg with actSwitch := true } } h.sid h.seq (plain .ok))))))) ∧
      (2 ≤ n → mode = 2 → gives .conflict) ∧
      (2 ≤ n → mode ≠ 2 →
        let t := e.modOpt fun b => { b with fw := { slot := n - 2, trial := true, tries := 0 } }
        Leaves c s (mgmtRestart (State.answer { t with
          cfg := { t.cfg with stage := .none, staged := [] }
          fuses := { t.fuses with svnMin := max t.fuses.svnMin (Config.fwSvn (e.flash.fw (n - 2))) } } h.sid h.seq (plain .ok)))))

/-- Background work (22 R478 to R490). -/
def Obligations.BackgroundWork : Prop :=
  ∀ s : State,
    let runs := s.tim.counting = true ∧ s.sec.restarting = false
    (∀ (bank row word : Nat) (ecc : EccResult),
      let new := (bank = 0 ∧ row = 0 ∧ word = 0) ∨ s.bgw.sramPos = 0
      let a := startTask s 0 0 (20 * secTicks)
      let t : State := if new then { a with bgw := { a.bgw with
          sramPasses := if a.bgw.sramPos = 0 then a.bgw.sramPasses else wrapAdd 32 a.bgw.sramPasses 1, sramPos := 1 } }
        else { s with bgw := { s.bgw with sramPos := s.bgw.sramPos + 1 } }
      let tested (u : State) (syn : Nat) : State :=
        if u.bgw.sramTests.any fun x => x.bank == bank && x.row == row then u
        else { u with bgw := { u.bgw with sramTests := u.bgw.sramTests ++ [{ bank := bank, row := row, syndrome := syn, requester := 6 }] } }
      (¬ runs → Leaves (.sramScrub bank row word ecc) s s) ∧
      (runs →
        Leaves (.sramScrub bank row word .clean) s t ∧
        (∀ syn, Leaves (.sramScrub bank row word (.corrected syn)) s
          (tested { t with bgw := { t.bgw with sramCe := satAdd 32 t.bgw.sramCe 1 } } syn)) ∧
        (∀ syn,
          let u := tested { t with bgw := { t.bgw with sramUe := satAdd 16 t.bgw.sramUe 1 } } syn
          Leaves (.sramScrub bank row word (.uncorrectable syn)) s
            (match if 64 ≤ bank then none else u.blockOfByte (2 ^ 20 * bank + 1024 * row + 8 * word) with
             | some b => u.askRestart (some [b]) false 0
             | none => u)))) ∧
    (∀ ecc : EccResult,
      let t := if s.bgw.dramPos = 0 ∧ s.bgw.dramSkipped = [] then startTask s 1 s.bgw.acqFrom (8 * 3600 * secTicks) else s
      let p := t.bgw.dramPos
      let u : State := { t with bgw := { t.bgw with dramPos := p + 8 } }
      (¬ runs ∨ s.mapEnd = 0 → Leaves (.dramScrub ecc) s s) ∧
      (runs → s.mapEnd ≠ 0 →
        (∀ q, (t.bgw.dramSkipped.find? fun q => !t.asleepAt q) = some q → Leaves (.dramScrub ecc) s (scrubPass
          (dramArrive { t with bgw := { t.bgw with dramSkipped := t.bgw.dramSkipped.erase q } } { addr := q, code := 6, write := none }
            ecc 0))) ∧
        ((t.bgw.dramSkipped.find? fun q => !t.asleepAt q) = none →
          (t.mapEnd ≤ p → Leaves (.dramScrub ecc) s t) ∧
          (p < t.mapEnd → t.asleepAt p = true → Leaves (.dramScrub ecc) s
            (scrubPass { u with bgw := { u.bgw with dramSkipped := u.bgw.dramSkipped ++ [p] } })) ∧
          (p < t.mapEnd → t.asleepAt p = false → Leaves (.dramScrub ecc) s
            (scrubPass (dramArrive u { addr := p, code := 6, write := none } ecc 0)))))) ∧
    (∀ (bank row : Nat),
      let r := s.sramTestOf bank row
      let t := r.2.lasting 0x0501 bank r.1.data
      let few := (t.aos.sram.filter fun e => e.1 == bank).length < 4
      Leaves (.sramRowTestDone bank row false) s (r.2.transient 0x0501 bank r.1.data) ∧
      (64 ≤ bank → Leaves (.sramRowTestDone bank row true) s t) ∧
      (bank < 64 → few → Leaves (.sramRowTestDone bank row true) s { t with aos := { t.aos with sram := t.aos.sram ++ [(bank, row)] } }) ∧
      (bank < 64 → ¬ few → Leaves (.sramRowTestDone bank row true) s (State.log { t with
        aos := { t.aos with sramSpareOut := true }, bgw := { t.bgw with int := t.bgw.int.raise 5 } } 0x0502 2 bank (leBytes 4 row)))) ∧
    (¬ runs → Leaves .flash s s) ∧
    (runs →
      let t := refillBucket (endTask (startTask s 5 0 (secTicks / 4)) 5)
      let n := min t.bgw.bucket t.bgw.queue.length
      let u := (t.bgw.queue.take n).foldl writeEntry
        { t with bgw := { t.bgw with queue := t.bgw.queue.drop n, bucket := t.bgw.bucket - n } }
      (u.bgw.dropped = none ∨ 256 ≤ u.bgw.queue.length → Leaves .flash s u) ∧
      (∀ count first, u.bgw.dropped = some (count, first) → u.bgw.queue.length < 256 →
        Leaves .flash s (State.logNew { u with bgw := { u.bgw with dropped := none } } 0x0B01 0 0 (leBytes 4 count ++ leBytes 4 first))))

/-- NORM and NORM16 (06 R143). -/
def Obligations.NormRule : Prop :=
  (∀ a : Int, -2 ^ 47 ≤ a → a < 2 ^ 47 →
    norm48 a ≤ 47 ∧ -2 ^ (47 - norm48 a) ≤ a ∧ a ≤ 2 ^ (47 - norm48 a) - 1 ∧
    (∀ n : Nat, norm48 a < n → n ≤ 47 → ¬ (-2 ^ (47 - n) ≤ a ∧ a ≤ 2 ^ (47 - n) - 1)) ∧
    (∀ n : Nat, n < 47 → (47 - norm48 a ≤ n ↔ ∀ k : Nat, n ≤ k → k < 47 → (BitVec.ofInt 48 a).getLsbD k = (BitVec.ofInt 48 a).msb))) ∧
  norm48 0 = 47 ∧ norm48 (-1) = 47 ∧
  (∀ v : Int, -2 ^ 15 ≤ v → v < 2 ^ 15 → (norm16 v : Int) = (norm48 v : Int) - 32 ∧ norm16 v ≤ 15)
end

