-- ==== Sys2Proof/Laws/Table.lean ====
section
/-! SUPPORT. Sparse tables: what a write leaves to be read, and that every operation keeps the canonical form; the DRAM contents built on
them. -/

namespace Sys2Proof.Machine

/-! ### Reading after a write -/

theorem smGet_smErase {α : Type} (d : α) (m : SMap α) (k j : Nat) : smGet d (smErase m k) j = if j = k then d else smGet d m j := by
  induction m with
  | nil => simp [smErase, smGet]
  | cons e m ih =>
    obtain ⟨a, v⟩ := e
    by_cases h : a = k
    · rw [smErase, if_pos h, ih, smGet, h]
      split
      · rfl
      · rw [if_neg (by rintro rfl; contradiction)]
    · rw [smErase, if_neg h, smGet, ih, smGet]
      split
      · rename_i h1; rw [if_neg (by rintro rfl; exact h h1)]
      · rfl

theorem smGet_smInsert {α : Type} (d : α) (m : SMap α) (k : Nat) (v : α) (hk : smGet d m k = d) (j : Nat)
    (hl : ∀ e ∈ m, e.1 ≠ k) : smGet d (smInsert m k v) j = if j = k then v else smGet d m j := by
  induction m with
  | nil =>
    by_cases h : j = k
    · simp [smInsert, smGet, h]
    · simp [smInsert, smGet, h, Ne.symm h]
  | cons e m ih =>
    obtain ⟨a, w⟩ := e
    have ha : a ≠ k := hl (a, w) (by simp)
    have hk' : smGet d m k = d := by rw [smGet, if_neg ha] at hk; exact hk
    rw [smInsert]
    split
    · rw [smGet]
      by_cases h : k = j
      · simp [h]
      · rw [if_neg h, if_neg (fun e => h e.symm)]
    · rw [smGet, ih hk' (fun e he => hl e (by simp [he])), smGet]
      by_cases h : a = j
      · rw [if_pos h, if_neg (fun e => ha (h.trans e))]
        simp [h]
      · simp [h]

theorem not_mem_smErase {α : Type} (m : SMap α) (k : Nat) : ∀ e ∈ smErase m k, e.1 ≠ k := by
  induction m with
  | nil => simp [smErase]
  | cons e m ih =>
    obtain ⟨a, v⟩ := e
    rw [smErase]
    split
    · exact ih
    · rename_i h
      intro e he
      rcases List.mem_cons.mp he with rfl | he
      · exact h
      · exact ih e he

/-- A key written reads as what was written; every other key as before. -/
theorem smGet_smSet {α : Type} [DecidableEq α] (d : α) (m : SMap α) (k : Nat) (v : α) (j : Nat) :
    smGet d (smSet d m k v) j = if j = k then v else smGet d m j := by
  rw [smSet]
  split
  · rename_i h; rw [smGet_smErase, h]
  · rw [smGet_smInsert d _ k v (by rw [smGet_smErase, if_pos rfl]) j (not_mem_smErase m k), smGet_smErase]
    split <;> rfl

/-! ### The canonical form -/

theorem smWf_iff {α : Type} [DecidableEq α] (d : α) (m : SMap α) :
    smWf d m = true ↔ m.Pairwise (fun a b => a.1 < b.1) ∧ ∀ e ∈ m, e.2 ≠ d := by
  rw [smWf, Bool.and_eq_true, decide_eq_true_iff, List.pairwise_map, List.all_eq_true]
  simp only [decide_eq_true_iff]

theorem smErase_sub {α : Type} (m : SMap α) (k : Nat) : (smErase m k).Sublist m := by
  induction m with
  | nil => exact List.Sublist.refl _
  | cons e m ih =>
    obtain ⟨a, v⟩ := e
    rw [smErase]
    split
    · exact ih.cons _
    · exact ih.cons_cons _

theorem mem_smInsert {α : Type} (m : SMap α) (k : Nat) (v : α) (e : Nat × α) (h : e ∈ smInsert m k v) : e = (k, v) ∨ e ∈ m := by
  induction m with
  | nil => simp [smInsert] at h; exact .inl h
  | cons a m ih =>
    rw [smInsert] at h
    split at h
    · rcases List.mem_cons.mp h with h | h
      · exact .inl h
      · exact .inr h
    · rcases List.mem_cons.mp h with h | h
      · exact .inr (by simp [h])
      · rcases ih h with h | h
        · exact .inl h
        · exact .inr (by simp [h])

theorem pairwise_smInsert {α : Type} (m : SMap α) (k : Nat) (v : α) (hm : m.Pairwise (fun a b => a.1 < b.1)) (hk : ∀ e ∈ m, e.1 ≠ k) :
    (smInsert m k v).Pairwise (fun a b => a.1 < b.1) := by
  induction m with
  | nil => simp [smInsert]
  | cons a m ih =>
    rw [List.pairwise_cons] at hm
    rw [smInsert]
    split
    · rename_i h
      rw [List.pairwise_cons]
      refine ⟨?_, List.pairwise_cons.mpr hm⟩
      intro b hb
      rcases List.mem_cons.mp hb with rfl | hb
      · exact h
      · exact Nat.lt_trans h (hm.1 b hb)
    · rename_i h
      rw [List.pairwise_cons]
      refine ⟨?_, ih hm.2 (fun e he => hk e (by simp [he]))⟩
      intro b hb
      have := hk a (by simp)
      rcases mem_smInsert m k v b hb with rfl | hb
      · dsimp only at *; omega
      · exact hm.1 b hb

/-- A write keeps the canonical form. -/
theorem smSet_wf {α : Type} [DecidableEq α] (d : α) (m : SMap α) (k : Nat) (v : α) (h : smWf d m = true) : smWf d (smSet d m k v) = true := by
  rw [smWf_iff] at h ⊢
  have hp := h.1.sublist (smErase_sub m k)
  have hd : ∀ e ∈ smErase m k, e.2 ≠ d := fun e he => h.2 e ((smErase_sub m k).subset he)
  rw [smSet]
  split
  · exact ⟨hp, hd⟩
  · rename_i hv
    refine ⟨pairwise_smInsert _ _ _ hp (not_mem_smErase m k), ?_⟩
    intro e he
    rcases mem_smInsert _ _ _ _ he with rfl | he
    · exact hv
    · exact hd e he

/-- Several writes keep the canonical form. -/
theorem smSetAll_wf {α : Type} [DecidableEq α] (d : α) (l : List (Nat × α)) (m : SMap α) (h : smWf d m = true) :
    smWf d (smSetAll d m l) = true := by
  rw [smSetAll]
  induction l generalizing m with
  | nil => exact h
  | cons e l ih => exact ih _ (smSet_wf d m e.1 e.2 h)

/-- Dropping keys keeps the canonical form. -/
theorem smDrop_wf {α : Type} [DecidableEq α] (d : α) (m : SMap α) (p : Nat → Bool) (h : smWf d m = true) : smWf d (smDrop m p) = true := by
  rw [smWf_iff] at h ⊢
  exact ⟨h.1.sublist List.filter_sublist, fun e he => h.2 e (List.mem_of_mem_filter he)⟩

/-! ### DRAM contents -/

/-- The empty DRAM is in canonical form. -/
theorem Memory.wf_empty : Memory.wf [] = true := by decide

/-- A unit written keeps the canonical form. -/
theorem writeUnit_wf (m : SMap Byte) (a : Nat) (l : List Byte) (h : Memory.wf m = true) : Memory.wf (writeUnit m a l) = true :=
  smSetAll_wf 0 _ m h

theorem smGet_setRange (m : SMap Byte) (b : Nat) (l : List Byte) (n j : Nat) :
    smGet 0 (smSetAll 0 m ((List.range n).map fun i => (b + i, nth l i 0))) j =
      if b ≤ j ∧ j < b + n then nth l (j - b) 0 else smGet 0 m j := by
  induction n with
  | zero => simp [smSetAll]
  | succ n ih =>
    unfold smSetAll at ih ⊢
    rw [List.range_succ, List.map_append, List.foldl_append, List.map_cons, List.map_nil, List.foldl_cons, List.foldl_nil, smGet_smSet, ih]
    by_cases h : j = b + n
    · subst h; simp
    · rw [if_neg h]
      by_cases h2 : b ≤ j ∧ j < b + n
      · rw [if_pos h2, if_pos (by omega)]
      · rw [if_neg h2, if_neg (by omega)]

/-- A unit written reads as its 64 bytes. -/
theorem readUnit_writeUnit (m : SMap Byte) (a : Nat) (l : List Byte) (h : l.length = 64) : readUnit (writeUnit m a l) a = l := by
  unfold readUnit writeUnit
  apply List.ext_getElem
  · simp [h]
  · intro i h1 h2
    have h1 : i < 64 := by simpa using h1
    simp only [List.getElem_map, List.getElem_range]
    rw [smGet_setRange, if_pos (by omega), Nat.add_sub_cancel_left, nth, List.getElem?_eq_getElem h2]
    rfl

/-- A byte outside the unit written reads as before. -/
theorem smGet_writeUnit (m : SMap Byte) (a : Nat) (l : List Byte) (j : Nat) (h : j / 64 ≠ a / 64) :
    smGet 0 (writeUnit m a l) j = smGet 0 m j := by
  unfold writeUnit
  rw [smGet_setRange, if_neg (by omega)]

end Sys2Proof.Machine
end

