-- ==== Sys2Proof/Laws/Guard.lean ====
section
/-! SUPPORT. The part of the state the laser-chain and fuse rules speak of (`State.guard`), and what it means that an operation keeps them
(`Keeps`). -/

namespace Sys2Proof.Machine

/-- A fold of steps that keep the guard keeps it. -/
theorem foldl_guard {α : Type} (g : State → α → State) (h : ∀ s a, (g s a).guard = s.guard) (l : List α) (s : State) :
    (l.foldl g s).guard = s.guard := by
  induction l generalizing s with
  | nil => rfl
  | cons a l ih => simp [ih, h]

/-- The cascade is no part of the guard. -/
theorem guard_cas (s : State) (x : Cas) : ({ s with cas := x } : State).guard = s.guard := rfl
/-- MODE 2 is acquisition. -/
theorem State.acquiring_phase {s : State} (h : s.mode = 2) : s.pwr.phase = .acquisition := by
  unfold State.mode at h
  split at h <;> simp_all
theorem FusesKept.refl (f : Fuses) : FusesKept f f := ⟨fun _ _ h => h, fun _ h => h, fun _ _ h => h, Nat.le_refl _, id, Nat.le_refl _, rfl⟩
theorem FusesKept.trans {f g h : Fuses} (a : FusesKept f g) (b : FusesKept g h) : FusesKept f h :=
  ⟨fun i x e => b.keys i x (a.keys i x e), fun i e => b.revoked i (a.revoked i e), fun i x e => b.pads i x (a.pads i x e),
   Nat.le_trans a.lifecycle b.lifecycle, fun e => b.debugLock (a.debugLock e), Nat.le_trans a.svnMin b.svnMin, b.order.trans a.order⟩
/-- From a state that meets the rules, `t` meets them too, and every fuse of `s` is kept. -/
def Keeps (s t : State) : Prop := s.guard.Ok → t.guard.Ok ∧ FusesKept s.guard.fuses t.guard.fuses
/-- Nothing the rules speak of has changed. -/
theorem Keeps.of_guard {s t : State} (h : t.guard = s.guard) : Keeps s t := by
  intro o; rw [h]; exact ⟨o, FusesKept.refl _⟩
theorem Keeps.refl (s : State) : Keeps s s := Keeps.of_guard rfl
theorem Keeps.trans {s t u : State} (a : Keeps s t) (b : Keeps t u) : Keeps s u := fun o =>
  ⟨(b (a o).1).1, (a o).2.trans (b (a o).1).2⟩
/-- The fuses are as they were. -/
theorem Keeps.mk' {s t : State} (hf : t.fuses = s.fuses) (h : s.guard.Ok → t.guard.Ok) : Keeps s t := by
  intro o; refine ⟨h o, ?_⟩; rw [show t.guard.fuses = s.guard.fuses from hf]; exact FusesKept.refl _
/-- Only the DRAM contents are written, and stay in canonical form. -/
theorem Keeps.data {s t : State} (d : SMap Byte) (h : t.guard = { s.guard with data := d })
    (hd : Memory.wf s.mem.data = true → Memory.wf d = true) : Keeps s t := by
  intro o
  rw [h]
  exact ⟨⟨o.idle, o.ld, o.amp, o.gate, o.lit, o.bright, o.live, o.life, o.bound, hd o.canon⟩, FusesKept.refl _⟩
/-- What a fold of keeping steps does. -/
theorem Keeps.foldl {α : Type} (g : State → α → State) (h : ∀ s a, Keeps s (g s a)) (l : List α) (s : State) : Keeps s (l.foldl g s) := by
  induction l generalizing s with
  | nil => exact Keeps.refl s
  | cons a l ih => exact (h s a).trans (ih _)

end Sys2Proof.Machine
end

