-- ==== Sys2Proof/Laws/GuardCore.lean ====
section
/-! SUPPORT. For each operation of the shared operations, the fault log, sessions, time base, receiver, housekeeping and the DRAM controller: what it does to
`State.guard`: nothing (`_guard`), or a change that keeps the rules (`_keeps`). -/

namespace Sys2Proof.Machine

set_option linter.unusedTactic false
set_option linter.unreachableTactic false
set_option linter.unnecessarySeqFocus false
set_option linter.unusedVariables false
set_option linter.unusedSimpArgs false

/-! ### Operations of Machine/Flags.lean -/

theorem State.pulse_guard (s : State) :
    (State.pulse s).guard = s.guard := by
  unfold State.pulse
  (repeat' split) <;> rfl

/-- The end of a command changes nothing the rules speak of. -/
theorem noteGlobal_guard (s t : State) (q : List Instr) : ({ noteGlobal s t with pending := q } : State).guard = t.guard := by
  unfold noteGlobal; split <;> rfl

/-! ### Operations of Machine/Ops.lean -/

theorem State.modPort_guard (s : State) (p : Nat) (f : Port → Port) :
    (State.modPort s p f).guard = s.guard := by
  unfold State.modPort
  (repeat' split) <;> rfl

theorem State.received_guard (s : State) (p : Nat) (x : RxMeta) :
    (State.received s p x).guard = s.guard := by
  unfold State.received
  (repeat' split) <;> rfl

theorem State.discard_guard (s : State) (p : Nat) (x : RxMeta) :
    (State.discard s p x).guard = s.guard := by
  unfold State.discard
  (repeat' split) <;> rfl

theorem State.putRing_guard (s : State) (x : RingSend) :
    (State.putRing s x).guard = s.guard := by
  unfold State.putRing
  (repeat' split) <;> rfl

theorem State.sendRing_guard (s : State) (m : RingMsg) :
    (State.sendRing s m).guard = s.guard := by
  unfold State.sendRing
  grind [State.guard, State.putRing_guard]

theorem State.passOn_guard (s : State) (h : RingHdr) (m : RingMsg) :
    (State.passOn s h m).guard = s.guard := by
  unfold State.passOn
  grind [State.guard, State.putRing_guard]

theorem State.ringIn_guard (s : State) (h : RingHdr) (m : RingMsg) (f : State → State) (hf : ∀ t, (f t).guard = t.guard) :
    (State.ringIn s h m f).guard = s.guard := by
  unfold State.ringIn
  grind [State.guard, State.passOn_guard]

theorem drawBytes_guard (s : State) (n : Nat) :
    (drawBytes s n).2.guard = s.guard := by
  rfl

theorem State.askRestart_guard (s : State) (blocks : Option (List Nat)) (clear : Bool) (t : Nat) :
    (State.askRestart s blocks clear t).guard = s.guard := by
  rfl

theorem State.ringIn_keeps (s : State) (h : RingHdr) (m : RingMsg) (f : State → State) (hf : ∀ t, Keeps t (f t)) :
    Keeps s (State.ringIn s h m f) := by
  unfold State.ringIn
  have hp := Keeps.of_guard (State.passOn_guard s h m)
  split
  · exact Keeps.refl s
  split
  · exact Keeps.of_guard rfl
  split
  · exact Keeps.refl s
  split
  · exact hp.trans (hf _)
  · exact hp

/-- A meaning keeps the rules if its operation does. -/
theorem done_keeps {s u t : State} (k : Keeps s u) (e : s.done u = .next t) : Keeps s t := by
  cases e; exact k.trans (Keeps.of_guard (noteGlobal_guard s u _))

/-! ### Operations of Machine/Clock.lean -/

theorem State.advance_guard (s : State) (t : Nat) :
    (State.advance s t).guard = s.guard := by
  unfold State.advance
  (repeat' split) <;> rfl

theorem State.expire_guard (s : State) (t : Nat) :
    (State.expire s t).guard = s.guard := by
  unfold State.expire
  (repeat' split) <;> rfl

theorem State.clockFrom_guard (s : State) (sample : Bool) :
    (State.clockFrom s sample).guard = s.guard := by
  unfold State.clockFrom
  (repeat' split) <;> rfl

theorem State.reloadRtc_guard (s : State) :
    (State.reloadRtc s).guard = s.guard := by
  unfold State.reloadRtc
  grind [State.guard]

theorem State.newSeg_guard (s : State) (x : Nat) (rho : Int) :
    (State.newSeg s x rho).guard = s.guard := by
  rfl

theorem State.stepMap_guard (s : State) (t : Nat) (rho : Int) :
    (State.stepMap s t rho).guard = s.guard := by
  rfl

/-! ### Operations of Machine/Faults.lean -/

theorem State.logCoalesce_guard (s : State) (seq : Nat) :
    (State.logCoalesce s seq).guard = s.guard := by
  rfl

theorem State.logNew_guard (s : State) (code cls unit : Nat) (data : List Byte) :
    (State.logNew s code cls unit data).guard = s.guard := by
  unfold State.logNew
  grind [State.guard]

theorem State.log_guard (s : State) (code cls unit : Nat) (data : List Byte) :
    (State.log s code cls unit data).guard = s.guard := by
  unfold State.log
  grind [State.guard, State.logCoalesce_guard, State.logNew_guard]

theorem State.logAos_guard (s : State) (code cls unit : Nat) (data : List Byte) :
    (State.logAos s code cls unit data).guard = s.guard := by
  rfl

theorem State.transient_guard (s : State) (code unit : Nat) (data : List Byte) :
    (State.transient s code unit data).guard = s.guard := by
  unfold State.transient
  grind [State.guard, State.log_guard]

theorem State.lasting_guard (s : State) (code unit : Nat) (data : List Byte) :
    (State.lasting s code unit data).guard = s.guard := by
  unfold State.lasting
  grind [State.guard, State.log_guard, State.pulse_guard]

theorem noteRun_guard (s : State) (t : Nat) (prev : Option Nat) (held interval : Nat) :
    (noteRun s t prev held interval).guard = s.guard := by
  unfold noteRun
  grind [State.guard]

/-! ### Operations of Machine/Session.lean -/

theorem State.turnedAway_guard (s : State) (v : Via) :
    (State.turnedAway s v).guard = s.guard := by
  unfold State.turnedAway
  grind [State.discard_guard]

theorem State.arrives_guard {s t : State} {v : Via} (h : s.arrives v = some t) : t.guard = s.guard := by
  unfold State.arrives at h
  grind [State.guard, State.received_guard]

theorem State.modSession_guard (s : State) (sid : Nat) (f : Session → Session) :
    (State.modSession s sid f).guard = s.guard := by
  rfl

theorem State.sendMgmt_guard (s : State) (m : MgmtSend) :
    (State.sendMgmt s m).guard = s.guard := by
  unfold State.sendMgmt
  (repeat' split) <;> rfl

theorem State.respond_guard (s : State) (x : Session) (seq : Nat) (r : Response) :
    (State.respond s x seq r).guard = s.guard := by
  unfold State.respond
  grind [State.guard, State.sendMgmt_guard]

theorem State.answer_guard (s : State) (sid seq : Nat) (r : Response) :
    (State.answer s sid seq r).guard = s.guard := by
  unfold State.answer
  (repeat' split) <;> first
    | (refine (foldl_guard _ (fun s a => ?_) _ _).trans ?_ <;> grind [State.guard, State.modSession_guard, State.respond_guard])
    | grind [State.guard, State.modSession_guard, State.respond_guard]

theorem State.duplicate_guard (s : State) (x : Session) (c : Cached) :
    (State.duplicate s x c).guard = s.guard := by
  unfold State.duplicate
  grind [State.guard, State.modSession_guard, State.respond_guard]

theorem guard_sec (t : State) (x : Sec) (h : x.lifePend = t.sec.lifePend) : ({ t with sec := x } : State).guard = t.guard := by
  simp [State.guard, h]

theorem State.commandThen_guard (s : State) (h : Hdr) (code role : Nat)
    (f : State → Session → State × Option Response × (State → State))
    (hf : ∀ s x, (f s x).1.guard = s.guard) (hg : ∀ s x t, ((f s x).2.2 t).guard = t.guard) :
    (s.commandThen h code role f).guard = s.guard := by
  unfold State.commandThen
  split
  · rfl
  rename_i x hx
  split
  · exact State.turnedAway_guard _ _
  rename_i s1 h1
  have e1 := State.arrives_guard h1
  have e2 : ∀ (n : Nat) (g : Session → Session), (s1.modSession n g).guard = s.guard :=
    fun n g => (State.modSession_guard s1 n g).trans e1
  dsimp only
  split
  · exact e1
  split
  · exact (State.respond_guard _ _ _ _).trans (e2 _ _)
  · exact (State.respond_guard _ _ _ _).trans ((guard_sec _ _ rfl).trans (e2 _ _))
  · exact (State.duplicate_guard _ _ _).trans (e2 _ _)
  · have e5 : ∀ (n : Nat) (g : Session → Session) (t : State), t.guard = s.guard → (t.modSession n g).guard = s.guard :=
      fun n g t ht => (State.modSession_guard t n g).trans ht
    split
    · exact (State.answer_guard _ _ _ _).trans ((guard_sec _ _ rfl).trans (e5 _ _ _ (e2 _ _)))
    · split
      · exact (guard_sec _ _ rfl).trans (e5 _ _ _ (e2 _ _))
      · rename_i y hy
        generalize hz : State.mk _ _ _ _ _ _ _ _ _ _ _ _ _ _ _ _ _ _ _ _ _ _ _ _ _ _ _ _ = z
        have ez : z.guard = s.guard := by subst hz; exact (guard_sec _ _ rfl).trans (e5 _ _ _ (e2 _ _))
        have a := hf z y
        have b := hg z y
        generalize f z y = q at a b
        obtain ⟨t, r, g⟩ := q
        cases r with
        | none => exact (b t).trans (a.trans ez)
        | some r => exact (b _).trans ((State.answer_guard _ _ _ _).trans (a.trans ez))

theorem State.command_guard (s : State) (h : Hdr) (code role : Nat) (f : State → Session → State × Option Response)
    (hf : ∀ s x, (f s x).1.guard = s.guard) : (s.command h code role f).guard = s.guard :=
  State.commandThen_guard s h code role _ (fun s x => hf s x) (fun _ _ _ => rfl)

theorem State.command1_guard (s : State) (h : Hdr) (code role : Nat) (f : State → Session → State × Response)
    (hf : ∀ s x, (f s x).1.guard = s.guard) : (s.command1 h code role f).guard = s.guard :=
  State.command_guard s h code role _ (fun s x => hf s x)

theorem State.commandThen_keeps (s : State) (h : Hdr) (code role : Nat)
    (f : State → Session → State × Option Response × (State → State))
    (hf : ∀ s x, Keeps s (f s x).1) (hg : ∀ s x t, Keeps t ((f s x).2.2 t)) : Keeps s (s.commandThen h code role f) := by
  unfold State.commandThen
  split
  · exact Keeps.refl s
  rename_i x hx
  split
  · exact Keeps.of_guard (State.turnedAway_guard _ _)
  rename_i s1 h1
  have e1 := State.arrives_guard h1
  have e2 : ∀ (n : Nat) (g : Session → Session), (s1.modSession n g).guard = s.guard :=
    fun n g => (State.modSession_guard s1 n g).trans e1
  dsimp only
  split
  · exact Keeps.of_guard e1
  split
  · exact Keeps.of_guard ((State.respond_guard _ _ _ _).trans (e2 _ _))
  · exact Keeps.of_guard ((State.respond_guard _ _ _ _).trans ((guard_sec _ _ rfl).trans (e2 _ _)))
  · exact Keeps.of_guard ((State.duplicate_guard _ _ _).trans (e2 _ _))
  · have e5 : ∀ (n : Nat) (g : Session → Session) (t : State), t.guard = s.guard → (t.modSession n g).guard = s.guard :=
      fun n g t ht => (State.modSession_guard t n g).trans ht
    split
    · exact Keeps.of_guard ((State.answer_guard _ _ _ _).trans ((guard_sec _ _ rfl).trans (e5 _ _ _ (e2 _ _))))
    · split
      · exact Keeps.of_guard ((guard_sec _ _ rfl).trans (e5 _ _ _ (e2 _ _)))
      · rename_i y hy
        generalize hz : State.mk _ _ _ _ _ _ _ _ _ _ _ _ _ _ _ _ _ _ _ _ _ _ _ _ _ _ _ _ = z
        have ez : z.guard = s.guard := by subst hz; exact (guard_sec _ _ rfl).trans (e5 _ _ _ (e2 _ _))
        have a := hf z y
        have b := hg z y
        generalize f z y = q at a b
        obtain ⟨t, r, g⟩ := q
        cases r with
        | none => exact (Keeps.of_guard ez).trans (a.trans (b t))
        | some r => exact (Keeps.of_guard ez).trans (a.trans ((Keeps.of_guard (State.answer_guard _ _ _ _)).trans (b _)))

theorem State.command_keeps (s : State) (h : Hdr) (code role : Nat) (f : State → Session → State × Option Response)
    (hf : ∀ s x, Keeps s (f s x).1) : Keeps s (s.command h code role f) :=
  State.commandThen_keeps s h code role _ (fun s x => hf s x) (fun _ _ t => Keeps.refl t)

theorem State.command1_keeps (s : State) (h : Hdr) (code role : Nat) (f : State → Session → State × Response)
    (hf : ∀ s x, Keeps s (f s x).1) : Keeps s (s.command1 h code role f) :=
  State.command_keeps s h code role _ (fun s x => hf s x)

theorem State.closeSession_guard (s : State) (sid : Nat) :
    (State.closeSession s sid).guard = s.guard := by
  rfl

theorem State.closeAll_guard (s : State) :
    (State.closeAll s).guard = s.guard := by
  rfl

theorem State.newReq_guard (s : State) :
    (State.newReq s).2.guard = s.guard := by
  rfl

theorem State.setReq_guard (s : State) (id : Nat) (st : ReqState) (index : Nat) :
    (State.setReq s id st index).guard = s.guard := by
  rfl

/-! ### Operations of Machine/Time.lean -/

theorem State.tdcEdge_guard (s : State) (n : Nat) (m : TdcIn) :
    (State.tdcEdge s n m).1.guard = s.guard := by
  unfold State.tdcEdge
  grind [State.guard]

theorem tdcCal_guard (s : State) (ch n1 n2 : Nat) :
    (tdcCal s ch n1 n2).guard = s.guard := by
  unfold tdcCal
  (repeat' split) <;> rfl

theorem State.freezeLmon_guard (s : State) :
    (State.freezeLmon s).guard = s.guard := by
  rfl

theorem tdcTestEnd_guard (s : State) (ch : Nat) (pass : Bool) (t : Nat × Int) :
    (tdcTestEnd s ch pass t).guard = s.guard := by
  unfold tdcTestEnd
  grind [State.guard, State.freezeLmon_guard, State.lasting_guard, State.transient_guard]

theorem tdcSelfTest_guard (s : State) (ch : Nat) (dev : List Int) :
    (tdcSelfTest s ch dev).guard = s.guard := by
  unfold tdcSelfTest
  grind [State.guard, tdcTestEnd_guard]

theorem tdc3_guard (s : State) (m : TdcIn) :
    (tdc3 s m).guard = s.guard := by
  unfold tdc3
  grind [State.guard, State.tdcEdge_guard, State.sendRing_guard]

theorem setRef_guard (s : State) (ok : Bool) :
    (setRef s ok).guard = s.guard := by
  unfold setRef
  (repeat' split) <;> rfl

theorem todReceive_guard (s : State) (l : List Byte) (ms : Nat) :
    (todReceive s l ms).guard = s.guard := by
  unfold todReceive
  (repeat' split) <;> rfl

theorem ppsSteer_guard (s : State) (t : Nat) : (ppsSteer s t).guard = s.guard := by
  unfold ppsSteer
  extract_lets
  (repeat' split) <;> first | rfl | (rw [State.reloadRtc_guard]; rfl) | (simp only [State.stepMap]; rfl)

theorem pps_guard (s : State) (m : TdcIn) :
    (pps s m).guard = s.guard := by
  unfold pps
  grind [State.guard, State.tdcEdge_guard, ppsSteer_guard]

theorem holdTime_guard (s : State) :
    (holdTime s).guard = s.guard := by
  unfold holdTime
  grind [State.guard, State.newSeg_guard]

theorem ppsLoss_guard (s : State) :
    (ppsLoss s).guard = s.guard := by
  unfold ppsLoss
  grind [State.guard, State.expire_guard, holdTime_guard]

theorem rateStart_guard (s : State) :
    (rateStart s).guard = s.guard := by
  unfold rateStart
  (repeat' split) <;> rfl

theorem todSend_guard (s : State) :
    (todSend s).guard = s.guard := by
  unfold todSend
  (repeat' split) <;> rfl

theorem timeSetCmd_guard (s : State) (w : Nat) :
    (timeSetCmd s w).1.guard = s.guard := by
  unfold timeSetCmd
  (repeat' split) <;> rfl

theorem timeAcqStart_guard (s : State) :
    (timeAcqStart s).guard = s.guard := by
  unfold timeAcqStart
  grind [State.guard, State.stepMap_guard, tdc3_guard]

/-! ### Operations of Machine/Receiver.lean -/

theorem frameEnd_guard (s : State) (peak clips : Nat) :
    (frameEnd s peak clips).guard = s.guard := by
  unfold frameEnd
  (repeat' split) <;> rfl

theorem rangeSwitch_guard (s : State) :
    (rangeSwitch s).guard = s.guard := by
  unfold rangeSwitch
  (repeat' split) <;> rfl

theorem rxfLaunchBegin_guard (s : State) (t : Nat) :
    (rxfLaunchBegin s t).guard = s.guard := by
  unfold rxfLaunchBegin
  grind [State.guard]

theorem rxfBoundary_guard (s : State) (t : Nat) :
    (rxfBoundary s t).guard = s.guard := by
  unfold rxfBoundary
  (repeat' split) <;> first
    | (refine (foldl_guard _ (fun s a => ?_) _ _).trans ?_ <;> grind [State.guard, State.setReq_guard])
    | grind [State.guard, State.setReq_guard]

theorem loScanStart_guard (s : State) :
    (loScanStart s).guard = s.guard := by
  unfold loScanStart
  (repeat' split) <;> rfl

theorem loReading_guard (s : State) (code : Nat) :
    (loReading s code).guard = s.guard := by
  unfold loReading
  (repeat' split) <;> rfl

theorem loUpdate_guard (s : State) : (loUpdate s).guard = s.guard := by
  unfold loUpdate
  extract_lets
  (repeat' split) <;> rfl

theorem rxfReset_guard (s : State) :
    (rxfReset s).guard = s.guard := by
  rfl

/-! ### Operations of Machine/Housekeeping.lean -/

theorem State.hkStreams_guard (s : State) (f : HkReader → HkReader) :
    (State.hkStreams s f).guard = s.guard := by
  rfl

theorem hkRelength_guard (s : State) :
    (hkRelength s).guard = s.guard := by
  unfold hkRelength
  (repeat' split) <;> rfl

theorem hkStore_guard (s : State) (w : Nat) :
    (hkStore s w).guard = s.guard := by
  unfold hkStore
  (repeat' split) <;> first
    | (refine (foldl_guard _ (fun s a => ?_) _ _).trans ?_ <;> grind [State.guard, State.hkStreams_guard, hkRelength_guard])
    | grind [State.guard, State.hkStreams_guard, hkRelength_guard]

theorem hkWriteRd_guard (s : State) (v : Nat) :
    (hkWriteRd s v).guard = s.guard := by
  unfold hkWriteRd
  (repeat' split) <;> rfl

theorem State.cmpAmend_guard (s : State) (new : List CmpCfg) :
    (s.cmpAmend new).guard = s.guard := by
  rfl

theorem cmpTake_guard (s : State) (n ch : Nat) :
    (cmpTake s n ch).guard = s.guard := by
  unfold cmpTake
  (repeat' split) <;> rfl

theorem cmpEval_guard (s : State) (n ch code widx : Nat) :
    (cmpEval s n ch code widx).guard = s.guard := by
  have h := cmpTake_guard s n ch
  unfold cmpEval
  generalize cmpTake s n ch = t at h ⊢
  grind [State.guard, State.log_guard, State.pulse_guard]

theorem hkScan_guard (s : State) :
    (hkScan s).guard = s.guard := by
  unfold hkScan
  (repeat' split)
  · rfl
  · exact State.advance_guard s s.hka.nextScan

theorem hkConvert_guard (s : State) (input : HkIn) :
    (hkConvert s input).guard = s.guard := by
  unfold hkConvert
  have h := State.advance_guard s s.hka.convEnd
  generalize s.advance s.hka.convEnd = t at h ⊢
  (repeat' split) <;> first
    | (refine (foldl_guard _ (fun s a => ?_) _ _).trans ?_ <;> grind [State.guard, cmpEval_guard, hkStore_guard, loReading_guard])
    | grind [State.guard, cmpEval_guard, hkStore_guard, loReading_guard]

theorem rtdSeeBreak_guard (s : State) (n : Nat) :
    (rtdSeeBreak s n).guard = s.guard := by
  unfold rtdSeeBreak
  grind [State.guard]

theorem rtdTime_guard (s : State) (n : Nat) :
    (rtdTime s n).guard = s.guard := by
  unfold rtdTime
  (repeat' split) <;> first
    | rfl
    | exact State.advance_guard s _

theorem rtdEnd_guard (s : State) (n uv na : Nat) :
    (rtdEnd s n uv na).guard = s.guard := by
  have h := rtdTime_guard s n
  unfold rtdEnd
  generalize rtdTime s n = t at h ⊢
  grind [State.guard, rtdSeeBreak_guard]

theorem hkAcqStart_guard (s : State) :
    (hkAcqStart s).guard = s.guard := by
  rfl

theorem hkReset_guard (s : State) :
    (hkReset s).guard = s.guard := by
  rfl

/-! ### Operations of Machine/Memory.lean -/

theorem guard_mem (t : State) (m : Mem) (h : m.data = t.mem.data) : ({ t with mem := m } : State).guard = t.guard := by
  simp [State.guard, h]

theorem setFill_guard (s : State) (p fill : Nat) :
    (setFill s p fill).guard = s.guard := by
  unfold setFill
  split
  · rfl
  · extract_lets was size held now enters m
    refine guard_mem s _ ?_
    split <;> rfl

theorem Mem.settle_data (m : Mem) (t : Nat) : (m.settle t).data = m.data := by
  unfold Mem.settle
  split <;> rfl

theorem Mem.lose_data (m : Mem) (p : Nat) : (m.lose p).2.data = m.data := rfl

theorem Mem.rewritten_data (m : Mem) (a n : Nat) : (m.rewritten a n).data = m.data := rfl

theorem Mem.modCh_data (m : Mem) (n : Nat) (f : Channel → Channel) : (m.modCh n f).data = m.data := rfl

theorem startRowTest_data (m : Mem) (l : DramLoc) (r : DramReq) (n : Nat) : (startRowTest m l r n).data = m.data := by
  unfold startRowTest
  split <;> rfl

theorem readUnitOf_guard (s : State) (q : MemReq) (l : DramLoc) :
    (readUnitOf s q l).1.guard = s.guard := by
  unfold readUnitOf
  dsimp only
  split <;> first | rfl | (simp only [State.guard, startRowTest_data])

theorem Keeps.store (s : State) (a : Nat) (d : List Byte) : Keeps s { s with mem := s.mem.store a d } :=
  Keeps.data _ rfl (writeUnit_wf _ _ _)

theorem memAccess_keeps (s : State) (q : MemReq) : Keeps s (memAccess s q) := by
  unfold memAccess
  extract_lets l t
  have h0 : Keeps s t := Keeps.of_guard rfl
  refine h0.trans ?_
  clear_value t
  have hr := readUnitOf_guard t q l
  split
  · split
    · exact Keeps.store _ _ _
    · generalize readUnitOf t q l = r at hr
      obtain ⟨u, d⟩ := r
      cases d with
      | none => exact Keeps.of_guard hr
      | some d => exact (Keeps.of_guard hr).trans (Keeps.store _ _ _)
  · exact Keeps.of_guard (guard_mem _ _ rfl |>.trans hr)

theorem grantLoop_keeps (s : State) (n k : Nat) : Keeps s (grantLoop s n k) := by
  induction k generalizing s with
  | zero => exact Keeps.refl s
  | succ k ih =>
    simp only [grantLoop]
    split
    · exact Keeps.refl s
    split
    · exact Keeps.refl s
    · rename_i q _
      have h0 := Keeps.of_guard (s := s) (t := { s with mem := s.mem.modCh n fun c => ({ c with queue := c.queue.erase q } : Channel).letIn }) rfl
      exact h0.trans ((memAccess_keeps _ _).trans (ih _))

theorem grantAll_keeps (s : State) (n : Nat) : Keeps s (grantAll s n) := grantLoop_keeps s n _

theorem exitSelfRef_guard (s : State) (n : Nat) :
    (exitSelfRef s n).guard = s.guard := by
  rfl

theorem dramArrive_keeps (s : State) (q : DramReq) (ecc : EccResult) (fill : Nat) : Keeps s (dramArrive s q ecc fill) := by
  unfold dramArrive
  have hs : ({ s with mem := s.mem.settle s.tim.tick } : State).guard = s.guard := by
    unfold State.guard Mem.settle
    split <;> rfl
  refine Keeps.trans (Keeps.of_guard ?_) (grantAll_keeps _ _)
  dsimp only
  split
  · exact (exitSelfRef_guard _ _).trans ((show _ = _ from rfl).trans ((setFill_guard _ q.code fill).trans hs))
  · exact (show _ = _ from rfl).trans ((setFill_guard _ q.code fill).trans hs)

theorem promote_keeps (s : State) (n i : Nat) : Keeps s (promote s n i) := by
  unfold promote
  refine Keeps.trans ?_ (grantAll_keeps _ _)
  exact Keeps.of_guard rfl

theorem convertBank_guard (s : State) (n old new i : Nat) :
    (convertBank s n old new i).guard = s.guard := by
  unfold convertBank
  grind [State.guard, Mem.modCh_data, State.log_guard]

theorem applyBand_guard (s : State) (n : Nat) : (applyBand s n).guard = s.guard := by
  unfold applyBand
  extract_lets c
  split
  · rfl
  · exact (foldl_guard _ (fun s i => convertBank_guard s n c.band _ i) _ _).trans rfl

theorem refreshDue_guard (s : State) (n i : Nat) :
    (refreshDue s n i).guard = s.guard := by
  unfold refreshDue
  grind [State.guard, Mem.modCh_data, Mem.settle_data, applyBand_guard]

theorem mr4Read_guard (s : State) (n band : Nat) :
    (mr4Read s n band).guard = s.guard := by
  unfold mr4Read
  grind [State.guard, Mem.modCh_data, State.log_guard]

theorem enterSelfRef_guard (s : State) (n : Nat) :
    (enterSelfRef s n).guard = s.guard := by
  unfold enterSelfRef
  grind [State.guard, Mem.modCh_data, State.expire_guard]

theorem leaveSelfRef_keeps (s : State) (n : Nat) : Keeps s (leaveSelfRef s n) := by
  unfold leaveSelfRef
  dsimp only
  split
  · exact Keeps.trans (Keeps.of_guard (exitSelfRef_guard s n)) (grantAll_keeps _ _)
  · exact Keeps.refl s

theorem memSleep_guard (s : State) :
    (memSleep s).guard = s.guard := by
  rfl

theorem rowTestEnd_keeps (s : State) (ch bank row : Nat) (bad : Bool) (cols : List Nat) :
    Keeps s (rowTestEnd s ch bank row bad cols) := by
  unfold rowTestEnd
  split
  · exact Keeps.refl s
  · refine Keeps.trans (Keeps.of_guard ?_) (grantAll_keeps _ _)
    grind [State.guard, Mem.modCh_data, State.lasting_guard, State.log_guard, State.transient_guard]

end Sys2Proof.Machine
end

