-- ==== Sys2Proof/Laws/GuardPath.lean ====
section
/-! SUPPORT. For each operation of the data path, zones and records: what it does to
`State.guard`: nothing (`_guard`), or a change that keeps the rules (`_keeps`). -/

namespace Sys2Proof.Machine

set_option linter.unusedTactic false
set_option linter.unreachableTactic false
set_option linter.unnecessarySeqFocus false
set_option linter.unusedVariables false
set_option linter.unusedSimpArgs false

/-! ### Operations of Machine/Converters.lean -/

theorem State.modLane_guard (s : State) (n : Nat) (f : Lane → Lane) :
    (State.modLane s n f).guard = s.guard := by
  rfl

theorem adcAcqStart_guard (s : State) :
    (adcAcqStart s).guard = s.guard := by
  unfold adcAcqStart
  grind [State.guard, State.pulse_guard]

theorem calCommit_guard (s : State) (n : Nat) (m : CalMeas) :
    (calCommit s n m).guard = s.guard := by
  unfold calCommit
  grind [State.guard, State.modLane_guard]

theorem initialCal_guard (s : State) (n i : Nat) (m : CalMeas) :
    (initialCal s n i m).guard = s.guard := by
  unfold initialCal
  (repeat' split) <;> rfl

theorem initialCalDone_guard (s : State) (meas : List CalMeas) :
    (initialCalDone s meas).guard = s.guard := by
  unfold initialCalDone
  (repeat' split) <;> first
    | (refine (foldl_guard _ (fun s a => ?_) _ _).trans ?_ <;> grind [State.guard, initialCal_guard])
    | grind [State.guard, initialCal_guard]

theorem loseLane_guard (s : State) (n t : Nat) :
    (loseLane s n t).guard = s.guard := by
  unfold loseLane
  grind [State.guard, State.log_guard, State.modLane_guard]

theorem retireSlice_guard (s : State) (n i : Nat) (f : Nat × Int) (t : Nat) :
    (retireSlice s n i f t).guard = s.guard := by
  unfold retireSlice
  grind [State.guard, State.lasting_guard, State.modLane_guard, loseLane_guard]

theorem sliceTestEnd_guard (s : State) (n i : Nat) (devs : SelfTestCodes) :
    (sliceTestEnd s n i devs).guard = s.guard := by
  unfold sliceTestEnd
  (repeat' split) <;> first
    | (refine (foldl_guard _ (fun s a => ?_) _ _).trans ?_ <;> grind [State.guard, State.modLane_guard, State.transient_guard, retireSlice_guard])
    | grind [State.guard, State.modLane_guard, State.transient_guard, retireSlice_guard]

theorem losePol_guard (s : State) (k b : Nat) :
    (losePol s k b).guard = s.guard := by
  unfold losePol
  grind [State.guard, State.askRestart_guard, State.log_guard, State.pulse_guard]

theorem rotation_guard (s : State) :
    (rotation s).guard = s.guard := by
  unfold rotation
  grind [State.guard, losePol_guard]

theorem judgeLane_guard (s : State) (n w : Nat) (stats : List PhaseStat) :
    (judgeLane s n w stats).guard = s.guard := by
  unfold judgeLane
  (repeat' split) <;> first
    | (refine (foldl_guard _ (fun s a => ?_) _ _).trans ?_ <;> grind [State.guard, State.modLane_guard, retireSlice_guard])
    | grind [State.guard, State.modLane_guard, retireSlice_guard]

theorem monitorEnd_guard (s : State) (stats : List PhaseStat) :
    (monitorEnd s stats).guard = s.guard := by
  unfold monitorEnd
  (repeat' split) <;> first
    | (refine (foldl_guard _ (fun s a => ?_) _ _).trans ?_ <;> grind [State.guard, judgeLane_guard])
    | grind [State.guard, judgeLane_guard]

theorem adcReset_guard (s : State) :
    (adcReset s).guard = s.guard := by
  rfl

/-! ### Operations of Machine/Decim.lean -/

theorem startXfade_guard (s : State) (x : Xfade) :
    (startXfade s x).guard = s.guard := by
  rfl

theorem endXfade_guard (s : State) (x : Xfade) :
    (endXfade s x).guard = s.guard := by
  unfold endXfade
  grind [State.guard, startXfade_guard]

theorem advanceXfade_guard (s : State) (q : Nat) :
    (advanceXfade s q).guard = s.guard := by
  unfold advanceXfade
  grind [State.guard, endXfade_guard, startXfade_guard]

theorem noteOutput_guard (s : State) (b q : Nat) :
    (noteOutput s b q).guard = s.guard := by
  rfl

theorem restartGrid_guard (s : State) (ns : Nat) :
    (restartGrid s ns).guard = s.guard := by
  rfl

theorem internalRestart_guard (s : State) (ns : Nat) :
    (internalRestart s ns).guard = s.guard := by
  rfl

theorem syncBoundary_guard (s : State) (ns : Nat) :
    (syncBoundary s ns).guard = s.guard := by
  unfold syncBoundary
  (repeat' split) <;> rfl

theorem takeSync_guard (s : State) (ns : Nat) :
    (takeSync s ns).guard = s.guard := by
  rfl

theorem ignoreSync_guard (s : State) :
    (ignoreSync s).guard = s.guard := by
  rfl

theorem decAcqStart_guard (s : State) :
    (decAcqStart s).guard = s.guard := by
  unfold decAcqStart
  (repeat' split) <;> rfl

theorem supersedeSwap_guard (s : State) (req : Nat) :
    (supersedeSwap s req).guard = s.guard := by
  rfl

theorem decAcqEnd_guard (s : State) :
    (decAcqEnd s).guard = s.guard := by
  unfold decAcqEnd
  (repeat' split) <;> first
    | (refine (foldl_guard _ (fun s a => ?_) _ _).trans ?_ <;> grind [State.guard, supersedeSwap_guard])
    | grind [State.guard, supersedeSwap_guard]

theorem bankSwapCmd_guard (s : State) (target nx : Nat) :
    (bankSwapCmd s target nx).1.guard = s.guard := by
  unfold bankSwapCmd
  grind [State.guard, State.newReq_guard, State.setReq_guard, supersedeSwap_guard]

/-! ### Operations of Machine/QuasiStatic.lean -/

theorem State.handUnit_guard (s : State) (stype : Nat) (u : StreamUnit) :
    (State.handUnit s stype u).guard = s.guard := by
  rfl

theorem State.setQsWin_guard (s : State) (b : Nat) (w : QsWin) :
    (State.setQsWin s b w).guard = s.guard := by
  rfl

theorem qsDiscard_guard (s : State) (b : Nat) (next : Option Nat) :
    (qsDiscard s b next).guard = s.guard := by
  unfold qsDiscard
  grind [State.guard, State.setQsWin_guard]

theorem qsRestartBlock_guard (s : State) (idx b : Nat) :
    (qsRestartBlock s idx b).guard = s.guard := by
  unfold qsRestartBlock
  grind [State.guard, State.setQsWin_guard, qsDiscard_guard]

theorem qsResetWindows_guard (s : State) (idx m : Nat) (again : Bool) :
    (qsResetWindows s idx m again).guard = s.guard := by
  unfold qsResetWindows
  (repeat' split) <;> first
    | (refine (foldl_guard _ (fun s a => ?_) _ _).trans ?_ <;> grind [State.guard, State.setQsWin_guard, qsDiscard_guard])
    | grind [State.guard, State.setQsWin_guard, qsDiscard_guard]

theorem qsClearRefs_guard (s : State) :
    (qsClearRefs s).guard = s.guard := by
  unfold qsClearRefs
  (repeat' split) <;> rfl

theorem qsBegin_guard (s : State) (b mw : Nat) :
    (qsBegin s b mw).guard = s.guard := by
  unfold qsBegin
  (repeat' split) <;> rfl

theorem qsStart_guard (s : State) (b : Nat) :
    (qsStart s b).guard = s.guard := by
  unfold qsStart
  grind [State.guard, qsBegin_guard]

theorem qsTake_guard (s : State) (b : Nat) (run : QsRun) (e : QsEarly) :
    (qsTake s b run e).guard = s.guard := by
  unfold qsTake
  grind [State.guard, State.setQsWin_guard, qsStart_guard]

theorem qsOffer_guard (s : State) (b : Nat) (e : QsEarly) :
    (qsOffer s b e).guard = s.guard := by
  unfold qsOffer
  grind [State.guard, State.setQsWin_guard, qsTake_guard]

theorem qsReplay_guard (s : State) (b : Nat) :
    (qsReplay s b).guard = s.guard := by
  unfold qsReplay
  extract_lets w
  split
  · rfl
  · exact (foldl_guard _ (fun s e => qsOffer_guard s b e) _ _).trans (State.setQsWin_guard _ _ _)

theorem qsStartAll_guard (s : State) :
    (qsStartAll s).guard = s.guard := by
  unfold qsStartAll
  (repeat' split) <;> first
    | (refine (foldl_guard _ (fun s a => ?_) _ _).trans ?_ <;> grind [State.guard, qsReplay_guard, qsStart_guard])
    | grind [State.guard, qsReplay_guard, qsStart_guard]

theorem qsContribute_guard (s : State) (sh : Shot) (b : Nat) (pw : List Int) :
    (qsContribute s sh b pw).guard = s.guard := by
  unfold qsContribute
  grind [State.guard, qsOffer_guard, qsReplay_guard]

theorem qsTrained_guard (s : State) (b r : Nat) :
    (qsTrained s b r).guard = s.guard := by
  unfold qsTrained
  grind [State.guard, State.setQsWin_guard, qsReplay_guard, qsStart_guard]

theorem qsCmdDone_guard (s : State) (b : Nat) (c : QsCmd) :
    (qsCmdDone s b c).guard = s.guard := by
  unfold qsCmdDone
  grind [State.guard, State.setReq_guard]

theorem qsEvaluate_guard (s : State) (b : Nat) (run : QsRun) (ue refUe : List Nat) :
    (qsEvaluate s b run ue refUe).guard = s.guard := by
  unfold qsEvaluate
  extract_lets n oc cmd refs q1 s1 res count captured chained edges q2 s2 rowq tsEnd header s3
  have h3 : s3.guard = s.guard := by
    simp only [s3]
    clear_value cmd
    cases cmd with
    | none => rfl
    | some c => exact (qsCmdDone_guard _ _ _).trans rfl
  clear_value s3
  split
  · exact h3
  · exact (State.handUnit_guard _ _ _).trans h3

theorem qsSheafTaken_guard (s : State) (b : Nat) :
    (qsSheafTaken s b).guard = s.guard := by
  unfold qsSheafTaken
  grind [State.guard, State.setQsWin_guard]

theorem qsSheafCommit_guard (s : State) (b : Nat) (inp : SheafIn) :
    (qsSheafCommit s b inp).guard = s.guard := by
  unfold qsSheafCommit
  grind [State.guard, State.setQsWin_guard, qsEvaluate_guard]

theorem qsAcqStart_guard (s : State) :
    (qsAcqStart s).guard = s.guard := by
  rfl

theorem qsAcqEnd_guard (s : State) :
    (qsAcqEnd s).guard = s.guard := by
  unfold qsAcqEnd
  grind [State.guard, qsResetWindows_guard]

theorem qsRefCmd_guard (s : State) (mode : Nat) (blocks : List Nat) :
    (qsRefCmd s mode blocks).1.guard = s.guard := by
  unfold qsRefCmd
  (repeat' split) <;> rfl

/-! ### Operations of Machine/Raman.lean -/

theorem dtsBoundaryClose_guard (s : State) (m : Nat) :
    (dtsBoundaryClose s m).guard = s.guard := by
  unfold dtsBoundaryClose
  (repeat' split) <;> rfl

theorem dtsTrace_guard (s : State) (m r g0 : Nat) (raman : List (Nat × Nat)) :
    (dtsTrace s m r g0 raman).guard = s.guard := by
  unfold dtsTrace
  grind [State.guard]

theorem dtsRows_guard (s : State) (a : DtsAvg) (mode : DtsMode) :
    (dtsRows s a mode).guard = s.guard := by
  unfold dtsRows
  (repeat' split) <;> first
    | (refine (foldl_guard _ (fun s a => ?_) _ _).trans ?_ <;> grind [State.guard, State.handUnit_guard])
    | grind [State.guard, State.handUnit_guard]

theorem dtsFinish_guard (s : State) (d : DtsRun) (corrupt : List Nat) :
    (dtsFinish s d corrupt).guard = s.guard := by
  unfold dtsFinish
  grind [State.guard, State.sendRing_guard, dtsRows_guard]

theorem dtsAverageEnd_guard (s : State) (corrupt : List Nat) :
    (dtsAverageEnd s corrupt).guard = s.guard := by
  unfold dtsAverageEnd
  grind [State.guard, dtsFinish_guard]

theorem dtsDiscard_guard (s : State) (n j : Nat) :
    (dtsDiscard s n j).guard = s.guard := by
  unfold dtsDiscard
  grind [State.guard]

theorem dtsRealign_guard (s : State) (m : Nat) :
    (dtsRealign s m).guard = s.guard := by
  unfold dtsRealign
  grind [State.guard]

theorem dtsPartner_guard (s : State) (avg : Nat) (lnR : List (Option Int)) :
    (dtsPartner s avg lnR).guard = s.guard := by
  unfold dtsPartner
  grind [State.guard, dtsRows_guard]

theorem dtsTimeout_guard (s : State) :
    (dtsTimeout s).guard = s.guard := by
  unfold dtsTimeout
  grind [State.guard, State.expire_guard, dtsRows_guard]

theorem dtsAcqStart_guard (s : State) :
    (dtsAcqStart s).guard = s.guard := by
  rfl

theorem dtsAcqEnd_guard (s : State) :
    (dtsAcqEnd s).guard = s.guard := by
  unfold dtsAcqEnd
  (repeat' split) <;> first
    | (refine (foldl_guard _ (fun s a => ?_) _ _).trans ?_ <;> grind [State.guard, dtsDiscard_guard, dtsFinish_guard])
    | grind [State.guard, dtsDiscard_guard, dtsFinish_guard]

/-! ### Operations of Machine/Zones.lean -/

theorem zonGridSync_guard (s : State) :
    (zonGridSync s).guard = s.guard := by
  unfold zonGridSync
  grind [State.guard]

theorem zoneRow_guard (s : State) (row : OutRow) :
    (zoneRow s row).guard = s.guard := by
  unfold zoneRow
  (repeat' split) <;> rfl

theorem trigOut_guard (s : State) :
    (trigOut s).guard = s.guard := by
  unfold trigOut
  grind [State.guard]

theorem decideBand_guard (s : State) (i : ZInt) (b : ZBand) :
    (decideBand s i b).1.guard = s.guard := by
  unfold decideBand
  grind [State.guard, trigOut_guard]

theorem zoneErrors_guard (s : State) (keys : List Nat) :
    (zoneErrors s keys).guard = s.guard := by
  unfold zoneErrors
  (repeat' split) <;> rfl

theorem zoneFold_guard (i : ZInt) (bs : List ZBand) (p : State × List (Nat × Nat × ZBand)) :
    (bs.foldl (fun (s, l) b =>
        let (s, t) := decideBand s i b
        (s, l ++ t)) p).1.guard = p.1.guard := by
  induction bs generalizing p with
  | nil => rfl
  | cons b bs ih => rw [List.foldl_cons, ih]; exact decideBand_guard p.1 i b

theorem zoneDecide_guard (s : State) (i : ZInt) (c : ZCfg) : (zoneDecide s i c).1.guard = s.guard := by
  unfold zoneDecide
  exact (zoneFold_guard _ _ _).trans rfl

theorem zoneAmend_guard (s : State) (q : Nat) :
    (zoneAmend s q).guard = s.guard := by
  unfold zoneAmend
  (repeat' split) <;> rfl

theorem zonAcqStart_guard (s : State) :
    (zonAcqStart s).guard = s.guard := by
  rfl

theorem zonAcqEnd_guard (s : State) :
    (zonAcqEnd s).guard = s.guard := by
  rfl

theorem zonReset_guard (s : State) :
    (zonReset s).guard = s.guard := by
  rfl

theorem trigOutEnd_guard (s : State) :
    (trigOutEnd s).guard = s.guard := by
  rfl

/-! ### Operations of Machine/FibreEnd.lean -/

theorem floorStart_guard (s : State) :
    (floorStart s).guard = s.guard := by
  unfold floorStart
  (repeat' split) <;> rfl

theorem floorSegment_guard (s : State) (dark : List Sample) :
    (floorSegment s dark).guard = s.guard := by
  unfold floorSegment
  (repeat' split) <;> rfl

theorem declareBreak_guard (s : State) (run : List Judged) :
    (declareBreak s run).guard = s.guard := by
  rfl

theorem declareRestored_guard (s : State) (first last : Nat) :
    (declareRestored s first last).guard = s.guard := by
  unfold declareRestored
  grind [State.guard, State.askRestart_guard]

theorem judgeShot_guard (s : State) (j : Judged) :
    (judgeShot s j).guard = s.guard := by
  unfold judgeShot
  grind [State.guard, declareBreak_guard, declareRestored_guard]

theorem learnEnd_guard (s : State) :
    (learnEnd s).guard = s.guard := by
  unfold learnEnd
  grind [State.guard]

theorem resolveProfiles_guard (s : State) (n : Nat) : (resolveProfiles s n).guard = s.guard := by
  induction n generalizing s with
  | zero => rfl
  | succ n ih =>
    simp only [resolveProfiles]
    (repeat' split) <;> first | rfl | (rw [ih, learnEnd_guard]; first | rfl | (rw [judgeShot_guard]; rfl))

theorem profileRelease_guard (s : State) (r b : Nat) (placeholder : Bool) :
    (profileRelease s r b placeholder).guard = s.guard := resolveProfiles_guard _ _

theorem profileCommit_guard (s : State) (r : Nat) (parts : List BinPart) :
    (profileCommit s r parts).guard = s.guard := by
  rfl

theorem beyondBoundary_guard (s : State) :
    (beyondBoundary s).guard = s.guard := by
  unfold beyondBoundary
  (repeat' split) <;> rfl

/-! ### Operations of Machine/Acquire.lean -/

theorem makeGap_guard (s : State) (cause recId : Nat) (first : Int) (count blocks tsFirst : Nat) :
    (makeGap s cause recId first count blocks tsFirst).guard = s.guard := by
  rfl

theorem flushLost_guard (s : State) (y : Nat) :
    (flushLost s y).guard = s.guard := by
  unfold flushLost
  (repeat' split) <;> first
    | (refine (foldl_guard _ (fun s a => ?_) _ _).trans ?_ <;> grind [State.guard, makeGap_guard])
    | grind [State.guard, makeGap_guard]

theorem historyRow_guard (s : State) (row : OutRow) :
    (historyRow s row).guard = s.guard := by
  unfold historyRow
  split
  · rfl
  · exact (flushLost_guard _ _).trans rfl

theorem segmentGaps_guard (s : State) (seg : Segment) : (segmentGaps s seg).guard = s.guard :=
  foldl_guard _ (fun s c => foldl_guard _ (fun s r => makeGap_guard s _ _ _ _ _ _) _ s) _ s

theorem recordDue_guard (s : State) (recId : Nat) :
    (recordDue s recId).guard = s.guard := by
  rfl

theorem finishSegment_guard (s : State) (n : Nat) (seg : Segment) (ended : Bool) :
    (finishSegment s n seg ended).guard = s.guard := by
  unfold finishSegment
  grind [State.guard, recordDue_guard, segmentGaps_guard]

theorem copyRow_data {s : State} {seg seg' : Segment} {k : Nat} {ended : Bool} {lost dram : List Nat} {m : Mem}
    (h : s.copyRow seg k ended lost dram = some (seg', m)) : m.data = s.mem.data := by
  unfold State.copyRow at h
  grind [Mem.lose_data]

theorem copyRest_guard (s : State) (k n : Nat) (seg : Segment) : (copyRest s k n seg).1.guard = s.guard := by
  induction n generalizing s seg with
  | zero => rfl
  | succ n ih =>
    unfold copyRest
    split
    · rfl
    · split
      · rename_i h
        exact (ih _ _).trans (guard_mem _ _ (copyRow_data h))
      · rfl

theorem endSegment_guard (s : State) (n : Nat) :
    (endSegment s n).guard = s.guard := by
  unfold endSegment
  split
  · rfl
  · exact (finishSegment_guard _ _ _ _).trans (copyRest_guard _ _ _ _)

theorem closeSegment_guard (s : State) (n t : Nat) :
    (closeSegment s n t).guard = s.guard := by
  unfold closeSegment
  grind [State.guard, finishSegment_guard]

theorem closeSegments_guard (s : State) (t : Nat) :
    (closeSegments s t).guard = s.guard := by
  unfold closeSegments
  grind [State.guard, closeSegment_guard]

theorem extendSegment_guard (s : State) (n : Nat) (seg : Segment) (k k' : Nat) :
    (extendSegment s n seg k k').1.guard = s.guard := by
  unfold extendSegment
  (repeat' split) <;> rfl

theorem extendAll_guard (n k : Nat) (l : List Nat) (p : State × Segment) :
    (l.foldl (fun (p : State × Segment) t => extendSegment p.1 n p.2 k ((p.1.kTof t).getD k)) p).1.guard = p.1.guard := by
  induction l generalizing p with
  | nil => rfl
  | cons t l ih => rw [List.foldl_cons, ih, extendSegment_guard]

theorem resolveSegment_guard (s : State) (n : Nat) : (resolveSegment s n).guard = s.guard := by
  unfold resolveSegment
  split
  · rfl
  · dsimp only
    split
    · rfl
    · exact (extendAll_guard n _ _ _).trans rfl

theorem resolveDrops_guard (s : State) :
    (resolveDrops s).guard = s.guard := by
  unfold resolveDrops
  (repeat' split) <;> first
    | (refine (foldl_guard _ (fun s a => ?_) _ _).trans ?_ <;> grind [State.guard, makeGap_guard])
    | grind [State.guard, makeGap_guard]

theorem resolveTriggers_guard (s : State) :
    (resolveTriggers s).guard = s.guard := by
  unfold resolveTriggers
  grind [State.guard, closeSegments_guard, resolveDrops_guard, resolveSegment_guard]

theorem flushRawRun_guard (s : State) :
    (flushRawRun s).guard = s.guard := by
  unfold flushRawRun
  (repeat' split) <;> rfl

theorem rawDone_guard (s : State) :
    (rawDone s).guard = s.guard := by
  unfold rawDone
  grind [State.guard, flushRawRun_guard, recordDue_guard]

theorem rawUpdate_guard (s : State) (r : RawCap) :
    (rawUpdate s r).guard = s.guard := by
  unfold rawUpdate
  grind [State.guard, rawDone_guard]

theorem rawTrigger_guard (s : State) (n : Nat) (t : Trigger) :
    (rawTrigger s n t).guard = s.guard := by
  unfold rawTrigger
  grind [State.guard, rawUpdate_guard]

theorem openSegment_guard (s : State) (n : Nat) (t : Trigger) :
    (openSegment s n t).1.guard = s.guard := by
  unfold openSegment
  grind [State.guard, resolveDrops_guard, resolveSegment_guard]

theorem mergeTrigger_guard (s : State) (n : Nat) (seg : Segment) (t : Trigger) :
    (mergeTrigger s n seg t).guard = s.guard := by
  unfold mergeTrigger
  grind [State.guard, resolveSegment_guard]

theorem holdOff_guard (s : State) (n : Nat) (h : Option Hold) :
    (holdOff s n h).guard = s.guard := by
  rfl

theorem takeTrigger_guard (s : State) (n : Nat) (t : Trigger) :
    (takeTrigger s n t).1.guard = s.guard := by
  unfold takeTrigger
  grind [State.guard, closeSegment_guard, holdOff_guard, mergeTrigger_guard, openSegment_guard, rawTrigger_guard]

theorem trigger_guard (s : State) (n : Nat) (t : Trigger) :
    (trigger s n t).1.guard = s.guard := by
  unfold trigger
  grind [State.guard, takeTrigger_guard]

theorem zoneTrigger_guard (s : State) (onset seq : Nat) (b : ZBand) (pos : Nat) :
    (zoneTrigger s onset seq b pos).guard = s.guard := by
  unfold zoneTrigger
  grind [State.guard, trigger_guard]

theorem trigIn_guard (s : State) (m : TdcIn) :
    (trigIn s m).guard = s.guard := by
  unfold trigIn
  grind [State.guard, State.tdcEdge_guard, trigger_guard]

theorem zoneInterval_guard (s : State) (errs : List Nat) :
    (zoneInterval s errs).guard = s.guard := by
  unfold zoneInterval
  extract_lets best s1
  have h1 : s1.guard = s.guard := zoneErrors_guard _ _
  clear_value s1
  split
  · exact h1
  · exact (foldl_guard _ (fun s t => zoneTrigger_guard s _ _ _ _) _ _).trans ((zoneDecide_guard _ _ _).trans h1)

theorem rowCopy_guard (s : State) (n : Nat) (lost dram : List Nat) :
    (rowCopy s n lost dram).guard = s.guard := by
  unfold rowCopy
  extract_lets s1
  have h1 : s1.guard = s.guard := resolveTriggers_guard s
  clear_value s1
  split
  · exact h1
  split
  · exact h1
  split
  · split
    · exact (closeSegment_guard _ _ _).trans ((State.expire_guard _ _).trans h1)
    · exact h1
  split
  · exact h1
  · rename_i h
    exact (guard_mem s1 _ (copyRow_data h)).trans h1

theorem holdEnd_guard (s : State) (n : Nat) :
    (holdEnd s n).guard = s.guard := by
  unfold holdEnd
  grind [State.guard, State.expire_guard]

theorem rawFrame_guard (s : State) (samples : List Byte) (lost : Bool) :
    (rawFrame s samples lost).guard = s.guard := by
  unfold rawFrame
  have h1 : ∀ m : Mem, m.data = s.mem.data →
      ({ s.advance (s.acq.raw.next + 4096) with mem := m } : State).guard = s.guard := fun m h =>
    (guard_mem (s.advance (s.acq.raw.next + 4096)) m h).trans (State.advance_guard _ _)
  extract_lets r t0
  split
  · rfl
  · refine (rawUpdate_guard _ _).trans ?_
    split
    · exact h1 _ rfl
    · exact (flushRawRun_guard _).trans (h1 _ rfl)

theorem rawArmCmd_guard (s : State) (mode source tick f preF : Nat) :
    (rawArmCmd s mode source tick f preF).1.guard = s.guard := by
  unfold rawArmCmd
  (repeat' split) <;> rfl

theorem rawReleaseCmd_guard (s : State) :
    (rawReleaseCmd s).1.guard = s.guard := by
  unfold rawReleaseCmd
  grind [State.guard, flushRawRun_guard]

theorem recordCmd_guard (s : State) (instant : Option Nat) (range : Option (Nat × Nat)) :
    (recordCmd s instant range).1.guard = s.guard := by
  unfold recordCmd
  grind [State.guard, endSegment_guard, trigger_guard]

theorem recListCmd_guard (s : State) (first max : Nat) :
    (recListCmd s first max).1.guard = s.guard := by
  unfold recListCmd
  (repeat' split) <;> rfl

theorem recLockCmd_guard (s : State) (id : Nat) (on : Bool) :
    (recLockCmd s id on).1.guard = s.guard := by
  unfold recLockCmd
  (repeat' split) <;> rfl

theorem recDeleteCmd_guard (s : State) (id : Nat) :
    (recDeleteCmd s id).1.guard = s.guard := by
  unfold recDeleteCmd
  (repeat' split) <;> rfl

theorem acqStartRing_guard (s : State) :
    (acqStartRing s).guard = s.guard := by
  rfl

theorem cutSegment_guard (s : State) (n : Nat) :
    (cutSegment s n).guard = s.guard := by
  unfold cutSegment
  grind [State.guard, endSegment_guard, finishSegment_guard]

theorem acqEndRing_guard (s : State) :
    (acqEndRing s).guard = s.guard := by
  unfold acqEndRing
  grind [State.guard, cutSegment_guard, flushLost_guard, resolveTriggers_guard]

theorem acqClear_guard (s : State) :
    (acqClear s).guard = s.guard := by
  rfl

end Sys2Proof.Machine
end

