-- ==== Sys2Proof/Laws/GuardNet.lean ====
section
/-! SUPPORT. For each operation of streams, tillers and the ring: what it does to
`State.guard`: nothing (`_guard`), or a change that keeps the rules (`_keeps`). -/

namespace Sys2Proof.Machine

set_option linter.unusedTactic false
set_option linter.unreachableTactic false
set_option linter.unnecessarySeqFocus false
set_option linter.unusedVariables false
set_option linter.unusedSimpArgs false

/-! ### Operations of Machine/Streams.lean -/

theorem State.modStream_guard (s : State) (n : Nat) (f : Stream → Stream) :
    (State.modStream s n f).guard = s.guard := by
  rfl

theorem evalShed_guard (s : State) :
    (evalShed s).guard = s.guard := by
  unfold evalShed
  (repeat' split) <;> rfl

theorem State.holdFlags_guard (s : State) :
    (State.holdFlags s).guard = s.guard := by
  rfl

theorem dropFrames_guard (s : State) (n k : Nat) :
    (dropFrames s n k).guard = s.guard := by
  unfold dropFrames
  (repeat' split) <;> rfl

theorem takeFrame_guard (s : State) (n : Nat) (u : UnitInfo) (frag : Nat) (payload : List Byte) (qw : Nat) :
    (takeFrame s n u frag payload qw).2.guard = s.guard := by
  rfl

theorem enqueue_guard (s : State) (n : Nat) (f : Frame) (beat : Bool) :
    (enqueue s n f beat).guard = s.guard := by
  unfold enqueue
  (repeat' split) <;> first
    | (refine (foldl_guard _ (fun s a => ?_) _ _).trans ?_ <;> grind [State.guard, State.modPort_guard, State.modStream_guard, dropFrames_guard])
    | grind [State.guard, State.modPort_guard, State.modStream_guard, dropFrames_guard]

theorem frameFold_guard (n : Nat) (u : UnitInfo) (lost : Bool) (l : List (List Byte × Nat)) (p : State × Nat) :
    (l.foldl (fun (a : State × Nat) p =>
      let (f, t) := takeFrame a.1 n u a.2 p.1 p.2
      (if lost then dropFrames t n 1 else enqueue t n f false, a.2 + 1)) p).1.guard = p.1.guard := by
  induction l generalizing p with
  | nil => rfl
  | cons q l ih =>
    rw [List.foldl_cons, ih]
    have h := takeFrame_guard p.1 n u p.2 q.1 q.2
    cases lost
    · exact (enqueue_guard _ n _ false).trans h
    · exact (dropFrames_guard _ n 1).trans h

theorem formFrames_guard (s : State) (n : Nat) (u : UnitInfo) (frag : Nat) (parts : List (List Byte × Nat)) :
    (formFrames s n u frag parts).guard = s.guard := by
  unfold formFrames
  extract_lets s1 size full lost s2 s3
  split
  · exact State.modStream_guard s n _
  · have h2 : s2.guard = s1.guard := frameFold_guard n u lost parts (s1, frag)
    have h3 : s3.guard = s2.guard := by
      simp only [s3]; split
      · exact State.modStream_guard s2 n _
      · rfl
    exact (show _ = s3.guard from rfl).trans (h3.trans (h2.trans (State.modStream_guard s n _)))

theorem moveEpoch_guard (s : State) (n : Nat) :
    (moveEpoch s n).guard = s.guard := by
  unfold moveEpoch
  grind [State.guard, State.modStream_guard]

theorem arpEnsure_guard (s : State) (p : Nat) :
    (arpEnsure s p).guard = s.guard := by
  unfold arpEnsure
  (repeat' split) <;> first
    | (refine (foldl_guard _ (fun s a => ?_) _ _).trans ?_ <;> grind [State.guard, State.modPort_guard])
    | grind [State.guard, State.modPort_guard]

theorem handEvents_guard (s : State) (n : Nat) : (handEvents s n).guard = s.guard := by
  induction n generalizing s with
  | zero => rfl
  | succ n ih =>
    unfold handEvents
    split
    · rfl
    · rw [ih]; rfl

theorem startStream_guard (s : State) (n : Nat) :
    (startStream s n).guard = s.guard := by
  rfl

theorem applyStream_guard (s : State) (n req : Nat) (c : StreamRec) :
    (applyStream s n req c).guard = s.guard := by
  unfold applyStream
  grind [State.guard, State.setReq_guard, arpEnsure_guard, evalShed_guard, handEvents_guard, moveEpoch_guard, startStream_guard]

theorem unitBoundary_guard (s : State) (n : Nat) : (unitBoundary s n).guard = s.guard := by
  have hf : ∀ (l : List (Nat × StreamRec)) (s : State),
      (l.foldl (fun s (e : Nat × StreamRec) => applyStream s n e.1 e.2) s).guard = s.guard := by
    intro l
    induction l with
    | nil => exact fun _ => rfl
    | cons e l ih => intro s; rw [List.foldl_cons, ih, applyStream_guard]
  unfold unitBoundary
  dsimp only
  rw [moveEpoch_guard, hf, State.modStream_guard]

theorem dasRow_guard (s : State) (r : OutRow) :
    (dasRow s r).guard = s.guard := by
  unfold dasRow
  (repeat' split) <;> rfl

theorem pruneRows_guard (s : State) :
    (pruneRows s).guard = s.guard := by
  rfl

theorem dasForm_guard (s : State) (n : Nat) :
    (dasForm s n).guard = s.guard := by
  unfold dasForm
  grind [State.guard, State.modStream_guard, formFrames_guard, pruneRows_guard, unitBoundary_guard]

theorem formBytes_guard (s : State) (n stype : Nat) (u : StreamUnit) :
    (formBytes s n stype u).guard = s.guard := by
  unfold formBytes
  grind [State.guard, formFrames_guard]

theorem releaseOwned_guard (s : State) :
    (releaseOwned s).guard = s.guard := by
  rfl

theorem nextRecord_guard (s : State) (n : Nat) :
    (nextRecord s n).guard = s.guard := by
  unfold nextRecord
  grind [State.guard, State.modStream_guard]

theorem formRecord_guard (s : State) (n : Nat) :
    (formRecord s n).guard = s.guard := by
  unfold formRecord
  grind [State.guard, State.modStream_guard, evalShed_guard, formFrames_guard, releaseOwned_guard, unitBoundary_guard]

theorem formRaw_guard (s : State) (n : Nat) :
    (formRaw s n).guard = s.guard := by
  unfold formRaw
  grind [State.guard, State.modStream_guard, drawBytes_guard, formBytes_guard]

theorem rowForm_guard (s : State) (n : Nat) :
    (rowForm s n).guard = s.guard := by
  unfold rowForm
  grind [State.guard, State.modStream_guard, formBytes_guard, formRaw_guard, formRecord_guard, nextRecord_guard, unitBoundary_guard]

theorem eventForm_guard (s : State) (n : Nat) : (eventForm s n).guard = s.guard := by
  unfold eventForm
  grind [State.guard, unitBoundary_guard, handEvents_guard, formFrames_guard, State.modStream_guard]

theorem hkForm_guard (s : State) (n : Nat) :
    (hkForm s n).guard = s.guard := by
  unfold hkForm
  grind [State.guard, State.modStream_guard, formFrames_guard, unitBoundary_guard]

theorem heartbeat_guard (s : State) (n : Nat) :
    (heartbeat s n).guard = s.guard := by
  unfold heartbeat
  grind [State.guard, State.modStream_guard, dropFrames_guard, enqueue_guard, takeFrame_guard]

theorem charge_guard (s : State) (f : Frame) :
    (charge s f).guard = s.guard := by
  unfold charge
  (repeat' split) <;> rfl

theorem clearFull_guard (s : State) (n : Nat) :
    (clearFull s n).guard = s.guard := by
  unfold clearFull
  (repeat' split) <;> rfl

theorem takeDrops_guard (s : State) (f : Frame) :
    (takeDrops s f).2.guard = s.guard := by
  unfold takeDrops
  (repeat' split) <;> rfl

theorem sendFrame_guard (s : State) (p : Nat) (f : Frame) :
    (sendFrame s p f).guard = s.guard := by
  unfold sendFrame
  grind [State.guard, State.modPort_guard, takeDrops_guard]

theorem transmit_guard (s : State) (p : Nat) :
    (transmit s p).guard = s.guard := by
  unfold transmit
  grind [State.guard, State.modPort_guard, charge_guard, clearFull_guard, releaseOwned_guard, sendFrame_guard]

theorem portUp_guard (s : State) (p : Nat) :
    (portUp s p).guard = s.guard := by
  unfold portUp
  grind [State.guard, State.modPort_guard, arpEnsure_guard, evalShed_guard]

theorem takeOver_guard (s : State) (p n : Nat) (frames beats : List Frame) :
    (takeOver s p n frames beats).guard = s.guard := by
  unfold takeOver
  grind [State.guard, State.modPort_guard, dropFrames_guard]

theorem moveFrames_guard (s : State) (p n : Nat) (frames beats : List Frame) :
    (moveFrames s p n frames beats).guard = s.guard := by
  unfold moveFrames
  grind [State.guard, dropFrames_guard, takeOver_guard]

theorem losePart_guard (s : State) (p n : Nat) (frames : List Frame) :
    (losePart s p n frames).1.guard = s.guard := by
  unfold losePart
  grind [State.guard, State.modStream_guard, dropFrames_guard, unitBoundary_guard]

theorem losePartFold_guard (p : Nat) (g : Nat → List Frame) (ns : List Nat) (a : State × List Frame) :
    (ns.foldl (fun (a : State × List Frame) n =>
      let (s, l) := losePart a.1 p n (g n)
      (s, a.2 ++ l)) a).1.guard = a.1.guard := by
  induction ns generalizing a with
  | nil => rfl
  | cons n ns ih => rw [List.foldl_cons, ih]; exact losePart_guard _ _ _ _

theorem portDown_guard (s : State) (p : Nat) : (portDown s p).guard = s.guard := by
  unfold portDown
  split
  · rfl
  · rw [releaseOwned_guard]
    refine (foldl_guard _ (fun s n => (clearFull_guard _ n).trans (moveFrames_guard s p n _ _)) _ _).trans ?_
    rw [evalShed_guard]
    exact (losePartFold_guard p _ _ _).trans ((show _ = _ from rfl).trans (State.modPort_guard s p fun x => { x with
      up := false, frames := [], beats := [], msgs := [], linkDowns := satAdd 16 x.linkDowns 1 }))

theorem arpIn_guard (s : State) (p : Nat) (x : RxMeta) (isReply : Bool) (ip mac target : Nat) :
    (arpIn s p x isReply ip mac target).guard = s.guard := by
  unfold arpIn
  grind [State.guard, State.discard_guard, State.modPort_guard, State.received_guard]

theorem dropUnresolved_guard (s : State) (p : Nat) :
    (dropUnresolved s p).guard = s.guard := by
  unfold dropUnresolved
  (repeat' split) <;> first
    | (refine (foldl_guard _ (fun s a => ?_) _ _).trans ?_ <;> grind [State.guard, State.modPort_guard, clearFull_guard, dropFrames_guard, releaseOwned_guard])
    | grind [State.guard, State.modPort_guard, clearFull_guard, dropFrames_guard, releaseOwned_guard]

theorem arpTimer_guard (s : State) (p n : Nat) :
    (arpTimer s p n).guard = s.guard := by
  unfold arpTimer
  grind [State.guard, State.modPort_guard, dropUnresolved_guard]

theorem icmpIn_guard (s : State) (p : Nat) (x : RxMeta) (srcMac srcIp dst : Nat) (payload : List Byte) :
    (icmpIn s p x srcMac srcIp dst payload).guard = s.guard := by
  unfold icmpIn
  (repeat' split) <;> rfl

theorem rxDiscard_guard (s : State) (p : Nat) (x : RxMeta) :
    (rxDiscard s p x).guard = s.guard := by
  unfold rxDiscard
  (repeat' split) <;> rfl

theorem netAcqStart_guard (s : State) :
    (netAcqStart s).guard = s.guard := by
  unfold netAcqStart
  grind [State.guard, drawBytes_guard, evalShed_guard]

theorem netAcqEnd_guard (s : State) :
    (netAcqEnd s).guard = s.guard := by
  unfold netAcqEnd
  (repeat' split) <;> first
    | (refine (foldl_guard _ (fun s a => ?_) _ _).trans ?_ <;> grind [State.guard, unitBoundary_guard])
    | grind [State.guard, unitBoundary_guard]

theorem recSendCmd_guard (s : State) (n id : Nat) :
    (recSendCmd s n id).1.guard = s.guard := by
  unfold recSendCmd
  grind [State.guard, State.modStream_guard]

/-! ### Operations of Machine/Tillers.lean -/

theorem State.setTiller_guard (s : State) (i : Nat) (t : TState) :
    (State.setTiller s i t).guard = s.guard := by
  rfl

theorem dealShots_guard (s : State) (l : List (Nat × Nat)) : (dealShots s l).guard = s.guard := by
  induction l generalizing s with
  | nil => rfl
  | cons a l ih =>
    simp only [dealShots]
    (repeat' split) <;> first | rfl | exact ih s | (rw [ih]; rfl)

theorem dispatchPass_guard (s : State) (t : Nat) : (dispatchPass s t).guard = s.guard := dealShots_guard _ _

theorem dealBlock_guard (s : State) (b : Nat) :
    (dealBlock s b).guard = s.guard := by
  unfold dealBlock
  grind [State.guard]

theorem dealMore_guard (s : State) : (dealMore s).guard = s.guard :=
  (dealShots_guard _ _).trans (foldl_guard _ (fun s b => dealBlock_guard s b) _ _)

theorem startSheaf_guard (s : State) (i n : Nat) (h : Sheaf) :
    (startSheaf s i n h).guard = s.guard := by
  unfold startSheaf
  grind [State.guard, State.setTiller_guard, dealMore_guard, qsSheafTaken_guard]

theorem startGlean_guard (s : State) (i : Nat) :
    (startGlean s i).guard = s.guard := by
  unfold startGlean
  grind [State.guard, State.setTiller_guard, noteRun_guard]

theorem tillerTake_guard (s : State) (i : Nat) :
    (tillerTake s i).guard = s.guard := by
  unfold tillerTake
  grind [State.guard, startGlean_guard, startSheaf_guard]

theorem noteTrained_guard (s : State) (b r slots : Nat) :
    (noteTrained s b r slots).guard = s.guard := by
  unfold noteTrained
  grind [State.guard, qsTrained_guard]

theorem reviewTrained_guard (s : State) :
    (reviewTrained s).guard = s.guard := by
  unfold reviewTrained
  (repeat' split) <;> rfl

theorem posStateErr_guard (s : State) (b words : Nat) :
    (posStateErr s b words).guard = s.guard := by
  unfold posStateErr
  (repeat' split) <;> rfl

theorem seedCopy_guard (s : State) (sh : Shot) (b : Nat) (o : ShotOut) :
    (seedCopy s sh b o).guard = s.guard := by
  unfold seedCopy
  (repeat' split) <;> rfl

theorem shotEffects_guard (s : State) (sh : Shot) (b : Nat) (o : ShotOut) :
    (shotEffects s sh b o).guard = s.guard := by
  unfold shotEffects
  grind [State.guard, noteTrained_guard, qsContribute_guard, seedCopy_guard]

theorem commitShot_guard (s : State) (sh : Shot) (b : Nat) (inp : SheafIn) :
    (commitShot s sh b inp).guard = s.guard := by
  unfold commitShot
  grind [State.guard, posStateErr_guard, profileCommit_guard, shotEffects_guard]

theorem firstOfOutput_guard (s : State) (q : Nat) :
    (firstOfOutput s q).guard = s.guard := by
  unfold firstOfOutput
  (repeat' split) <;> first
    | (refine (foldl_guard _ (fun s a => ?_) _ _).trans ?_ <;> grind [State.guard, advanceXfade_guard, zoneAmend_guard])
    | grind [State.guard, advanceXfade_guard, zoneAmend_guard]

theorem outputRow_guard (s : State) (b q : Nat) (g : Grid) (settling lost : Bool) (y : List Int) (fl : List Nat) :
    (outputRow s b q g settling lost y fl).guard = s.guard := by
  unfold outputRow
  grind [State.guard, dasRow_guard, historyRow_guard, noteOutput_guard, resolveTriggers_guard, zoneRow_guard]

theorem blockRow_guard (s : State) (b : Nat) (inp : SheafIn) (row : Row) :
    (blockRow s b inp row).guard = s.guard := by
  unfold blockRow
  grind [State.guard, firstOfOutput_guard, outputRow_guard]

theorem commitBlock_guard (s : State) (b : Nat) (batch : List Row) (inp : SheafIn) :
    (commitBlock s b batch inp).guard = s.guard := by
  have hf : ∀ (l : List Row) (s : State), (l.foldl (fun s row => blockRow s b inp row) s).guard = s.guard :=
    fun l s => foldl_guard _ (fun s row => blockRow_guard s b inp row) l s
  unfold commitBlock
  grind [State.guard, posStateErr_guard, qsSheafCommit_guard, dealBlock_guard]

theorem commitSheaf_guard (s : State) (i : Nat) (inp : SheafIn) :
    (commitSheaf s i inp).guard = s.guard := by
  unfold commitSheaf
  grind [State.guard, State.setTiller_guard, commitBlock_guard, commitShot_guard]

theorem dropShots_guard (s : State) :
    (dropShots s).guard = s.guard := by
  rfl

theorem release_guard (s : State) (b : Nat) (row : Row) :
    (release s b row).guard = s.guard := by
  unfold release
  grind [State.guard, dealBlock_guard, dropShots_guard, profileRelease_guard]

theorem winnowRelease_guard (s : State) (b : Nat) :
    (winnowRelease s b).guard = s.guard := by
  unfold winnowRelease
  grind [State.guard, release_guard]

theorem releaseDeadline_guard (s : State) (b : Nat) :
    (releaseDeadline s b).guard = s.guard := by
  unfold releaseDeadline
  grind [State.guard, State.expire_guard, release_guard]

theorem abandon_guard (s : State) (r b : Nat) :
    (abandon s r b).guard = s.guard := by
  unfold abandon
  grind [State.guard, State.askRestart_guard, State.expire_guard, dealMore_guard, dropShots_guard]

theorem evalThin_guard (s : State) :
    (evalThin s).guard = s.guard := by
  unfold evalThin
  (repeat' split) <;> rfl

theorem applyThin_guard (s : State) (r : Nat) (v : Nat × Nat × Bool) :
    (applyThin s r v).guard = s.guard := by
  unfold applyThin
  grind [State.guard, State.log_guard, reviewTrained_guard]

theorem moveQueue_guard (s : State) (n : Nat) :
    (moveQueue s n).guard = s.guard := by
  unfold moveQueue
  (repeat' split) <;> first
    | (refine (foldl_guard _ (fun s a => ?_) _ _).trans ?_ <;> grind [State.guard])
    | grind [State.guard]

theorem retireTiller_guard (s : State) (i : Nat) :
    (retireTiller s i).guard = s.guard := by
  unfold retireTiller
  grind [State.guard, evalThin_guard, moveQueue_guard]

theorem abortSheaf_guard (s : State) (i cause : Nat) :
    (abortSheaf s i cause).guard = s.guard := by
  unfold abortSheaf
  (repeat' split) <;> rfl

theorem katDone_guard (s : State) (i : Nat) (pass : Bool) :
    (katDone s i pass).guard = s.guard := by
  unfold katDone
  grind [State.guard, State.lasting_guard, State.setTiller_guard, State.transient_guard, retireTiller_guard]

/-! ### Operations of Machine/Ring.lean -/

theorem restartTraining_guard (s : State) (r m j : Nat) (l : List (Option (List Nat) × Bool)) :
    (restartTraining s r m j l).guard = s.guard := by
  unfold restartTraining
  (repeat' split) <;> first
    | (refine (foldl_guard _ (fun s a => ?_) _ _).trans ?_ <;> grind [State.guard, qsRestartBlock_guard])
    | grind [State.guard, qsRestartBlock_guard]

theorem takeSchedule_guard (s : State) (st : StateBody) :
    (takeSchedule s st).guard = s.guard := by
  unfold takeSchedule
  grind [State.guard, dtsRealign_guard]

theorem gridOnMaster_guard (s : State) (ns r : Nat) :
    (gridOnMaster s ns r).guard = s.guard := by
  rfl

theorem epochRealign_guard (s : State) (st : StateBody) :
    (epochRealign s st).guard = s.guard := by
  unfold epochRealign
  grind [State.guard, internalRestart_guard, qsResetWindows_guard, takeSchedule_guard]

theorem realignBoundary_guard (s : State) (r : Nat) :
    (realignBoundary s r).1.guard = s.guard := by
  unfold realignBoundary
  grind [State.guard, gridOnMaster_guard]

theorem installChunk_guard (s : State) (r : Nat) (c : SeedChunk) :
    (installChunk s r c).guard = s.guard := by
  unfold installChunk
  grind [State.guard, State.sendRing_guard, noteTrained_guard]

theorem installSeeds_guard (s : State) (r : Nat) :
    (installSeeds s r).guard = s.guard := by
  unfold installSeeds
  (repeat' split) <;> first
    | (refine (foldl_guard _ (fun s a => ?_) _ _).trans ?_ <;> grind [State.guard, installChunk_guard])
    | grind [State.guard, installChunk_guard]

theorem muteShots_guard (s : State) (lo hi : Nat) :
    (muteShots s lo hi).guard = s.guard := by
  rfl

theorem abortSeeding_guard (s : State) :
    (abortSeeding s).guard = s.guard := by
  unfold abortSeeding
  (repeat' split) <;> rfl

theorem joinNow_guard (s : State) :
    (joinNow s).guard = s.guard := by
  unfold joinNow
  (repeat' split) <;> rfl

theorem roleBoundary_keeps (s : State) (r : Nat) : Keeps s (roleBoundary s r).1 := by
  have ha : (abortSeeding s.holdFlags).guard = s.guard := (abortSeeding_guard _).trans (State.holdFlags_guard s)
  unfold roleBoundary
  split
  · exact Keeps.refl s
  · dsimp only
    split
    · refine Keeps.of_guard ?_
      split
      · exact (guard_cas _ _).trans ha
      · exact (guard_cas _ _).trans ((muteShots_guard _ _ _).trans ha)
    · generalize abortSeeding s.holdFlags = t at ha
      have hk : ∀ c : Cas, Keeps s { t with pads := { t.pads with muted := true, gate := false, gateDts := false, chirp := none }, cas := c } := by
        intro c
        refine (Keeps.of_guard ha).trans (Keeps.mk' rfl fun o => ?_)
        obtain ⟨h1, h2, h3, h4, h5, h6, h7, h8, h9, h0⟩ := o
        simp only [State.guard, Guard.emits] at *
        constructor <;> simp_all [Guard.emits]
      split
      · exact (hk _).trans (Keeps.of_guard (State.sendRing_guard _ _))
      · exact hk _

theorem settleRole_guard (s : State) :
    (settleRole s).guard = s.guard := by
  unfold settleRole
  grind [State.guard, State.holdFlags_guard, State.sendRing_guard, abortSeeding_guard]

end Sys2Proof.Machine
end

