-- ==== Sys2Proof/Laws/GuardLaser.lean ====
section
/-! SUPPORT. For each operation of the laser chain, amendments and the launch schedule: what it does to
`State.guard`: nothing (`_guard`), or a change that keeps the rules (`_keeps`). -/

namespace Sys2Proof.Machine

set_option linter.unusedTactic false
set_option linter.unreachableTactic false
set_option linter.unnecessarySeqFocus false
set_option linter.unusedVariables false
set_option linter.unusedSimpArgs false

/-! ### Operations of Machine/Laser.lean -/

theorem armStart_keeps (s : State) (again : Bool) (hp : s.pwr.phase = .acquisition ∨ s.pwr.phase = .stopping)
    (ha : s.prb.arm = .off ∨ s.prb.arm = .tripped ∨ s.prb.arm = .waitIlk) : Keeps s (armStart s again) := by
  unfold armStart State.emits
  extract_lets r1 s1
  refine (Keeps.of_guard (s := s) (t := s1) rfl).trans ?_
  replace hp : s1.pwr.phase = .acquisition ∨ s1.pwr.phase = .stopping := hp
  replace ha : s1.prb.arm = .off ∨ s1.prb.arm = .tripped ∨ s1.prb.arm = .waitIlk := ha
  clear_value s1
  refine Keeps.mk' (by split <;> [rfl; (split <;> rfl)]) fun o => ?_
  obtain ⟨h1, h2, h3, h4, h5, h6, h7, h8, h9, h0⟩ := o
  simp only [State.guard, Guard.emits] at *
  split
  · constructor <;> grind [Guard.emits]
  · split <;> constructor <;> grind [Guard.emits]

theorem armTripped_cases (s : State) : s.emits = false ∧ armTripped s = s.prb.arm ∨
    s.emits = true ∧ (s.prb.arm = .off ∧ armTripped s = .off ∨ s.prb.arm ≠ .off ∧ (armTripped s = .waitIlk ∨ armTripped s = .tripped)) := by
  unfold armTripped
  grind

theorem ilkLow_keeps (s : State) : Keeps s (ilkLow s) := by
  unfold ilkLow
  split
  · exact Keeps.of_guard rfl
  · refine Keeps.trans (Keeps.mk' (t := { s with
      pads := { s.pads.dark with ilkN := false }
      prb := { s.prb with
        ilkOk := false, ilkTripped := true, launching := false, arm := armTripped s, rearm := s.prb.epoch.isSome
        int := s.prb.int.raise 0 } }) rfl fun o => ?_) (Keeps.of_guard (State.log_guard _ _ _ _ _))
    obtain ⟨h1, h2, h3, h4, h5, h6, h7, h8, h9, h0⟩ := o
    have hc := armTripped_cases s
    simp only [State.emits, Bool.and_eq_true, beq_iff_eq, bne_iff_ne, Bool.and_eq_false_iff, beq_eq_false_iff_ne, bne_eq_false_iff_eq] at hc
    simp only [State.guard, Guard.emits, Pads.dark] at *
    constructor <;> grind [Guard.emits]

theorem ilkQualify_keeps (s : State) : Keeps s (ilkQualify s) := by
  unfold ilkQualify
  split
  · exact Keeps.refl s
  · dsimp only
    have hk : Keeps s { s with
        pads := { s.pads with ilkN := true }
        prb := { s.prb with ilkOk := true, ilkTripped := false, int := s.prb.int.raiseIf s.prb.ilkTripped 1 } } := by
      refine Keeps.mk' rfl fun o => ?_
      obtain ⟨h1, h2, h3, h4, h5, h6, h7, h8, h9, h0⟩ := o
      simp only [State.guard, Guard.emits] at *
      constructor <;> grind [Guard.emits]
    split
    · rename_i ha
      intro o
      refine hk.trans (armStart_keeps _ _ ?_ (.inr (.inr ha))) o
      have h := (hk o).1.idle
      simp only [State.guard] at h ha ⊢
      grind
    · exact hk

theorem ampOn_keeps (s : State) : Keeps s (ampOn s) := by
  unfold ampOn State.emits
  split
  · exact Keeps.refl s
  · refine Keeps.mk' rfl fun o => ?_
    obtain ⟨h1, h2, h3, h4, h5, h6, h7, h8, h9, h0⟩ := o
    simp only [State.guard, Guard.emits] at *
    constructor <;> grind [Guard.emits]

theorem settleEnd_keeps (s : State) : Keeps s (settleEnd s) := by
  unfold settleEnd
  split
  · exact Keeps.refl s
  · dsimp only
    have hk : Keeps s { s with prb := { s.prb with arm := if s.emits then .waitLaunch else .off } } := by
      refine Keeps.mk' rfl fun o => ?_
      obtain ⟨h1, h2, h3, h4, h5, h6, h7, h8, h9, h0⟩ := o
      simp only [State.guard, Guard.emits, State.emits] at *
      constructor <;> grind [Guard.emits]
    split
    · exact hk
    · split
      · split
        · exact hk.trans (Keeps.of_guard ((gridOnMaster_guard _ _ _).trans (takeSchedule_guard _ _)))
        · exact hk
      · exact hk

theorem setEpoch_guard (s : State) :
    (setEpoch s).guard = s.guard := by
  unfold setEpoch
  (repeat' split) <;> rfl

theorem ampSettleEnd_keeps (s : State) : Keeps s (ampSettleEnd s) := by
  unfold ampSettleEnd
  split
  · exact Keeps.refl s
  · exact (settleEnd_keeps s).trans (Keeps.of_guard (setEpoch_guard _))

theorem laserArm_keeps (s : State) : Keeps s (laserArm s).1 := by
  unfold laserArm
  split
  · exact Keeps.refl s
  · split
    · rename_i h
      refine armStart_keeps s _ (.inl ?_) (.inr (.inl h.1))
      have := h.2
      unfold State.acquiring at this
      exact State.acquiring_phase (by simpa using this)
    · exact Keeps.refl s

theorem lmonMeasure_guard (s : State) (d : Nat) :
    (lmonMeasure s d).guard = s.guard := by
  unfold lmonMeasure
  grind [State.guard]

theorem launchMonEdge_guard (s : State) (m : TdcIn) :
    (launchMonEdge s m).guard = s.guard := by
  unfold launchMonEdge
  grind [State.guard, State.tdcEdge_guard, lmonMeasure_guard]

theorem lmonWindowEnd_guard (s : State) :
    (lmonWindowEnd s).guard = s.guard := by
  unfold lmonWindowEnd
  (repeat' split) <;> rfl

theorem lmonShift_guard (s : State) :
    (lmonShift s).guard = s.guard := by
  unfold lmonShift
  grind [State.guard]

theorem amendDone_guard (s : State) (req index : Nat) :
    (amendDone s req index).guard = s.guard := by
  rfl

theorem dtsDiscardAt_guard (s : State) (m : Nat) :
    (dtsDiscardAt s m).guard = s.guard := by
  unfold dtsDiscardAt
  grind [State.guard, dtsDiscard_guard]

theorem applyProbe_guard (s : State) (q : ProbeRec) (r m : Nat) :
    (applyProbe s q r m).guard = s.guard := by
  unfold applyProbe
  grind [State.guard, dtsDiscardAt_guard, evalThin_guard, internalRestart_guard, qsClearRefs_guard, qsResetWindows_guard]

theorem probeBoundary_guard (s : State) (r m : Nat) :
    (probeBoundary s r m).1.guard = s.guard := by
  unfold probeBoundary
  (repeat' split) <;> first
    | (refine (foldl_guard _ (fun s a => ?_) _ _).trans ?_ <;> grind [State.guard, amendDone_guard, applyProbe_guard])
    | grind [State.guard, amendDone_guard, applyProbe_guard]

theorem windowBoundary_guard (s : State) (t r : Nat) (withProbe : Bool) :
    (windowBoundary s t r withProbe).1.guard = s.guard := by
  unfold windowBoundary
  grind [State.guard, amendDone_guard, qsClearRefs_guard]

theorem phaseBoundary_guard (s : State) (t r : Nat) (joined : Bool) :
    (phaseBoundary s t r joined).1.guard = s.guard := by
  unfold phaseBoundary
  grind [State.guard, amendDone_guard, internalRestart_guard]

theorem decApply_guard (s : State) (r : Nat) (a : PendAmend) :
    (decApply s r a).guard = s.guard := by
  unfold decApply
  grind [State.guard, amendDone_guard, internalRestart_guard]

theorem decBoundary_guard (s : State) (t r : Nat) :
    (decBoundary s t r).guard = s.guard := by
  unfold decBoundary
  (repeat' split) <;> first
    | (refine (foldl_guard _ (fun s a => ?_) _ _).trans ?_ <;> grind [State.guard, decApply_guard])
    | grind [State.guard, decApply_guard]

theorem qsBoundary_guard (s : State) (t r m : Nat) :
    (qsBoundary s t r m).guard = s.guard := by
  unfold qsBoundary
  (repeat' split) <;> first
    | (refine (foldl_guard _ (fun s a => ?_) _ _).trans ?_ <;> grind [State.guard, amendDone_guard, qsResetWindows_guard])
    | grind [State.guard, amendDone_guard, qsResetWindows_guard]

theorem dtsBoundary_guard (s : State) (t r m : Nat) :
    (dtsBoundary s t r m).guard = s.guard := by
  unfold dtsBoundary
  (repeat' split) <;> first
    | (refine (foldl_guard _ (fun s a => ?_) _ _).trans ?_ <;> grind [State.guard, amendDone_guard, dtsDiscard_guard])
    | grind [State.guard, amendDone_guard, dtsDiscard_guard]

theorem amendBoundary_guard (s : State) (t r m : Nat) :
    (amendBoundary s t r m).1.guard = s.guard := by
  unfold amendBoundary
  (repeat' split) <;> first
    | (refine (foldl_guard _ (fun s a => ?_) _ _).trans ?_ <;> grind [State.guard, decBoundary_guard, dtsBoundary_guard, phaseBoundary_guard, probeBoundary_guard, qsBoundary_guard, rxfBoundary_guard, windowBoundary_guard])
    | grind [State.guard, decBoundary_guard, dtsBoundary_guard, phaseBoundary_guard, probeBoundary_guard, qsBoundary_guard, rxfBoundary_guard, windowBoundary_guard]

theorem amendAtStart_guard (s : State) : (amendAtStart s).guard = s.guard := by
  have hf : ∀ (l : List Nat) (s : State), (l.foldl (fun s q => amendDone s q 0) s).guard = s.guard :=
    fun l s => foldl_guard _ (fun s q => amendDone_guard s q 0) l s
  unfold amendAtStart
  lift_lets
  intro c probe window phase dec qs dts zon reqs restart clear ready
  clear_value probe window phase dec qs dts zon reqs restart clear ready
  grind [State.guard, rxfBoundary_guard, qsClearRefs_guard]

theorem tablesReady_guard (s : State) :
    (tablesReady s).guard = s.guard := by
  unfold tablesReady
  (repeat' split) <;> rfl

theorem endLaunches_keeps (s : State) (t : Nat) : Keeps s (endLaunches s t) := by
  have hd := dispatchPass_guard s t
  unfold endLaunches
  dsimp only
  generalize dispatchPass s t = u at hd
  refine (Keeps.of_guard hd).trans (Keeps.trans (Keeps.mk' ?_ fun o => ?_) (Keeps.of_guard (dropShots_guard _)))
  · rfl
  · obtain ⟨h1, h2, h3, h4, h5, h6, h7, h8, h9, h0⟩ := o
    simp only [State.guard, Guard.emits, Pads.dark] at *
    constructor <;> grind [Guard.emits]

theorem addShot_guard (s : State) (sh : Shot) :
    (addShot s sh).guard = s.guard := by
  rfl

theorem lightOn_keeps (s : State) (r m j t : Nat) : Keeps s (lightOn s r m j t) := by
  unfold lightOn
  split
  · exact Keeps.refl s
  · dsimp only
    have hk : ∀ q : Bool, Keeps s { s with prb := { s.prb with
      arm := .armed, launching := true, launched := true, int := s.prb.int.raiseIf q 2 } } := by
      intro q
      refine Keeps.mk' rfl fun o => ?_
      obtain ⟨h1, h2, h3, h4, h5, h6, h7, h8, h9, h0⟩ := o
      simp only [State.guard, Guard.emits] at *
      constructor <;> grind [Guard.emits]
    have h2 := (hk s.drives).trans (Keeps.of_guard (rxfLaunchBegin_guard _ t))
    split
    · exact h2.trans (Keeps.of_guard (guard_cas _ _))
    · exact h2.trans (Keeps.of_guard (restartTraining_guard _ _ _ _ _))

theorem launchAt_keeps (s : State) (r m j t : Nat) (raman : List (Nat × Nat)) : Keeps s (launchAt s r m j t raman) := by
  unfold launchAt
  lift_lets
  intro s1 s2 p lit out slot sh s3 measured dts last
  have k1 : Keeps s s1 := Keeps.of_guard (State.advance_guard _ _)
  have k2 : Keeps s s2 := k1.trans ((Keeps.of_guard (dispatchPass_guard s1 t)).trans (lightOn_keeps _ r m j t))
  have g3 : s3.guard = s2.guard := addShot_guard s2 sh
  have hout : out = true → s3.prb.arm = .armed := by
    intro h
    have : s3.prb.arm = s2.prb.arm := congrArg Guard.arm g3
    simp only [out, lit, Bool.and_eq_true, beq_iff_eq] at h
    rw [this]; exact h.1
  have hdts : dts = true → out = true := by
    intro h; simp only [dts, Bool.and_eq_true] at h; exact h.1.1
  clear_value out dts measured last s3 s2 slot sh p
  intro srcA srcB s4
  have k4 : Keeps s3 s4 := by
    refine Keeps.mk' rfl fun o => ?_
    obtain ⟨h1, h2, h3, h4, h5, h6, h7, h8, h9, h0⟩ := o
    simp only [s4, srcA, srcB]
    clear k1 k2 g3
    simp only [State.guard, Guard.emits] at *
    constructor <;> grind [Guard.emits]
  have k5 := (k2.trans (Keeps.of_guard g3)).trans k4
  split
  · exact k5.trans (Keeps.of_guard (dtsTrace_guard _ _ _ _ _))
  · exact k5

/-! ### Operations of Machine/Amend.lean -/

theorem State.supersede_guard (s : State) (a : Option PendAmend) :
    (State.supersede s a).guard = s.guard := by
  unfold State.supersede
  (repeat' split) <;> rfl

theorem acceptRec_guard (s : State) (req : Nat) (c : Conf) (type inst : Nat) :
    (acceptRec s req c type inst).1.guard = s.guard := by
  unfold acceptRec
  grind [State.guard, State.modStream_guard, State.setReq_guard, State.supersede_guard, amendDone_guard, applyStream_guard, State.cmpAmend_guard]

theorem acceptZones_guard (s : State) (req : Nat) (c : Conf) :
    (acceptZones s req c).1.guard = s.guard := by
  unfold acceptZones
  grind [State.guard, State.supersede_guard]

theorem acceptFold_guard (req : Nat) (c : Conf) (l : List RawRec) (p : State × Bool × Nat) :
    (l.foldl (fun (a : State × Bool × Nat) r =>
      let (t, w, i) := acceptRec a.1 req c r.type r.inst
      (t, a.2.1 || w, max a.2.2 i)) p).1.guard = p.1.guard := by
  induction l generalizing p with
  | nil => rfl
  | cons r l ih => rw [List.foldl_cons, ih]; exact acceptRec_guard p.1 req c r.type r.inst

theorem acceptGroup_guard (s : State) (req : Nat) (c : Conf) (recs : List RawRec) :
    (acceptGroup s req c recs).1.guard = s.guard := by
  unfold acceptGroup
  split
  · exact acceptZones_guard s req c
  · exact acceptFold_guard req c recs (s, false, 0)

theorem refuseAmend_guard (s : State) (req : Nat) (r : Result) (data : List Byte) :
    (refuseAmend s req r data).1.guard = s.guard := by
  rfl

theorem commitAmend_guard (s : State) (c : Committed) :
    (commitAmend s c).guard = s.guard := by
  unfold commitAmend
  grind [State.guard, State.setReq_guard, acceptGroup_guard]

theorem sendJoin_guard (s : State) :
    (sendJoin s).guard = s.guard := by
  unfold sendJoin
  grind [State.guard, State.sendRing_guard]

theorem rejoin_guard (s : State) :
    (rejoin s).guard = s.guard := by
  unfold rejoin
  grind [State.guard, sendJoin_guard]

theorem commitOwn_guard (s : State) (req : Nat) (recs : List GroupRec) :
    (commitOwn s req recs).1.guard = s.guard := by
  unfold commitOwn
  grind [State.guard, State.sendRing_guard, commitAmend_guard]

theorem submitGroup_guard (s : State) (x : Session) (seq req : Nat) (recs : List GroupRec) :
    (submitGroup s x seq req recs).1.guard = s.guard := by
  have hf : ∀ (l : List GroupRec) (s : State),
      (l.foldl (fun s g => s.sendRing (.amendProp g.type g.inst g.body)) s).guard = s.guard :=
    fun l s => foldl_guard _ (fun s g => State.sendRing_guard s _) l s
  unfold submitGroup
  grind [State.guard, refuseAmend_guard, commitOwn_guard, acceptGroup_guard, rejoin_guard]

theorem amendPart_guard (s : State) (x : Session) (seq type inst : Nat) (more : Bool) (group : Nat) (body : List Byte) :
    (amendPart s x seq type inst more group body).1.guard = s.guard := by
  unfold amendPart
  grind [State.guard, State.modSession_guard, State.newReq_guard, submitGroup_guard]

theorem dropPending_guard (s : State) :
    (dropPending s).guard = s.guard := by
  unfold dropPending
  (repeat' split) <;> first
    | (refine (foldl_guard _ (fun s a => ?_) _ _).trans ?_ <;> grind [State.guard, State.setReq_guard, supersedeSwap_guard])
    | grind [State.guard, State.setReq_guard, supersedeSwap_guard]

/-! ### Operations of Machine/Launch.lean -/

theorem commitOne_guard (t : Nat) (s : State) (c : Committed) :
    (commitOne t s c).guard = s.guard := by
  unfold commitOne
  grind [State.guard, State.setReq_guard, acceptGroup_guard]

theorem commitBoundary_guard (s : State) (t m : Nat) :
    (commitBoundary s t m).guard = s.guard := by
  unfold commitBoundary
  (repeat' split) <;> first
    | (refine (foldl_guard _ (fun s a => ?_) _ _).trans ?_ <;> grind [State.guard, commitOne_guard])
    | grind [State.guard, commitOne_guard]

theorem moveTrainEnd_guard (s : State) (r m k : Nat) :
    (moveTrainEnd s r m k).guard = s.guard := by
  unfold moveTrainEnd
  (repeat' split) <;> rfl

theorem thinBoundary_guard (s : State) (r m : Nat) :
    (thinBoundary s r m).guard = s.guard := by
  unfold thinBoundary
  grind [State.guard, applyThin_guard, moveTrainEnd_guard]

theorem restartsDue_guard (s : State) (t : Nat) :
    (restartsDue s t).1.guard = s.guard := by
  rfl

theorem clearLost_guard (s : State) : (clearLost s).guard = s.guard := by
  unfold clearLost
  grind [State.guard, qsClearRefs_guard]

theorem sendState_guard (s : State) (m : Nat) :
    (sendState s m).guard = s.guard := by
  unfold sendState
  grind [State.guard, State.sendRing_guard]

theorem boundaryGo_keeps (s : State) (t r m : Nat) : Keeps s (boundaryGo s t r m) := by
  unfold boundaryGo
  extract_lets p1 s1 s2
  have k2 : Keeps s s2 := Keeps.of_guard ((installSeeds_guard s1 r).trans ((dtsBoundaryClose_guard _ _).trans rfl))
  have kr := k2.trans (roleBoundary_keeps s2 r)
  generalize roleBoundary s2 r = x at kr
  obtain ⟨s3, cold⟩ := x
  dsimp only at kr ⊢
  have gr := realignBoundary_guard s3 r
  generalize realignBoundary s3 r = x at gr
  obtain ⟨s4, again⟩ := x
  dsimp only at gr ⊢
  have g5 : (commitBoundary (thinBoundary s4 r m) t m).guard = s3.guard :=
    (commitBoundary_guard _ _ _).trans ((thinBoundary_guard _ _ _).trans gr)
  generalize commitBoundary (thinBoundary s4 r m) t m = s5 at g5
  have g6 := amendBoundary_guard s5 t r m
  generalize amendBoundary s5 t r m = x at g6
  obtain ⟨s6, amended⟩ := x
  dsimp only at g6 ⊢
  have g7 := (restartsDue_guard (clearLost s6) t).trans (clearLost_guard s6)
  generalize restartsDue (clearLost s6) t = x at g7
  obtain ⟨s7, asked⟩ := x
  dsimp only at g7 ⊢
  refine kr.trans (Keeps.of_guard ?_)
  rw [qsStartAll_guard, rejoin_guard, sendState_guard, zonGridSync_guard, syncBoundary_guard, lmonShift_guard, beyondBoundary_guard,
    restartTraining_guard, g7, g6, g5]

theorem boundary_keeps (s : State) : Keeps s (boundary s) := by
  unfold boundary
  split
  · exact Keeps.refl s
  · split
    · exact Keeps.refl s
    · dsimp only
      have hj : ∀ x : Tim, (joinNow { s with tim := x }).guard = s.guard := fun x => (joinNow_guard _).trans rfl
      split
      · exact (Keeps.of_guard (hj _)).trans (endLaunches_keeps _ _)
      · split
        · exact (Keeps.of_guard (hj _)).trans (Keeps.of_guard (epochRealign_guard _ _))
        · exact (Keeps.of_guard (hj _)).trans (boundaryGo_keeps _ _ _ _)

theorem launchPosition_keeps (s : State) (raman : List (Nat × Nat)) : Keeps s (launchPosition s raman) := by
  unfold launchPosition
  have k : Keeps s (if s.prb.j = 0 then boundary s else s) := by
    split
    · exact boundary_keeps s
    · exact Keeps.refl s
  dsimp only
  generalize (if s.prb.j = 0 then boundary s else s) = t at k
  split
  · exact k
  · exact k.trans (launchAt_keeps _ _ _ _ _ _)

theorem pathStart_guard (s : State) :
    (pathStart s).guard = s.guard := by
  rfl

/-- Acquisition begins with everything started, in phase acquisition, and the laser chain still as it was; then it is armed (20 R428). -/
theorem acqBegin_reaches (s : State) :
    ∃ u : State, acqBegin s = rejoin (armStart u false) ∧ u.guard = { s.guard with phase := .acquisition } := by
  refine ⟨_, rfl, ?_⟩
  rw [netAcqStart_guard, acqStartRing_guard, zonAcqStart_guard, dtsAcqStart_guard, qsAcqStart_guard, decAcqStart_guard,
    pathStart_guard, adcAcqStart_guard, hkAcqStart_guard, timeAcqStart_guard]
  have g1 := (amendAtStart_guard (((s.clockFrom true).cas.commits).foldl (commitOne (s.clockFrom true).tim.tick)
    { s.clockFrom true with cas := { (s.clockFrom true).cas with commits := [] } })).trans
    ((foldl_guard _ (fun s c => commitOne_guard _ s c) _ _).trans ((guard_cas _ _).trans (State.clockFrom_guard s true)))
  exact congrArg (fun g : Guard => { g with phase := .acquisition }) g1

theorem armStart_phase (s : State) (again : Bool) : (armStart s again).pwr.phase = s.pwr.phase := by
  unfold armStart
  extract_lets r v
  split
  · rfl
  · split <;> rfl

theorem acqBegin_keeps (s : State) (ha : s.prb.arm = .off) : Keeps s (acqBegin s) := by
  obtain ⟨u, e, g⟩ := acqBegin_reaches s
  rw [e]
  have k : Keeps s u := by
    intro o
    rw [g]
    obtain ⟨h1, h2, h3, h4, h5, h6, h7, h8, h9, h0⟩ := o
    refine ⟨⟨fun h => absurd rfl h, h2, h3, h4, h5, h6, h7, h8, h9, h0⟩, FusesKept.refl _⟩
  exact k.trans ((armStart_keeps u false (.inl (congrArg Guard.phase g)) (.inl ((congrArg Guard.arm g).trans ha))).trans
    (Keeps.of_guard (rejoin_guard _)))

/-- Acquisition begins: the phase is acquisition (20 R428). -/
theorem acqBegin_phase (s : State) : (acqBegin s).pwr.phase = .acquisition := by
  obtain ⟨u, e, g⟩ := acqBegin_reaches s
  rw [e]
  exact (congrArg Guard.phase (rejoin_guard _)).trans ((armStart_phase u false).trans (congrArg Guard.phase g))

end Sys2Proof.Machine
end

