-- ==== Sys2Proof/Laws/GuardPower.lean ====
section
/-! SUPPORT. For each operation of the cascade, background work, resets and modes: what it does to
`State.guard`: nothing (`_guard`), or a change that keeps the rules (`_keeps`). -/

namespace Sys2Proof.Machine

set_option linter.unusedTactic false
set_option linter.unreachableTactic false
set_option linter.unnecessarySeqFocus false
set_option linter.unusedVariables false
set_option linter.unusedSimpArgs false

/-! ### Operations of Machine/Cascade.lean -/

theorem State.modCas_guard (s : State) (f : Cas → Cas) :
    (State.modCas s f).guard = s.guard := by
  rfl

theorem linkComesUp_guard (s : State) (lanes : Nat) :
    (linkComesUp s lanes).guard = s.guard := by
  unfold linkComesUp
  grind [State.guard, State.holdFlags_guard, State.modCas_guard, sendJoin_guard, settleRole_guard]

theorem laneExcess_guard (s : State) (dir lane n : Nat) :
    (laneExcess s dir lane n).guard = s.guard := by
  unfold laneExcess
  grind [State.guard, State.modCas_guard]

theorem degradeLane_guard (s : State) (dir lane n : Nat) :
    (degradeLane s dir lane n).guard = s.guard := by
  unfold degradeLane
  grind [State.guard, State.lasting_guard, State.modCas_guard]

theorem bistDone_guard (s : State) (dir lane : Nat) (pass : Bool) :
    (bistDone s dir lane pass).guard = s.guard := by
  unfold bistDone
  grind [State.guard, State.modCas_guard, State.transient_guard, degradeLane_guard]

theorem soakCheck_guard (s : State) :
    (soakCheck s).guard = s.guard := by
  unfold soakCheck
  (repeat' split) <;> rfl

theorem beatSend_guard (s : State) :
    (beatSend s).guard = s.guard := by
  unfold beatSend
  grind [State.guard, State.sendRing_guard, settleRole_guard, soakCheck_guard]

theorem askSeeds_guard (s : State) :
    (askSeeds s).guard = s.guard := by
  rfl

theorem beatReceived_guard (s : State) (b : BeatBody) :
    (beatReceived s b).guard = s.guard := by
  unfold beatReceived
  grind [State.guard, State.holdFlags_guard, State.modCas_guard, State.sendRing_guard, askSeeds_guard, settleRole_guard]

theorem memberLost_guard (s : State) (rank : Nat) :
    (memberLost s rank).guard = s.guard := by
  unfold memberLost
  grind [State.guard, State.expire_guard, State.modCas_guard, abortSeeding_guard, holdTime_guard, settleRole_guard]

theorem refuseMember_guard (s : State) (rank reason : Nat) :
    (refuseMember s rank reason).guard = s.guard := by
  unfold refuseMember
  grind [State.guard, State.modCas_guard, State.sendRing_guard]

theorem joinAsked_guard (s : State) (b : JoinBody) :
    (joinAsked s b).guard = s.guard := by
  unfold joinAsked
  grind [State.guard, State.sendRing_guard, refuseMember_guard]

theorem joinAcked_guard (s : State) :
    (joinAcked s).guard = s.guard := by
  unfold joinAcked
  (repeat' split) <;> rfl

theorem refusedHere_guard (s : State) (reason : Nat) :
    (refusedHere s reason).guard = s.guard := by
  unfold refusedHere
  grind [State.guard, State.modCas_guard, settleRole_guard]

theorem joinRefused_guard (s : State) (reason : Nat) :
    (joinRefused s reason).guard = s.guard := by
  unfold joinRefused
  grind [State.guard, refusedHere_guard]

theorem joinAgain_guard (s : State) :
    (joinAgain s).guard = s.guard := by
  unfold joinAgain
  grind [State.guard, sendJoin_guard]

theorem timeSend_guard (s : State) :
    (timeSend s).guard = s.guard := by
  unfold timeSend
  grind [State.guard, State.sendRing_guard]

theorem timeSteer_guard (s : State) (e : Int) :
    (timeSteer s e).guard = s.guard := by
  unfold timeSteer
  grind [State.guard, State.reloadRtc_guard, State.stepMap_guard]

theorem timeTake_guard (s : State) (mark masterTime delayPs : Nat) :
    (timeTake s mark masterTime delayPs).guard = s.guard := by
  unfold timeTake
  grind [State.guard, State.modCas_guard, State.sendRing_guard, timeSteer_guard]

theorem slewTake_guard (s : State) (target : Nat) (ec : Int) :
    (slewTake s target ec).guard = s.guard := by
  unfold slewTake
  grind [State.guard, State.modCas_guard, State.sendRing_guard]

theorem slewOver_guard (s : State) (rank : Nat) :
    (slewOver s rank).guard = s.guard := by
  unfold slewOver
  grind [State.guard, State.expire_guard, refuseMember_guard, refusedHere_guard]

theorem syncInstant_guard (s : State) (rank instant : Nat) :
    (syncInstant s rank instant).guard = s.guard := by
  unfold syncInstant
  grind [State.guard, State.modCas_guard, State.sendRing_guard]

theorem stateTake_guard (s : State) (st : StateBody) :
    (stateTake s st).guard = s.guard := by
  unfold stateTake
  grind [State.guard, State.modCas_guard, State.sendRing_guard, gridOnMaster_guard, joinNow_guard, settleRole_guard, takeSchedule_guard]

theorem chooseSync_guard (s : State) (ns : Nat) :
    (chooseSync s ns).guard = s.guard := by
  unfold chooseSync
  grind [State.guard, State.sendRing_guard, takeSync_guard]

theorem syncCmd_guard (s : State) :
    (syncCmd s).1.guard = s.guard := by
  unfold syncCmd
  grind [State.guard, chooseSync_guard, ignoreSync_guard]

theorem syncPad_guard (s : State) :
    (syncPad s).guard = s.guard := by
  unfold syncPad
  grind [State.guard, chooseSync_guard, ignoreSync_guard, takeSync_guard]

theorem syncIdxTake_guard (s : State) (ns : Nat) :
    (syncIdxTake s ns).guard = s.guard := by
  unfold syncIdxTake
  grind [State.guard, State.sendRing_guard, ignoreSync_guard, takeSync_guard]

theorem propTake_guard (s : State) (type inst : Nat) (body : List Byte) :
    (propTake s type inst body).guard = s.guard := by
  unfold propTake
  grind [State.guard, State.modCas_guard, State.sendRing_guard]

theorem proposalFails_guard (s : State) (p : Proposal) :
    (proposalFails s p).guard = s.guard := by
  unfold proposalFails
  grind [State.guard, State.answer_guard, State.modCas_guard, refuseAmend_guard]

theorem voteTake_guard (s : State) (rank result : Nat) :
    (voteTake s rank result).guard = s.guard := by
  unfold voteTake
  grind [State.guard, State.answer_guard, State.modCas_guard, commitOwn_guard, proposalFails_guard]

theorem voteTimeout_guard (s : State) :
    (voteTimeout s).guard = s.guard := by
  unfold voteTimeout
  grind [State.guard, State.expire_guard, proposalFails_guard]

theorem commitTake_guard (s : State) (period : Nat) :
    (commitTake s period).guard = s.guard := by
  unfold commitTake
  grind [State.guard, State.modCas_guard, State.sendRing_guard, commitAmend_guard]

theorem seedStart_guard (s : State) :
    (seedStart s).guard = s.guard := by
  unfold seedStart
  grind [State.guard, State.modCas_guard, State.sendRing_guard]

theorem seedBegun_guard (s : State) :
    (seedBegun s).guard = s.guard := by
  unfold seedBegun
  (repeat' split) <;> rfl

theorem chunkSend_guard (s : State) (b : Nat) :
    (chunkSend s b).guard = s.guard := by
  unfold chunkSend
  grind [State.guard, State.modCas_guard, State.sendRing_guard]

theorem chunkTake_guard (s : State) (b : Nat) (data : List Byte) :
    (chunkTake s b data).guard = s.guard := by
  unfold chunkTake
  (repeat' split) <;> rfl

theorem seedCommitted_guard (s : State) (b : Nat) :
    (seedCommitted s b).guard = s.guard := by
  unfold seedCommitted
  (repeat' split) <;> rfl

theorem seedEnded_guard (s : State) :
    (seedEnded s).guard = s.guard := by
  unfold seedEnded
  (repeat' split) <;> rfl

theorem reseed_guard (s : State) :
    (reseed s).guard = s.guard := by
  unfold reseed
  (repeat' split) <;> rfl

theorem releaseTake_guard (s : State) (last : Nat) :
    (releaseTake s last).guard = s.guard := by
  unfold releaseTake
  grind [State.guard, State.modCas_guard, settleRole_guard]

theorem takeAsked_guard (s : State) :
    (takeAsked s).guard = s.guard := by
  unfold takeAsked
  grind [State.guard, State.modCas_guard, settleRole_guard]

theorem grantChange_guard (s : State) (low : Bool) :
    (grantChange s low).guard = s.guard := by
  unfold grantChange
  grind [State.guard, settleRole_guard]

theorem arbLost_guard (s : State) :
    (arbLost s).guard = s.guard := by
  unfold arbLost
  grind [State.guard, State.modCas_guard, settleRole_guard]

theorem askRole_guard (s : State) :
    (askRole s).guard = s.guard := by
  unfold askRole
  grind [State.guard, State.modCas_guard, State.sendRing_guard]

theorem soakOver_guard (s : State) :
    (soakOver s).guard = s.guard := by
  unfold soakOver
  grind [State.guard, State.advance_guard, State.modCas_guard, askRole_guard]

theorem giveRole_guard (s : State) :
    (giveRole s).guard = s.guard := by
  unfold giveRole
  (repeat' split) <;> rfl

theorem switchAway_guard {s t : State} {force : Nat} (h : switchAway s force = .ok t) : t.guard = s.guard := by
  unfold switchAway at h
  grind [giveRole_guard]

theorem takeBack_guard {s t : State} {force : Nat} (h : takeBack s force = .ok t) : t.guard = s.guard := by
  unfold takeBack at h
  grind [askRole_guard, State.modCas_guard]

theorem pairSwitch_guard (s : State) (action force : Nat) : (pairSwitch s action force).1.guard = s.guard := by
  unfold pairSwitch
  grind [State.modCas_guard, settleRole_guard, switchAway_guard, takeBack_guard]

/-! ### Operations of Machine/Background.lean -/

theorem State.modBgw_guard (s : State) (f : Bgw → Bgw) :
    (State.modBgw s f).guard = s.guard := by
  rfl

theorem startTask_guard (s : State) (t held interval : Nat) :
    (startTask s t held interval).guard = s.guard := by
  unfold startTask
  grind [State.guard, State.modBgw_guard, noteRun_guard]

theorem endTask_guard (s : State) (t : Nat) :
    (endTask s t).guard = s.guard := by
  rfl

theorem startSramTest_guard (s : State) (t : SramTest) :
    (startSramTest s t).guard = s.guard := by
  unfold startSramTest
  (repeat' split) <;> rfl

theorem badWord_guard (s : State) (bank row word : Nat) :
    (badWord s bank row word).guard = s.guard := by
  unfold badWord
  (repeat' split) <;> rfl

theorem sramScrub_guard (s : State) (bank row word : Nat) (err : EccResult) :
    (sramScrub s bank row word err).guard = s.guard := by
  unfold sramScrub
  grind [State.guard, State.modBgw_guard, badWord_guard, startSramTest_guard, startTask_guard]

theorem State.sramTestOf_guard (s : State) (bank row : Nat) :
    (State.sramTestOf s bank row).2.guard = s.guard := by
  unfold State.sramTestOf
  (repeat' split) <;> rfl

theorem sramRowTest_guard (s : State) (bank row : Nat) (bad : Bool) :
    (sramRowTest s bank row bad).guard = s.guard := by
  unfold sramRowTest
  grind [State.guard, State.lasting_guard, State.log_guard, State.modBgw_guard, State.sramTestOf_guard, State.transient_guard]

theorem scrubUnit_keeps (s : State) (a : Nat) (ecc : EccResult) : Keeps s (scrubUnit s a ecc) := by
  unfold scrubUnit
  first | exact dramArrive_keeps _ _ _ _ | (split <;> first | exact Keeps.refl _ | exact dramArrive_keeps _ _ _ _)

theorem scrubPass_guard (s : State) :
    (scrubPass s).guard = s.guard := by
  unfold scrubPass
  (repeat' split) <;> rfl

theorem dramScrub_keeps (s : State) (ecc : EccResult) : Keeps s (dramScrub s ecc) := by
  unfold dramScrub
  extract_lets s1 a t
  have h1 : s1.guard = s.guard := by
    simp only [s1]; split
    · exact startTask_guard s 1 _ _
    · rfl
  have h2 : ∀ u : State, u.guard = s.guard → ∀ a, Keeps s (scrubPass (scrubUnit u a ecc)) := fun u hu a =>
    (Keeps.of_guard hu).trans ((scrubUnit_keeps _ _ _).trans (Keeps.of_guard (scrubPass_guard _)))
  split
  · exact Keeps.refl s
  split
  · exact h2 _ ((State.modBgw_guard _ _).trans h1) _
  split
  · exact Keeps.of_guard h1
  split
  · exact Keeps.of_guard ((scrubPass_guard _).trans ((State.modBgw_guard _ _).trans ((State.modBgw_guard _ _).trans h1)))
  · exact h2 _ ((State.modBgw_guard _ _).trans h1) _

theorem tiaTrim_guard (s : State) (step : List Int) :
    (tiaTrim s step).guard = s.guard := by
  unfold tiaTrim
  grind [State.guard, State.advance_guard, endTask_guard, startTask_guard]

theorem tdcCheck_guard (s : State) (pass : Bool) :
    (tdcCheck s pass).guard = s.guard := by
  unfold tdcCheck
  grind [State.guard, State.modBgw_guard, endTask_guard, startTask_guard]

theorem refillBucket_guard (s : State) :
    (refillBucket s).guard = s.guard := by
  rfl

theorem writeEntry_guard (s : State) (e : LogEntry) :
    (writeEntry s e).guard = s.guard := by
  unfold writeEntry
  grind [State.guard]

theorem flashRun_guard (s : State) : (flashRun s).guard = s.guard := by
  have hf : ∀ (l : List LogEntry) (s : State), (l.foldl writeEntry s).guard = s.guard :=
    fun l s => foldl_guard _ (fun s e => writeEntry_guard s e) l s
  unfold flashRun
  grind [refillBucket_guard, endTask_guard, startTask_guard, State.modBgw_guard, State.logNew_guard]

/-! ### Operations of Machine/Power.lean -/

theorem State.modPwr_guard (s : State) (f : Pwr → Pwr) (h : ∀ p, (f p).phase = p.phase) :
    (s.modPwr f).guard = s.guard := by
  simp [State.modPwr, State.guard, h]

theorem modPwr_keeps (s : State) (f : Pwr → Pwr) (h : ∀ p, (f p).phase = p.phase) : Keeps s (s.modPwr f) :=
  Keeps.of_guard (State.modPwr_guard s f h)

theorem State.logAny_guard (s : State) (code cls unit : Nat) (data : List Byte) :
    (State.logAny s code cls unit data).guard = s.guard := by
  unfold State.logAny
  grind [State.guard, State.logAos_guard, State.log_guard]

theorem Keeps.dark {s t : State} (hf : t.fuses = s.fuses) (hp : t.pads.ldEn = false ∧ t.pads.ampEn = false ∧ t.pads.gate = false ∧ t.pads.gateDts = false)
    (ha : t.prb.arm = .off) (hl : t.sec.lifePend = none ∨ t.sec.lifePend = s.sec.lifePend)
    (hm : t.mem.data = [] ∨ t.mem.data = s.mem.data) : Keeps s t := by
  have hm : Memory.wf s.mem.data = true → Memory.wf t.mem.data = true := by
    rcases hm with h | h <;> rw [h]
    · exact fun _ => Memory.wf_empty
    · exact id
  refine Keeps.mk' hf fun o => ?_
  obtain ⟨h1, h2, h3, h4, h5, h6, h7, h8, h9, h0⟩ := o
  simp only [State.guard, Guard.emits] at *
  constructor <;> grind [Guard.emits]

theorem mainReset_keeps (s : State) (phase : Phase) (rails hold : Bool) : Keeps s (mainReset s phase rails hold) :=
  Keeps.dark rfl ⟨rfl, rfl, rfl, rfl⟩ rfl (.inl rfl) (by first | exact .inl rfl | exact .inr rfl)

theorem modPwr_idle (s : State) (f : Pwr → Pwr) (h : s.prb.arm = .off) : Keeps s (s.modPwr f) := by
  refine Keeps.mk' rfl fun o => ?_
  obtain ⟨h1, h2, h3, h4, h5, h6, h7, h8, h9, h0⟩ := o
  simp only [State.guard, Guard.emits, State.modPwr] at *
  constructor <;> grind [Guard.emits]

theorem modPwr_active (s : State) (f : Pwr → Pwr) (h : ∀ p, (f p).phase = .acquisition ∨ (f p).phase = .stopping) :
    Keeps s (s.modPwr f) := by
  refine Keeps.mk' rfl fun o => ?_
  have := h s.pwr
  obtain ⟨h1, h2, h3, h4, h5, h6, h7, h8, h9, h0⟩ := o
  simp only [State.guard, Guard.emits, State.modPwr] at *
  constructor <;> grind [Guard.emits]

theorem reachC_keeps (s : State) : Keeps s (reachC s) := by
  unfold reachC
  split
  · exact Keeps.refl s
  · refine Keeps.trans ?_ (mainReset_keeps _ _ _ _)
    exact modPwr_keeps s _ fun _ => rfl

theorem reachB_keeps (s : State) : Keeps s (reachB s) := by
  unfold reachB
  split
  · exact Keeps.refl s
  · refine Keeps.trans ?_ (mainReset_keeps _ _ _ _)
    exact modPwr_keeps s _ fun _ => rfl

theorem reachA_keeps (s : State) : Keeps s (reachA s) :=
  Keeps.dark rfl ⟨rfl, rfl, rfl, rfl⟩ rfl (.inl rfl) (by first | exact .inl rfl | exact .inr rfl)

theorem enterStandby_keeps (s : State) (w : Nat) : Keeps s (enterStandby s w) :=
  (Keeps.of_guard (State.closeAll_guard s)).trans ((mainReset_keeps _ _ _ _).trans (modPwr_keeps _ _ fun _ => rfl))

theorem enterSleep_keeps (s : State) (h : s.prb.arm = .off) : Keeps s (enterSleep s) := by
  have g := memSleep_guard s
  exact (Keeps.of_guard g).trans (modPwr_idle _ _ ((congrArg Guard.arm g).trans h))

theorem enterSleep_arm (s : State) : (enterSleep s).prb.arm = s.prb.arm := congrArg Guard.arm (memSleep_guard s)

theorem pathEnd_keeps (s : State) : Keeps s (pathEnd s) ∧ (pathEnd s).prb.arm = .off := by
  unfold pathEnd
  lift_lets
  intro s1 s2 s3
  have g : s3.guard = s.guard := by
    simp only [s3, s2, s1]
    rw [abortSeeding_guard, State.clockFrom_guard, netAcqEnd_guard, zonAcqEnd_guard, dtsAcqEnd_guard, qsAcqEnd_guard, decAcqEnd_guard, acqEndRing_guard]
  clear_value s3
  intro a b c d
  constructor
  · refine (Keeps.of_guard g).trans ?_
    refine Keeps.trans ?_ (Keeps.of_guard (settleRole_guard _))
    exact Keeps.dark rfl ⟨rfl, rfl, rfl, rfl⟩ rfl (.inr rfl) (.inr rfl)
  · exact (congrArg Guard.arm (settleRole_guard _)).trans rfl

theorem surveyDone_keeps (s : State) (h : s.prb.arm = .off) : Keeps s (surveyDone s) := by
  unfold surveyDone
  dsimp only
  have k := modPwr_keeps s (fun p => { p with surveyCycles := wrapAdd 32 p.surveyCycles 1, int := p.int.raise 6 }) fun _ => rfl
  split
  · exact k.trans (enterSleep_keeps _ h)
  · exact k.trans (enterStandby_keeps _ _)

theorem stopCheck_keeps (s : State) : Keeps s (stopCheck s) := by
  have ⟨k, a⟩ := pathEnd_keeps s
  unfold stopCheck
  dsimp only
  split
  · exact Keeps.refl s
  · split
    · exact k.trans (enterSleep_keeps _ a)
    · exact k.trans (enterStandby_keeps _ _)
    · exact k.trans (surveyDone_keeps _ a)

theorem beginStop_keeps (s : State) (dest : StopTo) : Keeps s (beginStop s dest) := by
  unfold beginStop
  split
  · dsimp only
    refine Keeps.trans ?_ (stopCheck_keeps _)
    have k := modPwr_active s (fun p => { p with phase := .stopping, stopTo := dest, stopped := false, draining := false })
      fun _ => .inr rfl
    split
    · exact k.trans (endLaunches_keeps _ _)
    · exact k
  · exact modPwr_keeps s _ fun _ => rfl
  · exact Keeps.refl s

theorem startAcq_keeps (s : State) (h : s.prb.arm = .off) : Keeps s (startAcq s) := by
  unfold startAcq
  dsimp only
  refine Keeps.trans ?_ (acqBegin_keeps _ h)
  exact modPwr_keeps s _ fun _ => rfl

theorem Keeps.idle {s t : State} (hp : s.pwr.phase ≠ .acquisition ∧ s.pwr.phase ≠ .stopping) (h : s.prb.arm = .off → Keeps s t) : Keeps s t :=
  fun o => h (o.idle hp.1 hp.2) o

theorem acqStartCmd_keeps (s : State) : Keeps s (acqStartCmd s).1 := by
  have k := startAcq_keeps s
  unfold acqStartCmd
  generalize startAcq s = t at k
  split
  · exact Keeps.refl s
  · rename_i h
    split
    · exact Keeps.refl s
    · exact Keeps.idle (by rw [h]; decide) k
  · exact Keeps.refl s
  · exact Keeps.refl s

theorem acqStopCmd_keeps (s : State) : Keeps s (acqStopCmd s).1 := by
  unfold acqStopCmd
  split
  · exact beginStop_keeps s _
  · exact Keeps.refl s

theorem sleepCmd_keeps (s : State) : Keeps s (sleepCmd s).1 := by
  unfold sleepCmd
  dsimp only
  refine Keeps.trans ?_ (stopCheck_keeps _)
  refine Keeps.trans ?_ (beginStop_keeps _ _)
  exact modPwr_keeps s _ fun _ => rfl

theorem standbyCmd_guard (s : State) (wakeS : Nat) :
    (standbyCmd s wakeS).1.guard = s.guard := by
  unfold standbyCmd
  (repeat' split) <;> rfl

theorem standbyEntry_keeps (s : State) : Keeps s (standbyEntry s) := by
  unfold standbyEntry
  split
  · exact Keeps.refl s
  · rename_i w _
    extract_lets u
    have k : Keeps s u := (Keeps.of_guard (State.advance_guard s _)).trans (modPwr_keeps _ _ fun _ => rfl)
    clear_value u
    split
    · exact k.trans (enterStandby_keeps _ _)
    · exact k.trans ((beginStop_keeps _ _).trans (stopCheck_keeps _))

theorem surveyAcqEnd_keeps (s : State) : Keeps s (surveyAcqEnd s) := by
  unfold surveyAcqEnd
  split
  · dsimp only
    refine Keeps.trans ?_ (beginStop_keeps _ _)
    exact Keeps.of_guard rfl
  · exact Keeps.refl s

theorem surveyDrainEnd_keeps (s : State) : Keeps s (surveyDrainEnd s) := by
  unfold surveyDrainEnd
  split
  · refine Keeps.trans ?_ (stopCheck_keeps _)
    exact modPwr_keeps s _ fun _ => rfl
  · exact Keeps.refl s

theorem wakeUp_keeps (s : State) (b : BitVec 3) (h : s.pwr.phase = .standby) : Keeps s (wakeUp s b) := by
  unfold wakeUp
  split
  · split
    · exact Keeps.refl s
    · exact modPwr_keeps s _ fun _ => rfl
  · exact Keeps.idle (by simp [h]) fun ha => modPwr_idle s _ ha

theorem wakeEdge_keeps (s : State) (rising timerToo : Bool) : Keeps s (wakeEdge s rising timerToo) := by
  unfold wakeEdge
  split
  · exact Keeps.refl s
  · rename_i h
    exact wakeUp_keeps s _ (by simp only [not_or, not_not] at h; exact h.1)

theorem wakeTimer_keeps (s : State) (pinToo : Bool) : Keeps s (wakeTimer s pinToo) := by
  unfold wakeTimer
  split
  · rename_i h
    split
    · exact wakeUp_keeps s _ h
    · exact Keeps.refl s
  · rename_i h
    split
    · exact Keeps.idle (by simp [h]) (startAcq_keeps s)
    · exact Keeps.refl s
  · exact Keeps.refl s

theorem Keeps.phase {s t : State} (h : t.guard = { s.guard with phase := t.pwr.phase })
    (hp : s.pwr.phase ≠ .acquisition ∧ s.pwr.phase ≠ .stopping) : Keeps s t := by
  refine Keeps.mk' (congrArg Guard.fuses h) fun o => ?_
  have ha := o.idle hp.1 hp.2
  rw [h]
  obtain ⟨h1, h2, h3, h4, h5, h6, h7, h8, h9, h0⟩ := o
  exact ⟨fun _ _ => ha, h2, h3, h4, h5, h6, h7, h8, h9, h0⟩

theorem mainPowerOn_keeps (s : State) : Keeps s (mainPowerOn s) := by
  unfold mainPowerOn
  split
  · exact Keeps.refl s
  · rename_i h
    have hp : s.pwr.phase = .rails := by simp only [not_or, not_not] at h; exact h.2.2
    lift_lets
    intro opt s1 a b
    clear_value opt
    refine Keeps.phase ?_ (by simp [hp])
    split <;> rfl

theorem vaoAssert_keeps (s : State) : Keeps s (vaoAssert s) := reachA_keeps s

theorem vaoRelease_guard (s : State) :
    (vaoRelease s).guard = s.guard := by
  rfl

theorem vrstAssert_keeps (s : State) (b x y : Nat) : Keeps s (vrstAssert s b x y) := by
  unfold vrstAssert
  split
  · exact Keeps.refl s
  · dsimp only
    refine Keeps.trans ?_ (reachB_keeps _)
    exact Keeps.of_guard (State.logAos_guard s 0x0101 3 0 (leBytes 2 b ++ leBytes 2 x ++ leBytes 2 y))

theorem vrstRelease_keeps (s : State) : Keeps s (vrstRelease s) := by
  unfold vrstRelease
  split
  · exact mainPowerOn_keeps s
  · dsimp only
    have k := modPwr_keeps s (fun p => { p with vrst := false }) fun _ => rfl
    split
    · rename_i h
      exact k.trans (wakeUp_keeps _ _ h.1)
    · exact k

theorem feedLost_guard (s : State) (feed mv : Nat) :
    (feedLost s feed mv).guard = s.guard := by
  unfold feedLost
  grind [State.guard, State.logAny_guard, State.modPwr_guard, State.pulse_guard]

theorem feedRestored_guard (s : State) (feed : Nat) :
    (feedRestored s feed).guard = s.guard := by
  unfold feedRestored
  grind [State.guard, State.modPwr_guard]

theorem vwarnAssert_guard (s : State) (mv : Nat) :
    (vwarnAssert s mv).guard = s.guard := by
  unfold vwarnAssert
  grind [State.guard, State.logAny_guard, State.modPwr_guard]

theorem vwarnRelease_guard (s : State) :
    (vwarnRelease s).guard = s.guard := by
  unfold vwarnRelease
  (repeat' split) <;> rfl

theorem rstLow_keeps (s : State) : Keeps s (rstLow s) := by
  unfold rstLow
  dsimp only
  have k := modPwr_keeps s (fun p => { p with rstHeld := true, causeRst := true }) fun _ => rfl
  split
  · exact k
  · exact k.trans (reachC_keeps _)

theorem rstRelease_guard (s : State) :
    (rstRelease s).guard = s.guard := by
  rfl

theorem tilReset_guard (s : State) :
    (tilReset s).guard = s.guard := by
  rfl

theorem blockReset_guard (s : State) (i : Nat) :
    (blockReset s i).guard = s.guard := by
  unfold blockReset
  (repeat' split) <;> rfl

theorem blkrstWrite_guard (s : State) (v : Nat) : (blkrstWrite s v).1.guard = s.guard := by
  unfold blkrstWrite
  extract_lets l s1
  split
  · exact (State.modPwr_guard s1 _ (fun _ => rfl)).trans (foldl_guard _ (fun s i => blockReset_guard s i) _ _)
  · rfl

theorem retireFailed_guard (s : State) (l : List Nat) :
    (retireFailed s l).guard = s.guard := by
  unfold retireFailed
  (repeat' split) <;> first
    | (refine (foldl_guard _ (fun s a => ?_) _ _).trans ?_ <;> grind [State.guard, State.lasting_guard, retireTiller_guard])
    | grind [State.guard, State.lasting_guard, retireTiller_guard]

theorem blkrstDone_guard (s : State) (failed : List Nat) :
    (blkrstDone s failed).guard = s.guard := by
  unfold blkrstDone
  grind [State.guard, State.modPwr_guard, retireFailed_guard]

theorem padfuse_kept (l : List (Option Nat)) (g : Nat → Option Nat) (i c : Nat) (h : l[i]? = some (some c)) :
    (l.mapIdx fun i f => match f with
      | some c => some c
      | none => g i)[i]? = some (some c) := by
  simp [List.getElem?_mapIdx, h]

theorem padfuseWrite_keeps (s : State) (x : Session) (v : Nat) : Keeps s (padfuseWrite s x v).1 := by
  unfold padfuseWrite
  split
  · exact Keeps.refl s
  · intro o
    refine ⟨?_, ⟨fun _ _ h => h, fun _ h => h, fun i c h => padfuse_kept _ _ i c h, Nat.le_refl _, id, Nat.le_refl _, rfl⟩⟩
    obtain ⟨h1, h2, h3, h4, h5, h6, h7, h8, h9, h0⟩ := o
    simp only [State.guard, Guard.emits] at *
    constructor <;> grind [Guard.emits]

theorem activateCheck_keeps (s : State) : Keeps s (activateCheck s) := by
  unfold activateCheck
  split
  · refine Keeps.trans ?_ (reachC_keeps _)
    exact modPwr_keeps s _ fun _ => rfl
  · exact Keeps.refl s

theorem settled_keeps (s : State) : Keeps s s.settled := (stopCheck_keeps s).trans (activateCheck_keeps _)

end Sys2Proof.Machine
end

