-- ==== Sys2Proof/Laws/GuardHost.lean ====
section
/-! SUPPORT. For each operation of start-up, keys, the register map and the remaining commands: what it does to
`State.guard`: nothing (`_guard`), or a change that keeps the rules (`_keeps`). -/

namespace Sys2Proof.Machine

set_option linter.unusedTactic false
set_option linter.unreachableTactic false
set_option linter.unnecessarySeqFocus false
set_option linter.unusedVariables false
set_option linter.unusedSimpArgs false

/-! ### Operations of Machine/Boot.lean -/

theorem State.modCfg_guard (s : State) (f : CfgB → CfgB) :
    (State.modCfg s f).guard = s.guard := by
  rfl

theorem State.modOpt_guard (s : State) (f : OptBytes → OptBytes) :
    (State.modOpt s f).guard = s.guard := by
  rfl

theorem railsGood_keeps (s : State) : Keeps s (railsGood s) := by
  unfold railsGood
  split
  · exact Keeps.refl s
  · rename_i h
    simp only [not_or, not_not] at h
    exact Keeps.phase rfl (by simp [h.1])

theorem pllLock_keeps (s : State) (e : Nat) : Keeps s (pllLock s e) := by
  unfold pllLock
  split
  · exact Keeps.refl s
  · rename_i h
    simp only [not_or, not_not] at h
    exact Keeps.phase rfl (by simp [h.1])

theorem fallBack_guard (s : State) :
    (fallBack s).guard = s.guard := by
  unfold fallBack
  (repeat' split) <;> rfl

theorem trialFailed_guard (s : State) (unit tries : Nat) :
    (trialFailed s unit tries).guard = s.guard := by
  unfold trialFailed
  grind [State.guard, State.log_guard, State.modCfg_guard, fallBack_guard]

theorem selectFirmware_guard (s : State) :
    (selectFirmware s).guard = s.guard := by
  unfold selectFirmware
  grind [State.guard, State.modCfg_guard, State.modOpt_guard, fallBack_guard, trialFailed_guard]

theorem clearRetained_guard (s : State) (l : List Nat) :
    (clearRetained s l).guard = s.guard := by
  unfold clearRetained
  extract_lets t
  have ht : t.guard = s.guard := foldl_guard _ (fun s a => by split <;> first | rfl | exact (State.log_guard _ _ _ _ _).trans rfl) l s
  clear_value t
  split
  · exact (show _ = _ from rfl).trans ht
  · exact ht

theorem coreStart_keeps (s : State) (l : List Nat) : Keeps s (coreStart s l) := by
  unfold coreStart
  split
  · exact Keeps.refl s
  · rename_i h
    simp only [not_not] at h
    have g : (selectFirmware (clearRetained s l)).guard = s.guard := (selectFirmware_guard _).trans (clearRetained_guard s l)
    refine (Keeps.of_guard g).trans (Keeps.phase rfl ?_)
    have : (selectFirmware (clearRetained s l)).pwr.phase = s.pwr.phase := congrArg Guard.phase g
    simp [this, h]

theorem State.setRej_guard (s : State) (slot : Nat) (r : Rej) :
    (State.setRej s slot r).guard = s.guard := by
  rfl

theorem Keeps.quiet {s t : State} (hf : t.fuses = s.fuses) (h1 : t.pads = s.pads) (h2 : t.prb = s.prb) (h3 : t.sec = s.sec)
    (hd : t.mem.data = s.mem.data) (ha : s.prb.arm = .off) : Keeps s t := by
  refine Keeps.mk' hf fun o => ?_
  obtain ⟨a1, a2, a3, a4, a5, a6, a7, a8, a9, a0⟩ := o
  simp only [State.guard, Guard.emits, h1, h2, h3, hf, hd] at *
  constructor <;> grind [Guard.emits]

theorem bootGolden_keeps (s : State) (ha : s.prb.arm = .off) : Keeps s (bootGolden s) := by
  unfold bootGolden
  dsimp only
  refine Keeps.trans ?_ (Keeps.of_guard (State.log_guard _ _ _ _ _))
  exact Keeps.quiet rfl rfl rfl rfl rfl ha

theorem rejectSlot_keeps (s : State) (slot : Nat) (r : Rej) (ha : s.prb.arm = .off) : Keeps s (rejectSlot s slot r) := by
  unfold rejectSlot
  lift_lets
  intro s1 s2 p s3 s4
  have g2 : s2.guard = s.guard := (State.log_guard _ _ _ _ _).trans (State.setRej_guard _ _ _)
  have g3 : s3.guard = s.guard := by
    simp only [s3]
    split
    · exact (trialFailed_guard _ _ _).trans ((State.modOpt_guard _ _).trans g2)
    · exact g2
  have g4 : s4.guard = s.guard := (State.modCfg_guard _ _).trans ((fallBack_guard _).trans g3)
  have a4 : s4.prb.arm = .off := (congrArg Guard.arm g4).trans ha
  split
  · exact (Keeps.of_guard g4).trans (modPwr_idle _ _ a4)
  · exact (Keeps.of_guard g4).trans (bootGolden_keeps _ a4)

theorem trialStart_guard (s : State) :
    (trialStart s).guard = s.guard := by
  unfold trialStart
  grind [State.guard, State.modOpt_guard, trialFailed_guard]

theorem imageStep_keeps (s : State) : Keeps s (imageStep s) := by
  unfold imageStep
  split
  · exact Keeps.refl s
  · rename_i h
    simp only [not_or, not_not] at h
    dsimp only
    have g := trialStart_guard s
    refine Keeps.idle (by simp [h.1]) fun ha => ?_
    have a1 : (trialStart s).prb.arm = .off := (congrArg Guard.arm g).trans ha
    refine (Keeps.of_guard g).trans ?_
    split
    · exact rejectSlot_keeps _ _ _ a1
    · exact Keeps.quiet rfl rfl rfl rfl rfl a1

theorem leavePatterns_guard (s : State) :
    (leavePatterns s).guard = s.guard := by
  unfold leavePatterns
  (repeat' split) <;> rfl

theorem dramCheck_keeps (s : State) (bad passing : List Nat) : Keeps s (dramCheck s bad passing) := by
  unfold dramCheck
  split
  · exact Keeps.refl s
  · rename_i h
    simp only [not_not] at h
    refine Keeps.idle (by rw [h]; decide) fun ha => ?_
    split
    · exact Keeps.refl s
    · have g := leavePatterns_guard s
      have a : (leavePatterns s).prb.arm = .off := (congrArg Guard.arm g).trans ha
      have k := Keeps.of_guard g
      revert a k
      generalize leavePatterns s = u
      intro a k
      refine k.trans ?_
      dsimp only
      split
      · exact rejectSlot_keeps _ _ _ a
      · refine Keeps.trans ?_ (Keeps.foldl grantAll grantAll_keeps _ _)
        exact Keeps.quiet rfl rfl rfl rfl rfl a

theorem copyAosLog_guard (s : State) :
    (copyAosLog s).guard = s.guard := by
  unfold copyAosLog
  (repeat' split) <;> first
    | (refine (foldl_guard _ (fun s a => ?_) _ _).trans ?_ <;> grind [State.guard, State.log_guard, writeEntry_guard])
    | grind [State.guard, State.log_guard, writeEntry_guard]

theorem configuredState_keeps (s : State) (ha : s.prb.arm = .off) : Keeps s (configuredState s) := by
  unfold configuredState
  extract_lets trial s1 s2 on s3 hk s4 s5
  have g1 : s1.guard = s.guard := by
    simp only [s1]; split
    · exact State.modOpt_guard _ _
    · rfl
  have g4 : s4.guard = s.guard := by
    have e : s4.guard = s3.guard := loScanStart_guard _
    rw [e]
    exact (State.modPwr_guard s2 _ (by intro p; rfl)).trans ((State.modCfg_guard _ _).trans g1)
  have a4 : s4.prb.arm = .off := (congrArg Guard.arm g4).trans ha
  have a5 : s5.prb.arm = .off := (enterSleep_arm s4).trans a4
  have k : Keeps s s5 := (Keeps.of_guard g4).trans (enterSleep_keeps s4 a4)
  clear_value s5
  split
  · exact k.trans (startAcq_keeps s5 a5)
  · exact k

theorem step6Done_keeps (s : State) (failed : List Nat) : Keeps s (step6Done s failed) := by
  unfold step6Done
  split
  · exact Keeps.refl s
  · rename_i h
    simp only [not_not] at h
    refine Keeps.idle (by simp [h]) fun ha => ?_
    have g : (copyAosLog (retireFailed s failed)).guard = s.guard := (copyAosLog_guard _).trans (retireFailed_guard _ _)
    exact (Keeps.of_guard g).trans (configuredState_keeps _ ((congrArg Guard.arm g).trans ha))

theorem stageBegin_guard (s : State) (t force len : Nat) (hash : List Byte) :
    (stageBegin s t force len hash).1.guard = s.guard := by
  unfold stageBegin
  grind [State.guard]

theorem stageErased_guard (s : State) :
    (stageErased s).guard = s.guard := by
  unfold stageErased
  (repeat' split) <;> rfl

theorem stageWrite_guard (s : State) (ofs : Nat) (data : List Byte) :
    (stageWrite s ofs data).1.guard = s.guard := by
  unfold stageWrite
  grind [State.guard]

theorem stageCheck_guard (s : State) :
    (stageCheck s).1.guard = s.guard := by
  unfold stageCheck
  (repeat' split) <;> rfl

theorem mgmtRestart_guard (s : State) :
    (mgmtRestart s).guard = s.guard := by
  rfl

theorem mgmtResume_guard (s : State) :
    (mgmtResume s).guard = s.guard := by
  unfold mgmtResume
  grind [State.guard, selectFirmware_guard]

theorem writeBoot_guard (s : State) (slot : Nat) (recs : List RawRec) :
    (writeBoot s slot recs).guard = s.guard := by
  rfl

theorem activateImage_guard (s : State) (mode slot : Nat) : (activateImage s mode slot).1.guard = s.guard := by
  unfold activateImage
  grind [dropPending_guard, writeBoot_guard, State.modCfg_guard, switchAway_guard]

theorem Keeps.svn {s : State} (n : Nat) : Keeps s { s with fuses := { s.fuses with svnMin := max s.fuses.svnMin n } } := by
  intro o
  refine ⟨?_, ⟨fun _ _ h => h, fun _ h => h, fun _ _ h => h, Nat.le_refl _, id, Nat.le_max_left _ _, rfl⟩⟩
  obtain ⟨h1, h2, h3, h4, h5, h6, h7, h8, h9, h0⟩ := o
  exact ⟨h1, h2, h3, h4, h5, h6, h7, h8, h9, h0⟩

theorem activateFirmware_keeps (s : State) (mode slot : Nat) : Keeps s (activateFirmware s mode slot).1 := by
  unfold activateFirmware
  split
  · exact Keeps.refl s
  · dsimp only
    refine Keeps.trans ?_ (Keeps.svn _)
    exact Keeps.of_guard ((State.modCfg_guard _ _).trans (State.modOpt_guard _ _))

theorem activateCmd_keeps (s : State) (mode : Nat) : Keeps s (activateCmd s mode).1 := by
  unfold activateCmd
  split
  · exact Keeps.refl s
  · split
    · exact Keeps.of_guard (activateImage_guard _ _ _)
    · exact activateFirmware_keeps _ _ _

theorem Keeps.spi {s t : State} (k : Keeps s t) (x : List MgmtSend) (n : Net) :
    Keeps s { t with sec := { t.sec with spiTx := x }, net := n } := k.trans (Keeps.of_guard rfl)

theorem activateReset_keeps (s : State) : Keeps s (activateReset s) := by
  unfold activateReset
  dsimp only
  refine Keeps.trans ?_ (Keeps.of_guard (s := reachC (s.modPwr fun p => { p with causeActivate := true })) rfl)
  refine Keeps.trans ?_ (reachC_keeps _)
  exact modPwr_keeps s _ fun _ => rfl

theorem followUp_keeps (s : State) (a : Activation) : Keeps s (followUp s a) := by
  cases a with
  | nothing =>
    simp only [followUp]
    refine Keeps.trans ?_ (activateCheck_keeps _)
    split
    · exact Keeps.of_guard (settleRole_guard _)
    · exact Keeps.refl s
  | resetC => exact activateReset_keeps s
  | restart => exact Keeps.of_guard (mgmtRestart_guard s)

/-! ### Operations of Machine/Trust.lean -/

theorem State.modSec_guard (s : State) (f : Sec → Sec) (h : ∀ c, (f c).lifePend = c.lifePend) :
    (s.modSec f).guard = s.guard := by
  simp [State.modSec, State.guard, h]

theorem helloHere_guard (s : State) (tr : Transport) (src credId : Nat) (nh : List Byte) :
    (helloHere s tr src credId nh).guard = s.guard := by
  unfold helloHere
  grind [State.guard, State.modSec_guard, State.sendMgmt_guard, drawBytes_guard]

theorem hello_guard (s : State) (v : Via) (credId : Nat) (nh : List Byte) :
    (hello s v credId nh).guard = s.guard := by
  unfold hello
  grind [State.guard, State.arrives_guard, State.turnedAway_guard, helloHere_guard]

theorem State.proofReply_guard (s : State) (x : Session) (hp : List Byte) (m : MgmtOut) :
    (State.proofReply s x hp m).guard = s.guard := by
  unfold State.proofReply
  grind [State.guard, State.modSec_guard, State.sendMgmt_guard]

theorem proofGood_guard (s : State) (x : Session) (hp kc : List Byte) :
    (proofGood s x hp kc).guard = s.guard := by
  unfold proofGood
  grind [State.guard, State.modSec_guard, State.modSession_guard, State.proofReply_guard]

theorem wrongProof_guard (s : State) (slot : Nat) :
    (wrongProof s slot).guard = s.guard := by
  unfold wrongProof
  grind [State.guard, State.modSec_guard]

theorem proofBad_guard (s : State) (x : Session) (hp : List Byte) :
    (proofBad s x hp).guard = s.guard := by
  unfold proofBad
  grind [State.guard, State.closeSession_guard, State.modSec_guard, State.proofReply_guard, wrongProof_guard]

theorem proofHere_guard (s : State) (v : Via) (sid : Nat) (hp : List Byte) :
    (proofHere s v sid hp).guard = s.guard := by
  unfold proofHere
  grind [State.guard, State.modSession_guard, State.sendMgmt_guard, proofBad_guard, proofGood_guard]

theorem proofIn_guard (s : State) (v : Via) (sid : Nat) (hp : List Byte) :
    (proofIn s v sid hp).guard = s.guard := by
  unfold proofIn
  grind [State.guard, State.arrives_guard, State.turnedAway_guard, proofHere_guard]

theorem tagFail_guard (s : State) (v : Via) :
    (tagFail s v).guard = s.guard := by
  unfold tagFail
  grind [State.guard, State.arrives_guard, State.modSec_guard, State.turnedAway_guard]

theorem spiFetch_guard (s : State) :
    (spiFetch s).guard = s.guard := by
  unfold spiFetch
  (repeat' split) <;> rfl

theorem proofTimeout_guard (s : State) (sid : Nat) :
    (proofTimeout s sid).guard = s.guard := by
  unfold proofTimeout
  (repeat' split) <;> rfl

theorem lockEnd_guard (s : State) (slot : Nat) :
    (lockEnd s slot).guard = s.guard := by
  unfold lockEnd
  (repeat' split) <;> rfl

theorem sessionTimeoutEv_guard (s : State) (sid : Nat) :
    (sessionTimeoutEv s sid).guard = s.guard := by
  unfold sessionTimeoutEv
  (repeat' split) <;> rfl

theorem attestCmd_guard (s : State) (nonce : List Byte) :
    (attestCmd s nonce).1.guard = s.guard := by
  unfold attestCmd
  grind [State.guard, drawBytes_guard]

theorem certRead_guard (s : State) (ofs count : Nat) :
    (certRead s ofs count).1.guard = s.guard := by
  unfold certRead
  (repeat' split) <;> rfl

theorem streamKeyCmd_guard (s : State) (stream epoch : Nat) :
    (streamKeyCmd s stream epoch).1.guard = s.guard := by
  unfold streamKeyCmd
  (repeat' split) <;> rfl

theorem streamRekey_guard (s : State) : (streamRekey s).1.guard = s.guard := by
  have hf : ∀ s : State, ((List.range 16).foldl (fun s n => if (s.strCfg n).en = 1 then s else moveEpoch s n) s).guard = s.guard :=
    fun s => foldl_guard _ (fun s n => by grind [moveEpoch_guard]) _ s
  have hb : (drawBytes s 32).2.guard = s.guard := drawBytes_guard s 32
  unfold streamRekey
  split
  · rfl
  · dsimp only
    split
    · exact (hf _).trans ((State.modSec_guard _ _ fun _ => rfl).trans ((State.modSec_guard _ _ fun _ => rfl).trans hb))
    · exact (hf _).trans (State.modSec_guard _ _ fun _ => rfl)

theorem State.setCred_guard (s : State) (slot : Nat) (c : Option Cred) :
    (State.setCred s slot c).guard = s.guard := by
  rfl

theorem closeUnder_guard (slot : Nat) (s : State) :
    (closeUnder slot s).guard = s.guard := by
  unfold closeUnder
  (repeat' split) <;> first
    | (refine (foldl_guard _ (fun s a => ?_) _ _).trans ?_ <;> grind [State.guard, State.closeSession_guard])
    | grind [State.guard, State.closeSession_guard]

theorem credSalt_guard (s : State) (x : Session) (slot : Nat) :
    (credSalt s x slot).1.guard = s.guard := by
  unfold credSalt
  grind [State.guard, State.modSession_guard, drawBytes_guard]

theorem credSet_guard (s : State) (x : Session) (slot credId role iter : Nat) (kc : List Byte) :
    (credSet s x slot credId role iter kc).1.guard = s.guard := by
  unfold credSet
  grind [State.guard, State.setCred_guard]

theorem credClear_guard (s : State) (slot : Nat) :
    (credClear s slot).1.guard = s.guard := by
  unfold credClear
  (repeat' split) <;> rfl

theorem modAt_getElem? {α : Type} (l : List α) (i j : Nat) (f : α → α) :
    (modAt l i f)[j]? = if i = j then l[j]?.map f else l[j]? := by
  induction l generalizing i j with
  | nil => simp [modAt]
  | cons a l ih => cases i <;> cases j <;> simp [modAt, ih]

theorem Keeps.fuses {s : State} {f : Fuses} (h : FusesKept s.fuses f) (hl : f.lifecycle = s.fuses.lifecycle) :
    Keeps s { s with fuses := f } := by
  intro o
  refine ⟨?_, h⟩
  obtain ⟨h1, h2, h3, h4, h5, h6, h7, h8, h9, h0⟩ := o
  simp only [State.guard, Guard.emits] at *
  constructor <;> simp only [Guard.emits, hl] <;> assumption

theorem keyFuse_keeps (s : State) (slot : Nat) (hash : List Byte) : Keeps s (keyFuse s slot hash).1 := by
  unfold keyFuse
  split
  · exact Keeps.refl s
  · split
    · exact Keeps.refl s
    · rename_i h
      refine Keeps.fuses ⟨fun i x hx => ?_, fun _ h => h, fun _ _ h => h, Nat.le_refl _, id, Nat.le_refl _, rfl⟩ rfl
      rw [modAt_getElem?]
      split
      · rename_i he
        subst he
        simp [nth, hx] at h
      · exact hx

theorem keyRevoke_keeps (s : State) (slot signer : Nat) (pub sig : List Byte) : Keeps s (keyRevoke s slot signer pub sig).1 := by
  have hk : Keeps s { s with fuses := { s.fuses with revoked := modAt s.fuses.revoked slot fun _ => true } } := by
    refine Keeps.fuses ⟨fun _ _ h => h, fun i hx => ?_, fun _ _ h => h, Nat.le_refl _, id, Nat.le_refl _, rfl⟩ rfl
    rw [modAt_getElem?, hx]
    split <;> rfl
  unfold keyRevoke
  repeat' split
  all_goals first | exact hk | exact Keeps.refl s

theorem lifecycleOk_gt {s : State} {t : Nat} (o : s.guard.Ok) (h : s.lifecycleOk t = true) : s.fuses.lifecycle < t ∧ t ≤ 3 := by
  have hb : s.fuses.lifecycle ≤ 3 := o.bound
  have hl := o.life
  simp only [State.guard] at hl
  unfold State.lifecycleOk at h
  cases hp : s.sec.lifePend with
  | none =>
    simp only [hp, Option.getD_none] at h
    split at h <;> simp_all <;> omega
  | some l =>
    have := hl l hp
    simp only [hp, Option.getD_some] at h
    split at h <;> simp_all <;> omega

theorem lifecycleCmd_keeps (s : State) (target confirm : Nat) : Keeps s (lifecycleCmd s target confirm).1 := by
  unfold lifecycleCmd
  split
  · exact Keeps.refl s
  · split
    · rename_i h
      refine Keeps.mk' rfl fun o => ?_
      have hl := lifecycleOk_gt o h
      obtain ⟨h1, h2, h3, h4, h5, h6, h7, h8, h9, h0⟩ := o
      exact ⟨h1, h2, h3, h4, h5, h6, h7, fun l he => by cases he; exact hl, h9, h0⟩
    · exact Keeps.refl s

theorem endLaunches_dark (s : State) (t : Nat) : (endLaunches s t).guard =
    { s.guard with ldEn := false, ampEn := false, gate := false, gateDts := false, arm := .off } := by
  have hd := dispatchPass_guard s t
  unfold endLaunches
  dsimp only
  generalize dispatchPass s t = u at hd
  rw [dropShots_guard, ← hd]
  rfl

theorem scrap_guard_eq (s : State) (h : s.guard.phase = .acquisition ∨ s.guard.phase = .stopping) :
    ∃ p, (scrap s).guard =
      { s.guard with ldEn := false, ampEn := false, gate := false, gateDts := false, arm := .off, phase := p, data := [] } := by
  unfold scrap
  lift_lets
  intro s1 s2 s3
  have g1 : s1.guard = s.guard := State.modPwr_guard s _ fun _ => rfl
  have g2 : ∃ p, s2.guard = { s.guard with ldEn := false, ampEn := false, gate := false, gateDts := false, arm := .off, phase := p } := by
    have e : s1.pwr.phase = s.guard.phase := congrArg Guard.phase g1
    simp only [s2]
    rcases h with h | h <;> simp only [e, h]
    · refine ⟨.stopping, ?_⟩
      rw [endLaunches_dark, ← g1]; rfl
    · refine ⟨s1.pwr.phase, ?_⟩
      rw [endLaunches_dark, ← g1]; rfl
  obtain ⟨p, g2⟩ := g2
  have g3 : s3.guard = s2.guard := (acqClear_guard _).trans (qsClearRefs_guard _)
  clear_value s3
  intro a b c
  exact ⟨p, (congrArg (fun g : Guard => { g with data := [] }) (g3.trans g2)).trans rfl⟩

theorem scrap_guard_idle (s : State) (h1 : s.guard.phase ≠ .acquisition) (h2 : s.guard.phase ≠ .stopping) :
    (scrap s).guard = { s.guard with data := [] } := by
  unfold scrap
  lift_lets
  intro s1 s2 s3
  have g1 : s1.guard = s.guard := State.modPwr_guard s _ fun _ => rfl
  have e : s1.pwr.phase = s.guard.phase := congrArg Guard.phase g1
  have g2 : s2.guard = s.guard := by
    simp only [s2]
    split
    · rename_i h; exact absurd (e.symm.trans h) h1
    · rename_i h; exact absurd (e.symm.trans h) h2
    · exact g1
  have g3 : s3.guard = s2.guard := (acqClear_guard _).trans (qsClearRefs_guard _)
  clear_value s3
  intro a b c
  exact congrArg (fun g : Guard => { g with data := [] }) (g3.trans g2)

theorem lifecycleWrite_keeps (s : State) : Keeps s (lifecycleWrite s) := by
  unfold lifecycleWrite
  split
  · exact Keeps.refl s
  · rename_i t ht
    lift_lets
    intro a b s1 s2
    have g2 : s2.guard = s1.guard := State.modOpt_guard s1 id
    refine Keeps.trans ?_ (Keeps.of_guard (mgmtRestart_guard _))
    refine Keeps.trans ?_ (stopCheck_keeps _)
    intro o
    have hl := o.life t ht
    have hf : FusesKept s.fuses s1.fuses := ⟨fun _ _ h => h, fun _ h => h, fun _ _ h => h, Nat.le_of_lt hl.1, fun h => by simp [s1, a, h], Nat.le_refl _, rfl⟩
    have g1 : s1.guard = { s.guard with fuses := s1.fuses, lifePend := none } := rfl
    have e1 : s1.fuses.lifecycle = t := rfl
    clear_value s2 s1
    split
    · rename_i h3
      by_cases hp : s.guard.phase = .acquisition ∨ s.guard.phase = .stopping
      · obtain ⟨p, hg⟩ := scrap_guard_eq s2 (by rw [g2, g1]; exact hp)
        rw [hg, g2, g1]
        refine ⟨⟨?_, ?_, ?_, ?_, ?_, ?_, ?_, ?_, ?_, Memory.wf_empty⟩, hf⟩ <;> simp [Guard.emits, e1, hl.2]
      · simp only [not_or] at hp
        have ha := o.idle hp.1 hp.2
        rw [scrap_guard_idle s2 (by rw [g2, g1]; exact hp.1) (by rw [g2, g1]; exact hp.2), g2, g1]
        refine ⟨?_, hf⟩
        obtain ⟨h1, h2, h3, h4, h5, h6, h7, h8, h9, h0⟩ := o
        simp only [ha] at *
        have hm := Memory.wf_empty
        constructor <;> simp_all
    · rename_i h3
      rw [g2, g1]
      refine ⟨?_, hf⟩
      obtain ⟨h1, h2, h3, h4, h5, h6, h7, h8, h9, h0⟩ := o
      have he : ∀ g : Guard, g.laser = s.guard.laser → g.fuses = s1.fuses → (g.emits ↔ s.guard.emits) := by
        intro g q1 q2
        simp only [Guard.emits, q1, q2, e1]
        have := hl.1
        have := hl.2
        constructor <;> rintro ⟨x, -⟩ <;> exact ⟨x, by omega⟩
      have he' := he { s.guard with fuses := s1.fuses, lifePend := none } rfl rfl
      constructor <;> simp_all

/-! ### Operations of Machine/RegMap.lean -/

theorem intRegs_guard : ∀ r ∈ intRegs, ∀ (s : State) (p : IntPair), (r.set s p).guard = s.guard := by
  simp only [intRegs, List.forall_mem_cons, List.not_mem_nil, false_implies, implies_true, and_true]
  repeat' apply And.intro
  all_goals exact fun _ _ => rfl

theorem rcSingles_guard : ∀ f ∈ rcSingles, ∀ (s : State) (v : Nat), (f.set s v).guard = s.guard := by
  simp only [rcSingles, List.forall_mem_cons, List.not_mem_nil, false_implies, implies_true, and_true]
  repeat' apply And.intro
  all_goals exact fun _ _ => rfl

theorem rcFields_guard (f : RcField) (h : f ∈ rcFields) (s : State) (v : Nat) : (f.set s v).guard = s.guard := by
  simp only [rcFields, List.mem_append, List.mem_flatMap] at h
  rcases h with (((((((h | ⟨n, -, h⟩) | ⟨n, -, h⟩) | ⟨n, -, h⟩) | ⟨n, -, h⟩) | ⟨n, -, h⟩) | ⟨n, -, h⟩) | ⟨n, -, h⟩) | ⟨n, -, h⟩
  · exact rcSingles_guard f h s v
  all_goals
    simp only [laneRc, spkRc, memPortRc, portRc, strRc, tdcRc, rtdRc, taskRc, List.mem_cons, List.not_mem_nil, or_false] at h
    rcases h with rfl | h <;> (try rcases h with rfl | h) <;> (try rcases h with rfl | h) <;> (try rcases h with rfl) <;>
      first | rfl | exact State.modLane_guard _ _ _ | exact State.modPort_guard _ _ _ | exact State.modStream_guard _ _ _ | exact State.modBgw_guard _ _

theorem rcStore_guard (s : State) (addr w : Nat) : (rcStore s addr w).guard = s.guard := by
  unfold rcStore
  have h : ∀ f ∈ rcAt addr, ∀ (s : State) (v : Nat), (f.set s v).guard = s.guard :=
    fun f hf => rcFields_guard f (List.mem_of_mem_filter hf)
  generalize rcAt addr = l at h
  induction l generalizing s with
  | nil => rfl
  | cons f l ih => rw [List.foldl_cons, ih _ (fun g hg => h g (List.mem_cons_of_mem _ hg)), h f (List.mem_cons_self ..)]

theorem readCmd_guard (s : State) (x : Session) (addr count incs : Nat) :
    (readCmd s x addr count incs).1.guard = s.guard := by
  unfold readCmd
  (repeat' split) <;> first
    | (refine (foldl_guard _ (fun s a => ?_) _ _).trans ?_ <;> grind [State.guard, State.modSession_guard, rcStore_guard])
    | grind [State.guard, State.modSession_guard, rcStore_guard]

theorem intWrite_guard (s : State) (addr : Nat) (v hw : Word) : (intWrite s addr v hw).guard = s.guard := by
  unfold intWrite
  split
  · rfl
  · rename_i r hr
    have h := intRegs_guard r (List.mem_of_find?_eq_some hr)
    extract_lets
    split <;> exact h _ _

theorem logSelect_guard (s : State) (v : Nat) :
    (logSelect s v).guard = s.guard := by
  rfl

theorem writeWord_keeps (s : State) (x : Session) (addr : Nat) (w hw : Word) : Keeps s (writeWord s x addr w hw) := by
  unfold writeWord
  dsimp only
  split
  · exact Keeps.of_guard rfl
  · exact Keeps.of_guard rfl
  · exact Keeps.of_guard rfl
  · exact modPwr_keeps s _ fun _ => rfl
  · exact Keeps.of_guard (blkrstWrite_guard _ _)
  · exact padfuseWrite_keeps _ _ _
  · exact Keeps.of_guard rfl
  · exact Keeps.of_guard rfl
  · exact Keeps.of_guard (hkWriteRd_guard _ _)
  · exact Keeps.of_guard (logSelect_guard _ _)
  · exact Keeps.of_guard (intWrite_guard _ _ _ _)

theorem writeFold_keeps (x : Session) (hw : Word) (l : List (Nat × Word)) (s : State) :
    Keeps s (l.foldl (fun s e => writeWord s x e.1 e.2 hw) s) := by
  induction l generalizing s with
  | nil => exact Keeps.refl s
  | cons e l ih => exact (writeWord_keeps s x e.1 e.2 hw).trans (ih _)

theorem writeCmd_keeps (s : State) (x : Session) (addr : Nat) (data : List Word) (hw : Word) : Keeps s (writeCmd s x addr data hw).1 := by
  unfold writeCmd
  dsimp only
  repeat' split
  all_goals first | exact Keeps.refl s | exact writeFold_keeps x hw _ s

/-! ### Operations of Machine/Commands.lean -/

theorem retrainCmd_guard (s : State) (blocks : List Nat) :
    (retrainCmd s blocks).1.guard = s.guard := by
  unfold retrainCmd
  (repeat' split) <;> rfl

theorem snapshot_guard (s : State) (n : Nat) :
    (snapshot s n).guard = s.guard := by
  unfold snapshot
  grind [State.guard, State.modStream_guard, formBytes_guard, unitBoundary_guard]

theorem telemetryRun_guard (s : State) :
    (telemetryRun s).guard = s.guard := by
  unfold telemetryRun
  (repeat' split) <;> first
    | (refine (foldl_guard _ (fun s a => ?_) _ _).trans ?_ <;> grind [State.guard, endTask_guard, snapshot_guard, startTask_guard])
    | grind [State.guard, endTask_guard, snapshot_guard, startTask_guard]

theorem gpioChange_guard (s : State) (n : Nat) (level : Bool) :
    (gpioChange s n level).guard = s.guard := by
  unfold gpioChange
  grind [State.guard]

theorem ppsPulse_guard (s : State) :
    (ppsPulse s).guard = s.guard := by
  unfold ppsPulse
  (repeat' split) <;> rfl

theorem ppsPulseEnd_guard (s : State) :
    (ppsPulseEnd s).guard = s.guard := by
  rfl

/-! ### The end of every meaning -/

end Sys2Proof.Machine
end

