-- ==== Sys2Proof/Laws/State.lean ====
section
/-! SUPPORT. Which part of the state each named update changes, and that every other part is as it was: one lemma per update and part. -/

namespace Sys2Proof.Machine

/-! ### State.modPwr -/

@[simp] theorem State.modPwr_pending (s : State) (f : Pwr → Pwr) : (s.modPwr f).pending = s.pending := rfl
@[simp] theorem State.modPwr_free (s : State) (f : Pwr → Pwr) : (s.modPwr f).free = s.free := rfl
@[simp] theorem State.modPwr_conf (s : State) (f : Pwr → Pwr) : (s.modPwr f).conf = s.conf := rfl
@[simp] theorem State.modPwr_pads (s : State) (f : Pwr → Pwr) : (s.modPwr f).pads = s.pads := rfl
@[simp] theorem State.modPwr_glb (s : State) (f : Pwr → Pwr) : (s.modPwr f).glb = s.glb := rfl
@[simp] theorem State.modPwr_pwr (s : State) (f : Pwr → Pwr) : (s.modPwr f).pwr = f s.pwr := rfl
@[simp] theorem State.modPwr_prb (s : State) (f : Pwr → Pwr) : (s.modPwr f).prb = s.prb := rfl
@[simp] theorem State.modPwr_rxf (s : State) (f : Pwr → Pwr) : (s.modPwr f).rxf = s.rxf := rfl
@[simp] theorem State.modPwr_adc (s : State) (f : Pwr → Pwr) : (s.modPwr f).adc = s.adc := rfl
@[simp] theorem State.modPwr_til (s : State) (f : Pwr → Pwr) : (s.modPwr f).til = s.til := rfl
@[simp] theorem State.modPwr_coh (s : State) (f : Pwr → Pwr) : (s.modPwr f).coh = s.coh := rfl
@[simp] theorem State.modPwr_dec (s : State) (f : Pwr → Pwr) : (s.modPwr f).dec = s.dec := rfl
@[simp] theorem State.modPwr_qss (s : State) (f : Pwr → Pwr) : (s.modPwr f).qss = s.qss := rfl
@[simp] theorem State.modPwr_dts (s : State) (f : Pwr → Pwr) : (s.modPwr f).dts = s.dts := rfl
@[simp] theorem State.modPwr_zon (s : State) (f : Pwr → Pwr) : (s.modPwr f).zon = s.zon := rfl
@[simp] theorem State.modPwr_acq (s : State) (f : Pwr → Pwr) : (s.modPwr f).acq = s.acq := rfl
@[simp] theorem State.modPwr_mem (s : State) (f : Pwr → Pwr) : (s.modPwr f).mem = s.mem := rfl
@[simp] theorem State.modPwr_net (s : State) (f : Pwr → Pwr) : (s.modPwr f).net = s.net := rfl
@[simp] theorem State.modPwr_tim (s : State) (f : Pwr → Pwr) : (s.modPwr f).tim = s.tim := rfl
@[simp] theorem State.modPwr_hka (s : State) (f : Pwr → Pwr) : (s.modPwr f).hka = s.hka := rfl
@[simp] theorem State.modPwr_sec (s : State) (f : Pwr → Pwr) : (s.modPwr f).sec = s.sec := rfl
@[simp] theorem State.modPwr_cfg (s : State) (f : Pwr → Pwr) : (s.modPwr f).cfg = s.cfg := rfl
@[simp] theorem State.modPwr_cas (s : State) (f : Pwr → Pwr) : (s.modPwr f).cas = s.cas := rfl
@[simp] theorem State.modPwr_bgw (s : State) (f : Pwr → Pwr) : (s.modPwr f).bgw = s.bgw := rfl
@[simp] theorem State.modPwr_aos (s : State) (f : Pwr → Pwr) : (s.modPwr f).aos = s.aos := rfl
@[simp] theorem State.modPwr_flash (s : State) (f : Pwr → Pwr) : (s.modPwr f).flash = s.flash := rfl
@[simp] theorem State.modPwr_fuses (s : State) (f : Pwr → Pwr) : (s.modPwr f).fuses = s.fuses := rfl
@[simp] theorem State.modPwr_fact (s : State) (f : Pwr → Pwr) : (s.modPwr f).fact = s.fact := rfl

/-! ### State.modCas -/

@[simp] theorem State.modCas_pending (s : State) (f : Cas → Cas) : (s.modCas f).pending = s.pending := rfl
@[simp] theorem State.modCas_free (s : State) (f : Cas → Cas) : (s.modCas f).free = s.free := rfl
@[simp] theorem State.modCas_conf (s : State) (f : Cas → Cas) : (s.modCas f).conf = s.conf := rfl
@[simp] theorem State.modCas_pads (s : State) (f : Cas → Cas) : (s.modCas f).pads = s.pads := rfl
@[simp] theorem State.modCas_glb (s : State) (f : Cas → Cas) : (s.modCas f).glb = s.glb := rfl
@[simp] theorem State.modCas_pwr (s : State) (f : Cas → Cas) : (s.modCas f).pwr = s.pwr := rfl
@[simp] theorem State.modCas_prb (s : State) (f : Cas → Cas) : (s.modCas f).prb = s.prb := rfl
@[simp] theorem State.modCas_rxf (s : State) (f : Cas → Cas) : (s.modCas f).rxf = s.rxf := rfl
@[simp] theorem State.modCas_adc (s : State) (f : Cas → Cas) : (s.modCas f).adc = s.adc := rfl
@[simp] theorem State.modCas_til (s : State) (f : Cas → Cas) : (s.modCas f).til = s.til := rfl
@[simp] theorem State.modCas_coh (s : State) (f : Cas → Cas) : (s.modCas f).coh = s.coh := rfl
@[simp] theorem State.modCas_dec (s : State) (f : Cas → Cas) : (s.modCas f).dec = s.dec := rfl
@[simp] theorem State.modCas_qss (s : State) (f : Cas → Cas) : (s.modCas f).qss = s.qss := rfl
@[simp] theorem State.modCas_dts (s : State) (f : Cas → Cas) : (s.modCas f).dts = s.dts := rfl
@[simp] theorem State.modCas_zon (s : State) (f : Cas → Cas) : (s.modCas f).zon = s.zon := rfl
@[simp] theorem State.modCas_acq (s : State) (f : Cas → Cas) : (s.modCas f).acq = s.acq := rfl
@[simp] theorem State.modCas_mem (s : State) (f : Cas → Cas) : (s.modCas f).mem = s.mem := rfl
@[simp] theorem State.modCas_net (s : State) (f : Cas → Cas) : (s.modCas f).net = s.net := rfl
@[simp] theorem State.modCas_tim (s : State) (f : Cas → Cas) : (s.modCas f).tim = s.tim := rfl
@[simp] theorem State.modCas_hka (s : State) (f : Cas → Cas) : (s.modCas f).hka = s.hka := rfl
@[simp] theorem State.modCas_sec (s : State) (f : Cas → Cas) : (s.modCas f).sec = s.sec := rfl
@[simp] theorem State.modCas_cfg (s : State) (f : Cas → Cas) : (s.modCas f).cfg = s.cfg := rfl
@[simp] theorem State.modCas_cas (s : State) (f : Cas → Cas) : (s.modCas f).cas = f s.cas := rfl
@[simp] theorem State.modCas_bgw (s : State) (f : Cas → Cas) : (s.modCas f).bgw = s.bgw := rfl
@[simp] theorem State.modCas_aos (s : State) (f : Cas → Cas) : (s.modCas f).aos = s.aos := rfl
@[simp] theorem State.modCas_flash (s : State) (f : Cas → Cas) : (s.modCas f).flash = s.flash := rfl
@[simp] theorem State.modCas_fuses (s : State) (f : Cas → Cas) : (s.modCas f).fuses = s.fuses := rfl
@[simp] theorem State.modCas_fact (s : State) (f : Cas → Cas) : (s.modCas f).fact = s.fact := rfl

/-! ### State.modBgw -/

@[simp] theorem State.modBgw_pending (s : State) (f : Bgw → Bgw) : (s.modBgw f).pending = s.pending := rfl
@[simp] theorem State.modBgw_free (s : State) (f : Bgw → Bgw) : (s.modBgw f).free = s.free := rfl
@[simp] theorem State.modBgw_conf (s : State) (f : Bgw → Bgw) : (s.modBgw f).conf = s.conf := rfl
@[simp] theorem State.modBgw_pads (s : State) (f : Bgw → Bgw) : (s.modBgw f).pads = s.pads := rfl
@[simp] theorem State.modBgw_glb (s : State) (f : Bgw → Bgw) : (s.modBgw f).glb = s.glb := rfl
@[simp] theorem State.modBgw_pwr (s : State) (f : Bgw → Bgw) : (s.modBgw f).pwr = s.pwr := rfl
@[simp] theorem State.modBgw_prb (s : State) (f : Bgw → Bgw) : (s.modBgw f).prb = s.prb := rfl
@[simp] theorem State.modBgw_rxf (s : State) (f : Bgw → Bgw) : (s.modBgw f).rxf = s.rxf := rfl
@[simp] theorem State.modBgw_adc (s : State) (f : Bgw → Bgw) : (s.modBgw f).adc = s.adc := rfl
@[simp] theorem State.modBgw_til (s : State) (f : Bgw → Bgw) : (s.modBgw f).til = s.til := rfl
@[simp] theorem State.modBgw_coh (s : State) (f : Bgw → Bgw) : (s.modBgw f).coh = s.coh := rfl
@[simp] theorem State.modBgw_dec (s : State) (f : Bgw → Bgw) : (s.modBgw f).dec = s.dec := rfl
@[simp] theorem State.modBgw_qss (s : State) (f : Bgw → Bgw) : (s.modBgw f).qss = s.qss := rfl
@[simp] theorem State.modBgw_dts (s : State) (f : Bgw → Bgw) : (s.modBgw f).dts = s.dts := rfl
@[simp] theorem State.modBgw_zon (s : State) (f : Bgw → Bgw) : (s.modBgw f).zon = s.zon := rfl
@[simp] theorem State.modBgw_acq (s : State) (f : Bgw → Bgw) : (s.modBgw f).acq = s.acq := rfl
@[simp] theorem State.modBgw_mem (s : State) (f : Bgw → Bgw) : (s.modBgw f).mem = s.mem := rfl
@[simp] theorem State.modBgw_net (s : State) (f : Bgw → Bgw) : (s.modBgw f).net = s.net := rfl
@[simp] theorem State.modBgw_tim (s : State) (f : Bgw → Bgw) : (s.modBgw f).tim = s.tim := rfl
@[simp] theorem State.modBgw_hka (s : State) (f : Bgw → Bgw) : (s.modBgw f).hka = s.hka := rfl
@[simp] theorem State.modBgw_sec (s : State) (f : Bgw → Bgw) : (s.modBgw f).sec = s.sec := rfl
@[simp] theorem State.modBgw_cfg (s : State) (f : Bgw → Bgw) : (s.modBgw f).cfg = s.cfg := rfl
@[simp] theorem State.modBgw_cas (s : State) (f : Bgw → Bgw) : (s.modBgw f).cas = s.cas := rfl
@[simp] theorem State.modBgw_bgw (s : State) (f : Bgw → Bgw) : (s.modBgw f).bgw = f s.bgw := rfl
@[simp] theorem State.modBgw_aos (s : State) (f : Bgw → Bgw) : (s.modBgw f).aos = s.aos := rfl
@[simp] theorem State.modBgw_flash (s : State) (f : Bgw → Bgw) : (s.modBgw f).flash = s.flash := rfl
@[simp] theorem State.modBgw_fuses (s : State) (f : Bgw → Bgw) : (s.modBgw f).fuses = s.fuses := rfl
@[simp] theorem State.modBgw_fact (s : State) (f : Bgw → Bgw) : (s.modBgw f).fact = s.fact := rfl

/-! ### State.modCfg -/

@[simp] theorem State.modCfg_pending (s : State) (f : CfgB → CfgB) : (s.modCfg f).pending = s.pending := rfl
@[simp] theorem State.modCfg_free (s : State) (f : CfgB → CfgB) : (s.modCfg f).free = s.free := rfl
@[simp] theorem State.modCfg_conf (s : State) (f : CfgB → CfgB) : (s.modCfg f).conf = s.conf := rfl
@[simp] theorem State.modCfg_pads (s : State) (f : CfgB → CfgB) : (s.modCfg f).pads = s.pads := rfl
@[simp] theorem State.modCfg_glb (s : State) (f : CfgB → CfgB) : (s.modCfg f).glb = s.glb := rfl
@[simp] theorem State.modCfg_pwr (s : State) (f : CfgB → CfgB) : (s.modCfg f).pwr = s.pwr := rfl
@[simp] theorem State.modCfg_prb (s : State) (f : CfgB → CfgB) : (s.modCfg f).prb = s.prb := rfl
@[simp] theorem State.modCfg_rxf (s : State) (f : CfgB → CfgB) : (s.modCfg f).rxf = s.rxf := rfl
@[simp] theorem State.modCfg_adc (s : State) (f : CfgB → CfgB) : (s.modCfg f).adc = s.adc := rfl
@[simp] theorem State.modCfg_til (s : State) (f : CfgB → CfgB) : (s.modCfg f).til = s.til := rfl
@[simp] theorem State.modCfg_coh (s : State) (f : CfgB → CfgB) : (s.modCfg f).coh = s.coh := rfl
@[simp] theorem State.modCfg_dec (s : State) (f : CfgB → CfgB) : (s.modCfg f).dec = s.dec := rfl
@[simp] theorem State.modCfg_qss (s : State) (f : CfgB → CfgB) : (s.modCfg f).qss = s.qss := rfl
@[simp] theorem State.modCfg_dts (s : State) (f : CfgB → CfgB) : (s.modCfg f).dts = s.dts := rfl
@[simp] theorem State.modCfg_zon (s : State) (f : CfgB → CfgB) : (s.modCfg f).zon = s.zon := rfl
@[simp] theorem State.modCfg_acq (s : State) (f : CfgB → CfgB) : (s.modCfg f).acq = s.acq := rfl
@[simp] theorem State.modCfg_mem (s : State) (f : CfgB → CfgB) : (s.modCfg f).mem = s.mem := rfl
@[simp] theorem State.modCfg_net (s : State) (f : CfgB → CfgB) : (s.modCfg f).net = s.net := rfl
@[simp] theorem State.modCfg_tim (s : State) (f : CfgB → CfgB) : (s.modCfg f).tim = s.tim := rfl
@[simp] theorem State.modCfg_hka (s : State) (f : CfgB → CfgB) : (s.modCfg f).hka = s.hka := rfl
@[simp] theorem State.modCfg_sec (s : State) (f : CfgB → CfgB) : (s.modCfg f).sec = s.sec := rfl
@[simp] theorem State.modCfg_cfg (s : State) (f : CfgB → CfgB) : (s.modCfg f).cfg = f s.cfg := rfl
@[simp] theorem State.modCfg_cas (s : State) (f : CfgB → CfgB) : (s.modCfg f).cas = s.cas := rfl
@[simp] theorem State.modCfg_bgw (s : State) (f : CfgB → CfgB) : (s.modCfg f).bgw = s.bgw := rfl
@[simp] theorem State.modCfg_aos (s : State) (f : CfgB → CfgB) : (s.modCfg f).aos = s.aos := rfl
@[simp] theorem State.modCfg_flash (s : State) (f : CfgB → CfgB) : (s.modCfg f).flash = s.flash := rfl
@[simp] theorem State.modCfg_fuses (s : State) (f : CfgB → CfgB) : (s.modCfg f).fuses = s.fuses := rfl
@[simp] theorem State.modCfg_fact (s : State) (f : CfgB → CfgB) : (s.modCfg f).fact = s.fact := rfl

/-! ### State.modSec -/

@[simp] theorem State.modSec_pending (s : State) (f : Sec → Sec) : (s.modSec f).pending = s.pending := rfl
@[simp] theorem State.modSec_free (s : State) (f : Sec → Sec) : (s.modSec f).free = s.free := rfl
@[simp] theorem State.modSec_conf (s : State) (f : Sec → Sec) : (s.modSec f).conf = s.conf := rfl
@[simp] theorem State.modSec_pads (s : State) (f : Sec → Sec) : (s.modSec f).pads = s.pads := rfl
@[simp] theorem State.modSec_glb (s : State) (f : Sec → Sec) : (s.modSec f).glb = s.glb := rfl
@[simp] theorem State.modSec_pwr (s : State) (f : Sec → Sec) : (s.modSec f).pwr = s.pwr := rfl
@[simp] theorem State.modSec_prb (s : State) (f : Sec → Sec) : (s.modSec f).prb = s.prb := rfl
@[simp] theorem State.modSec_rxf (s : State) (f : Sec → Sec) : (s.modSec f).rxf = s.rxf := rfl
@[simp] theorem State.modSec_adc (s : State) (f : Sec → Sec) : (s.modSec f).adc = s.adc := rfl
@[simp] theorem State.modSec_til (s : State) (f : Sec → Sec) : (s.modSec f).til = s.til := rfl
@[simp] theorem State.modSec_coh (s : State) (f : Sec → Sec) : (s.modSec f).coh = s.coh := rfl
@[simp] theorem State.modSec_dec (s : State) (f : Sec → Sec) : (s.modSec f).dec = s.dec := rfl
@[simp] theorem State.modSec_qss (s : State) (f : Sec → Sec) : (s.modSec f).qss = s.qss := rfl
@[simp] theorem State.modSec_dts (s : State) (f : Sec → Sec) : (s.modSec f).dts = s.dts := rfl
@[simp] theorem State.modSec_zon (s : State) (f : Sec → Sec) : (s.modSec f).zon = s.zon := rfl
@[simp] theorem State.modSec_acq (s : State) (f : Sec → Sec) : (s.modSec f).acq = s.acq := rfl
@[simp] theorem State.modSec_mem (s : State) (f : Sec → Sec) : (s.modSec f).mem = s.mem := rfl
@[simp] theorem State.modSec_net (s : State) (f : Sec → Sec) : (s.modSec f).net = s.net := rfl
@[simp] theorem State.modSec_tim (s : State) (f : Sec → Sec) : (s.modSec f).tim = s.tim := rfl
@[simp] theorem State.modSec_hka (s : State) (f : Sec → Sec) : (s.modSec f).hka = s.hka := rfl
@[simp] theorem State.modSec_sec (s : State) (f : Sec → Sec) : (s.modSec f).sec = f s.sec := rfl
@[simp] theorem State.modSec_cfg (s : State) (f : Sec → Sec) : (s.modSec f).cfg = s.cfg := rfl
@[simp] theorem State.modSec_cas (s : State) (f : Sec → Sec) : (s.modSec f).cas = s.cas := rfl
@[simp] theorem State.modSec_bgw (s : State) (f : Sec → Sec) : (s.modSec f).bgw = s.bgw := rfl
@[simp] theorem State.modSec_aos (s : State) (f : Sec → Sec) : (s.modSec f).aos = s.aos := rfl
@[simp] theorem State.modSec_flash (s : State) (f : Sec → Sec) : (s.modSec f).flash = s.flash := rfl
@[simp] theorem State.modSec_fuses (s : State) (f : Sec → Sec) : (s.modSec f).fuses = s.fuses := rfl
@[simp] theorem State.modSec_fact (s : State) (f : Sec → Sec) : (s.modSec f).fact = s.fact := rfl

/-! ### State.modOpt -/

@[simp] theorem State.modOpt_pending (s : State) (f : OptBytes → OptBytes) : (s.modOpt f).pending = s.pending := rfl
@[simp] theorem State.modOpt_free (s : State) (f : OptBytes → OptBytes) : (s.modOpt f).free = s.free := rfl
@[simp] theorem State.modOpt_conf (s : State) (f : OptBytes → OptBytes) : (s.modOpt f).conf = s.conf := rfl
@[simp] theorem State.modOpt_pads (s : State) (f : OptBytes → OptBytes) : (s.modOpt f).pads = s.pads := rfl
@[simp] theorem State.modOpt_glb (s : State) (f : OptBytes → OptBytes) : (s.modOpt f).glb = s.glb := rfl
@[simp] theorem State.modOpt_pwr (s : State) (f : OptBytes → OptBytes) : (s.modOpt f).pwr = s.pwr := rfl
@[simp] theorem State.modOpt_prb (s : State) (f : OptBytes → OptBytes) : (s.modOpt f).prb = s.prb := rfl
@[simp] theorem State.modOpt_rxf (s : State) (f : OptBytes → OptBytes) : (s.modOpt f).rxf = s.rxf := rfl
@[simp] theorem State.modOpt_adc (s : State) (f : OptBytes → OptBytes) : (s.modOpt f).adc = s.adc := rfl
@[simp] theorem State.modOpt_til (s : State) (f : OptBytes → OptBytes) : (s.modOpt f).til = s.til := rfl
@[simp] theorem State.modOpt_coh (s : State) (f : OptBytes → OptBytes) : (s.modOpt f).coh = s.coh := rfl
@[simp] theorem State.modOpt_dec (s : State) (f : OptBytes → OptBytes) : (s.modOpt f).dec = s.dec := rfl
@[simp] theorem State.modOpt_qss (s : State) (f : OptBytes → OptBytes) : (s.modOpt f).qss = s.qss := rfl
@[simp] theorem State.modOpt_dts (s : State) (f : OptBytes → OptBytes) : (s.modOpt f).dts = s.dts := rfl
@[simp] theorem State.modOpt_zon (s : State) (f : OptBytes → OptBytes) : (s.modOpt f).zon = s.zon := rfl
@[simp] theorem State.modOpt_acq (s : State) (f : OptBytes → OptBytes) : (s.modOpt f).acq = s.acq := rfl
@[simp] theorem State.modOpt_mem (s : State) (f : OptBytes → OptBytes) : (s.modOpt f).mem = s.mem := rfl
@[simp] theorem State.modOpt_net (s : State) (f : OptBytes → OptBytes) : (s.modOpt f).net = s.net := rfl
@[simp] theorem State.modOpt_tim (s : State) (f : OptBytes → OptBytes) : (s.modOpt f).tim = s.tim := rfl
@[simp] theorem State.modOpt_hka (s : State) (f : OptBytes → OptBytes) : (s.modOpt f).hka = s.hka := rfl
@[simp] theorem State.modOpt_sec (s : State) (f : OptBytes → OptBytes) : (s.modOpt f).sec = s.sec := rfl
@[simp] theorem State.modOpt_cfg (s : State) (f : OptBytes → OptBytes) : (s.modOpt f).cfg = s.cfg := rfl
@[simp] theorem State.modOpt_cas (s : State) (f : OptBytes → OptBytes) : (s.modOpt f).cas = s.cas := rfl
@[simp] theorem State.modOpt_bgw (s : State) (f : OptBytes → OptBytes) : (s.modOpt f).bgw = s.bgw := rfl
@[simp] theorem State.modOpt_aos (s : State) (f : OptBytes → OptBytes) : (s.modOpt f).aos = s.aos := rfl
@[simp] theorem State.modOpt_fuses (s : State) (f : OptBytes → OptBytes) : (s.modOpt f).fuses = s.fuses := rfl
@[simp] theorem State.modOpt_fact (s : State) (f : OptBytes → OptBytes) : (s.modOpt f).fact = s.fact := rfl

/-! ### State.modStream -/

@[simp] theorem State.modStream_pending (s : State) (n : Nat) (f : Stream → Stream) : (s.modStream n f).pending = s.pending := rfl
@[simp] theorem State.modStream_free (s : State) (n : Nat) (f : Stream → Stream) : (s.modStream n f).free = s.free := rfl
@[simp] theorem State.modStream_conf (s : State) (n : Nat) (f : Stream → Stream) : (s.modStream n f).conf = s.conf := rfl
@[simp] theorem State.modStream_pads (s : State) (n : Nat) (f : Stream → Stream) : (s.modStream n f).pads = s.pads := rfl
@[simp] theorem State.modStream_glb (s : State) (n : Nat) (f : Stream → Stream) : (s.modStream n f).glb = s.glb := rfl
@[simp] theorem State.modStream_pwr (s : State) (n : Nat) (f : Stream → Stream) : (s.modStream n f).pwr = s.pwr := rfl
@[simp] theorem State.modStream_prb (s : State) (n : Nat) (f : Stream → Stream) : (s.modStream n f).prb = s.prb := rfl
@[simp] theorem State.modStream_rxf (s : State) (n : Nat) (f : Stream → Stream) : (s.modStream n f).rxf = s.rxf := rfl
@[simp] theorem State.modStream_adc (s : State) (n : Nat) (f : Stream → Stream) : (s.modStream n f).adc = s.adc := rfl
@[simp] theorem State.modStream_til (s : State) (n : Nat) (f : Stream → Stream) : (s.modStream n f).til = s.til := rfl
@[simp] theorem State.modStream_coh (s : State) (n : Nat) (f : Stream → Stream) : (s.modStream n f).coh = s.coh := rfl
@[simp] theorem State.modStream_dec (s : State) (n : Nat) (f : Stream → Stream) : (s.modStream n f).dec = s.dec := rfl
@[simp] theorem State.modStream_qss (s : State) (n : Nat) (f : Stream → Stream) : (s.modStream n f).qss = s.qss := rfl
@[simp] theorem State.modStream_dts (s : State) (n : Nat) (f : Stream → Stream) : (s.modStream n f).dts = s.dts := rfl
@[simp] theorem State.modStream_zon (s : State) (n : Nat) (f : Stream → Stream) : (s.modStream n f).zon = s.zon := rfl
@[simp] theorem State.modStream_acq (s : State) (n : Nat) (f : Stream → Stream) : (s.modStream n f).acq = s.acq := rfl
@[simp] theorem State.modStream_mem (s : State) (n : Nat) (f : Stream → Stream) : (s.modStream n f).mem = s.mem := rfl
@[simp] theorem State.modStream_net (s : State) (n : Nat) (f : Stream → Stream) : (s.modStream n f).net = { s.net with streams := modAt s.net.streams n f } := rfl
@[simp] theorem State.modStream_tim (s : State) (n : Nat) (f : Stream → Stream) : (s.modStream n f).tim = s.tim := rfl
@[simp] theorem State.modStream_hka (s : State) (n : Nat) (f : Stream → Stream) : (s.modStream n f).hka = s.hka := rfl
@[simp] theorem State.modStream_sec (s : State) (n : Nat) (f : Stream → Stream) : (s.modStream n f).sec = s.sec := rfl
@[simp] theorem State.modStream_cfg (s : State) (n : Nat) (f : Stream → Stream) : (s.modStream n f).cfg = s.cfg := rfl
@[simp] theorem State.modStream_cas (s : State) (n : Nat) (f : Stream → Stream) : (s.modStream n f).cas = s.cas := rfl
@[simp] theorem State.modStream_bgw (s : State) (n : Nat) (f : Stream → Stream) : (s.modStream n f).bgw = s.bgw := rfl
@[simp] theorem State.modStream_aos (s : State) (n : Nat) (f : Stream → Stream) : (s.modStream n f).aos = s.aos := rfl
@[simp] theorem State.modStream_flash (s : State) (n : Nat) (f : Stream → Stream) : (s.modStream n f).flash = s.flash := rfl
@[simp] theorem State.modStream_fuses (s : State) (n : Nat) (f : Stream → Stream) : (s.modStream n f).fuses = s.fuses := rfl
@[simp] theorem State.modStream_fact (s : State) (n : Nat) (f : Stream → Stream) : (s.modStream n f).fact = s.fact := rfl

/-! ### State.modPort -/

@[simp] theorem State.modPort_pending (s : State) (n : Nat) (f : Port → Port) : (s.modPort n f).pending = s.pending := rfl
@[simp] theorem State.modPort_free (s : State) (n : Nat) (f : Port → Port) : (s.modPort n f).free = s.free := rfl
@[simp] theorem State.modPort_conf (s : State) (n : Nat) (f : Port → Port) : (s.modPort n f).conf = s.conf := rfl
@[simp] theorem State.modPort_pads (s : State) (n : Nat) (f : Port → Port) : (s.modPort n f).pads = s.pads := rfl
@[simp] theorem State.modPort_glb (s : State) (n : Nat) (f : Port → Port) : (s.modPort n f).glb = s.glb := rfl
@[simp] theorem State.modPort_pwr (s : State) (n : Nat) (f : Port → Port) : (s.modPort n f).pwr = s.pwr := rfl
@[simp] theorem State.modPort_prb (s : State) (n : Nat) (f : Port → Port) : (s.modPort n f).prb = s.prb := rfl
@[simp] theorem State.modPort_rxf (s : State) (n : Nat) (f : Port → Port) : (s.modPort n f).rxf = s.rxf := rfl
@[simp] theorem State.modPort_adc (s : State) (n : Nat) (f : Port → Port) : (s.modPort n f).adc = s.adc := rfl
@[simp] theorem State.modPort_til (s : State) (n : Nat) (f : Port → Port) : (s.modPort n f).til = s.til := rfl
@[simp] theorem State.modPort_coh (s : State) (n : Nat) (f : Port → Port) : (s.modPort n f).coh = s.coh := rfl
@[simp] theorem State.modPort_dec (s : State) (n : Nat) (f : Port → Port) : (s.modPort n f).dec = s.dec := rfl
@[simp] theorem State.modPort_qss (s : State) (n : Nat) (f : Port → Port) : (s.modPort n f).qss = s.qss := rfl
@[simp] theorem State.modPort_dts (s : State) (n : Nat) (f : Port → Port) : (s.modPort n f).dts = s.dts := rfl
@[simp] theorem State.modPort_zon (s : State) (n : Nat) (f : Port → Port) : (s.modPort n f).zon = s.zon := rfl
@[simp] theorem State.modPort_acq (s : State) (n : Nat) (f : Port → Port) : (s.modPort n f).acq = s.acq := rfl
@[simp] theorem State.modPort_mem (s : State) (n : Nat) (f : Port → Port) : (s.modPort n f).mem = s.mem := rfl
@[simp] theorem State.modPort_net (s : State) (n : Nat) (f : Port → Port) : (s.modPort n f).net = s.net.setPort n (f (s.net.port n)) := rfl
@[simp] theorem State.modPort_tim (s : State) (n : Nat) (f : Port → Port) : (s.modPort n f).tim = s.tim := rfl
@[simp] theorem State.modPort_hka (s : State) (n : Nat) (f : Port → Port) : (s.modPort n f).hka = s.hka := rfl
@[simp] theorem State.modPort_sec (s : State) (n : Nat) (f : Port → Port) : (s.modPort n f).sec = s.sec := rfl
@[simp] theorem State.modPort_cfg (s : State) (n : Nat) (f : Port → Port) : (s.modPort n f).cfg = s.cfg := rfl
@[simp] theorem State.modPort_cas (s : State) (n : Nat) (f : Port → Port) : (s.modPort n f).cas = s.cas := rfl
@[simp] theorem State.modPort_bgw (s : State) (n : Nat) (f : Port → Port) : (s.modPort n f).bgw = s.bgw := rfl
@[simp] theorem State.modPort_aos (s : State) (n : Nat) (f : Port → Port) : (s.modPort n f).aos = s.aos := rfl
@[simp] theorem State.modPort_flash (s : State) (n : Nat) (f : Port → Port) : (s.modPort n f).flash = s.flash := rfl
@[simp] theorem State.modPort_fuses (s : State) (n : Nat) (f : Port → Port) : (s.modPort n f).fuses = s.fuses := rfl
@[simp] theorem State.modPort_fact (s : State) (n : Nat) (f : Port → Port) : (s.modPort n f).fact = s.fact := rfl

/-! ### State.modLane -/

@[simp] theorem State.modLane_pending (s : State) (n : Nat) (f : Lane → Lane) : (s.modLane n f).pending = s.pending := rfl
@[simp] theorem State.modLane_free (s : State) (n : Nat) (f : Lane → Lane) : (s.modLane n f).free = s.free := rfl
@[simp] theorem State.modLane_conf (s : State) (n : Nat) (f : Lane → Lane) : (s.modLane n f).conf = s.conf := rfl
@[simp] theorem State.modLane_pads (s : State) (n : Nat) (f : Lane → Lane) : (s.modLane n f).pads = s.pads := rfl
@[simp] theorem State.modLane_glb (s : State) (n : Nat) (f : Lane → Lane) : (s.modLane n f).glb = s.glb := rfl
@[simp] theorem State.modLane_pwr (s : State) (n : Nat) (f : Lane → Lane) : (s.modLane n f).pwr = s.pwr := rfl
@[simp] theorem State.modLane_prb (s : State) (n : Nat) (f : Lane → Lane) : (s.modLane n f).prb = s.prb := rfl
@[simp] theorem State.modLane_rxf (s : State) (n : Nat) (f : Lane → Lane) : (s.modLane n f).rxf = s.rxf := rfl
@[simp] theorem State.modLane_adc (s : State) (n : Nat) (f : Lane → Lane) : (s.modLane n f).adc = { s.adc with lanes := modAt s.adc.lanes n f } := rfl
@[simp] theorem State.modLane_til (s : State) (n : Nat) (f : Lane → Lane) : (s.modLane n f).til = s.til := rfl
@[simp] theorem State.modLane_coh (s : State) (n : Nat) (f : Lane → Lane) : (s.modLane n f).coh = s.coh := rfl
@[simp] theorem State.modLane_dec (s : State) (n : Nat) (f : Lane → Lane) : (s.modLane n f).dec = s.dec := rfl
@[simp] theorem State.modLane_qss (s : State) (n : Nat) (f : Lane → Lane) : (s.modLane n f).qss = s.qss := rfl
@[simp] theorem State.modLane_dts (s : State) (n : Nat) (f : Lane → Lane) : (s.modLane n f).dts = s.dts := rfl
@[simp] theorem State.modLane_zon (s : State) (n : Nat) (f : Lane → Lane) : (s.modLane n f).zon = s.zon := rfl
@[simp] theorem State.modLane_acq (s : State) (n : Nat) (f : Lane → Lane) : (s.modLane n f).acq = s.acq := rfl
@[simp] theorem State.modLane_mem (s : State) (n : Nat) (f : Lane → Lane) : (s.modLane n f).mem = s.mem := rfl
@[simp] theorem State.modLane_net (s : State) (n : Nat) (f : Lane → Lane) : (s.modLane n f).net = s.net := rfl
@[simp] theorem State.modLane_tim (s : State) (n : Nat) (f : Lane → Lane) : (s.modLane n f).tim = s.tim := rfl
@[simp] theorem State.modLane_hka (s : State) (n : Nat) (f : Lane → Lane) : (s.modLane n f).hka = s.hka := rfl
@[simp] theorem State.modLane_sec (s : State) (n : Nat) (f : Lane → Lane) : (s.modLane n f).sec = s.sec := rfl
@[simp] theorem State.modLane_cfg (s : State) (n : Nat) (f : Lane → Lane) : (s.modLane n f).cfg = s.cfg := rfl
@[simp] theorem State.modLane_cas (s : State) (n : Nat) (f : Lane → Lane) : (s.modLane n f).cas = s.cas := rfl
@[simp] theorem State.modLane_bgw (s : State) (n : Nat) (f : Lane → Lane) : (s.modLane n f).bgw = s.bgw := rfl
@[simp] theorem State.modLane_aos (s : State) (n : Nat) (f : Lane → Lane) : (s.modLane n f).aos = s.aos := rfl
@[simp] theorem State.modLane_flash (s : State) (n : Nat) (f : Lane → Lane) : (s.modLane n f).flash = s.flash := rfl
@[simp] theorem State.modLane_fuses (s : State) (n : Nat) (f : Lane → Lane) : (s.modLane n f).fuses = s.fuses := rfl
@[simp] theorem State.modLane_fact (s : State) (n : Nat) (f : Lane → Lane) : (s.modLane n f).fact = s.fact := rfl

/-! ### State.modSession -/

@[simp] theorem State.modSession_pending (s : State) (n : Nat) (f : Session → Session) : (s.modSession n f).pending = s.pending := rfl
@[simp] theorem State.modSession_free (s : State) (n : Nat) (f : Session → Session) : (s.modSession n f).free = s.free := rfl
@[simp] theorem State.modSession_conf (s : State) (n : Nat) (f : Session → Session) : (s.modSession n f).conf = s.conf := rfl
@[simp] theorem State.modSession_pads (s : State) (n : Nat) (f : Session → Session) : (s.modSession n f).pads = s.pads := rfl
@[simp] theorem State.modSession_glb (s : State) (n : Nat) (f : Session → Session) : (s.modSession n f).glb = s.glb := rfl
@[simp] theorem State.modSession_pwr (s : State) (n : Nat) (f : Session → Session) : (s.modSession n f).pwr = s.pwr := rfl
@[simp] theorem State.modSession_prb (s : State) (n : Nat) (f : Session → Session) : (s.modSession n f).prb = s.prb := rfl
@[simp] theorem State.modSession_rxf (s : State) (n : Nat) (f : Session → Session) : (s.modSession n f).rxf = s.rxf := rfl
@[simp] theorem State.modSession_adc (s : State) (n : Nat) (f : Session → Session) : (s.modSession n f).adc = s.adc := rfl
@[simp] theorem State.modSession_til (s : State) (n : Nat) (f : Session → Session) : (s.modSession n f).til = s.til := rfl
@[simp] theorem State.modSession_coh (s : State) (n : Nat) (f : Session → Session) : (s.modSession n f).coh = s.coh := rfl
@[simp] theorem State.modSession_dec (s : State) (n : Nat) (f : Session → Session) : (s.modSession n f).dec = s.dec := rfl
@[simp] theorem State.modSession_qss (s : State) (n : Nat) (f : Session → Session) : (s.modSession n f).qss = s.qss := rfl
@[simp] theorem State.modSession_dts (s : State) (n : Nat) (f : Session → Session) : (s.modSession n f).dts = s.dts := rfl
@[simp] theorem State.modSession_zon (s : State) (n : Nat) (f : Session → Session) : (s.modSession n f).zon = s.zon := rfl
@[simp] theorem State.modSession_acq (s : State) (n : Nat) (f : Session → Session) : (s.modSession n f).acq = s.acq := rfl
@[simp] theorem State.modSession_mem (s : State) (n : Nat) (f : Session → Session) : (s.modSession n f).mem = s.mem := rfl
@[simp] theorem State.modSession_net (s : State) (n : Nat) (f : Session → Session) : (s.modSession n f).net = s.net := rfl
@[simp] theorem State.modSession_tim (s : State) (n : Nat) (f : Session → Session) : (s.modSession n f).tim = s.tim := rfl
@[simp] theorem State.modSession_hka (s : State) (n : Nat) (f : Session → Session) : (s.modSession n f).hka = s.hka := rfl
@[simp] theorem State.modSession_cfg (s : State) (n : Nat) (f : Session → Session) : (s.modSession n f).cfg = s.cfg := rfl
@[simp] theorem State.modSession_cas (s : State) (n : Nat) (f : Session → Session) : (s.modSession n f).cas = s.cas := rfl
@[simp] theorem State.modSession_bgw (s : State) (n : Nat) (f : Session → Session) : (s.modSession n f).bgw = s.bgw := rfl
@[simp] theorem State.modSession_aos (s : State) (n : Nat) (f : Session → Session) : (s.modSession n f).aos = s.aos := rfl
@[simp] theorem State.modSession_flash (s : State) (n : Nat) (f : Session → Session) : (s.modSession n f).flash = s.flash := rfl
@[simp] theorem State.modSession_fuses (s : State) (n : Nat) (f : Session → Session) : (s.modSession n f).fuses = s.fuses := rfl
@[simp] theorem State.modSession_fact (s : State) (n : Nat) (f : Session → Session) : (s.modSession n f).fact = s.fact := rfl

/-! ### State.setReq -/

@[simp] theorem State.setReq_pending (s : State) (n : Nat) (r : ReqState) (i : Nat) : (s.setReq n r i).pending = s.pending := rfl
@[simp] theorem State.setReq_free (s : State) (n : Nat) (r : ReqState) (i : Nat) : (s.setReq n r i).free = s.free := rfl
@[simp] theorem State.setReq_conf (s : State) (n : Nat) (r : ReqState) (i : Nat) : (s.setReq n r i).conf = s.conf := rfl
@[simp] theorem State.setReq_pads (s : State) (n : Nat) (r : ReqState) (i : Nat) : (s.setReq n r i).pads = s.pads := rfl
@[simp] theorem State.setReq_glb (s : State) (n : Nat) (r : ReqState) (i : Nat) : (s.setReq n r i).glb = s.glb := rfl
@[simp] theorem State.setReq_pwr (s : State) (n : Nat) (r : ReqState) (i : Nat) : (s.setReq n r i).pwr = s.pwr := rfl
@[simp] theorem State.setReq_prb (s : State) (n : Nat) (r : ReqState) (i : Nat) : (s.setReq n r i).prb = s.prb := rfl
@[simp] theorem State.setReq_rxf (s : State) (n : Nat) (r : ReqState) (i : Nat) : (s.setReq n r i).rxf = s.rxf := rfl
@[simp] theorem State.setReq_adc (s : State) (n : Nat) (r : ReqState) (i : Nat) : (s.setReq n r i).adc = s.adc := rfl
@[simp] theorem State.setReq_til (s : State) (n : Nat) (r : ReqState) (i : Nat) : (s.setReq n r i).til = s.til := rfl
@[simp] theorem State.setReq_coh (s : State) (n : Nat) (r : ReqState) (i : Nat) : (s.setReq n r i).coh = s.coh := rfl
@[simp] theorem State.setReq_dec (s : State) (n : Nat) (r : ReqState) (i : Nat) : (s.setReq n r i).dec = s.dec := rfl
@[simp] theorem State.setReq_qss (s : State) (n : Nat) (r : ReqState) (i : Nat) : (s.setReq n r i).qss = s.qss := rfl
@[simp] theorem State.setReq_dts (s : State) (n : Nat) (r : ReqState) (i : Nat) : (s.setReq n r i).dts = s.dts := rfl
@[simp] theorem State.setReq_zon (s : State) (n : Nat) (r : ReqState) (i : Nat) : (s.setReq n r i).zon = s.zon := rfl
@[simp] theorem State.setReq_acq (s : State) (n : Nat) (r : ReqState) (i : Nat) : (s.setReq n r i).acq = s.acq := rfl
@[simp] theorem State.setReq_mem (s : State) (n : Nat) (r : ReqState) (i : Nat) : (s.setReq n r i).mem = s.mem := rfl
@[simp] theorem State.setReq_net (s : State) (n : Nat) (r : ReqState) (i : Nat) : (s.setReq n r i).net = s.net := rfl
@[simp] theorem State.setReq_tim (s : State) (n : Nat) (r : ReqState) (i : Nat) : (s.setReq n r i).tim = s.tim := rfl
@[simp] theorem State.setReq_hka (s : State) (n : Nat) (r : ReqState) (i : Nat) : (s.setReq n r i).hka = s.hka := rfl
@[simp] theorem State.setReq_cfg (s : State) (n : Nat) (r : ReqState) (i : Nat) : (s.setReq n r i).cfg = s.cfg := rfl
@[simp] theorem State.setReq_cas (s : State) (n : Nat) (r : ReqState) (i : Nat) : (s.setReq n r i).cas = s.cas := rfl
@[simp] theorem State.setReq_bgw (s : State) (n : Nat) (r : ReqState) (i : Nat) : (s.setReq n r i).bgw = s.bgw := rfl
@[simp] theorem State.setReq_aos (s : State) (n : Nat) (r : ReqState) (i : Nat) : (s.setReq n r i).aos = s.aos := rfl
@[simp] theorem State.setReq_flash (s : State) (n : Nat) (r : ReqState) (i : Nat) : (s.setReq n r i).flash = s.flash := rfl
@[simp] theorem State.setReq_fuses (s : State) (n : Nat) (r : ReqState) (i : Nat) : (s.setReq n r i).fuses = s.fuses := rfl
@[simp] theorem State.setReq_fact (s : State) (n : Nat) (r : ReqState) (i : Nat) : (s.setReq n r i).fact = s.fact := rfl

/-! ### State.askRestart -/

@[simp] theorem State.askRestart_pending (s : State) (b : Option (List Nat)) (c : Bool) (t : Nat) : (s.askRestart b c t).pending = s.pending := rfl
@[simp] theorem State.askRestart_free (s : State) (b : Option (List Nat)) (c : Bool) (t : Nat) : (s.askRestart b c t).free = s.free := rfl
@[simp] theorem State.askRestart_conf (s : State) (b : Option (List Nat)) (c : Bool) (t : Nat) : (s.askRestart b c t).conf = s.conf := rfl
@[simp] theorem State.askRestart_pads (s : State) (b : Option (List Nat)) (c : Bool) (t : Nat) : (s.askRestart b c t).pads = s.pads := rfl
@[simp] theorem State.askRestart_glb (s : State) (b : Option (List Nat)) (c : Bool) (t : Nat) : (s.askRestart b c t).glb = s.glb := rfl
@[simp] theorem State.askRestart_pwr (s : State) (b : Option (List Nat)) (c : Bool) (t : Nat) : (s.askRestart b c t).pwr = s.pwr := rfl
@[simp] theorem State.askRestart_prb (s : State) (b : Option (List Nat)) (c : Bool) (t : Nat) : (s.askRestart b c t).prb = s.prb := rfl
@[simp] theorem State.askRestart_rxf (s : State) (b : Option (List Nat)) (c : Bool) (t : Nat) : (s.askRestart b c t).rxf = s.rxf := rfl
@[simp] theorem State.askRestart_adc (s : State) (b : Option (List Nat)) (c : Bool) (t : Nat) : (s.askRestart b c t).adc = s.adc := rfl
@[simp] theorem State.askRestart_til (s : State) (b : Option (List Nat)) (c : Bool) (t : Nat) : (s.askRestart b c t).til = s.til := rfl
@[simp] theorem State.askRestart_dec (s : State) (b : Option (List Nat)) (c : Bool) (t : Nat) : (s.askRestart b c t).dec = s.dec := rfl
@[simp] theorem State.askRestart_qss (s : State) (b : Option (List Nat)) (c : Bool) (t : Nat) : (s.askRestart b c t).qss = s.qss := rfl
@[simp] theorem State.askRestart_dts (s : State) (b : Option (List Nat)) (c : Bool) (t : Nat) : (s.askRestart b c t).dts = s.dts := rfl
@[simp] theorem State.askRestart_zon (s : State) (b : Option (List Nat)) (c : Bool) (t : Nat) : (s.askRestart b c t).zon = s.zon := rfl
@[simp] theorem State.askRestart_acq (s : State) (b : Option (List Nat)) (c : Bool) (t : Nat) : (s.askRestart b c t).acq = s.acq := rfl
@[simp] theorem State.askRestart_mem (s : State) (b : Option (List Nat)) (c : Bool) (t : Nat) : (s.askRestart b c t).mem = s.mem := rfl
@[simp] theorem State.askRestart_net (s : State) (b : Option (List Nat)) (c : Bool) (t : Nat) : (s.askRestart b c t).net = s.net := rfl
@[simp] theorem State.askRestart_tim (s : State) (b : Option (List Nat)) (c : Bool) (t : Nat) : (s.askRestart b c t).tim = s.tim := rfl
@[simp] theorem State.askRestart_hka (s : State) (b : Option (List Nat)) (c : Bool) (t : Nat) : (s.askRestart b c t).hka = s.hka := rfl
@[simp] theorem State.askRestart_sec (s : State) (b : Option (List Nat)) (c : Bool) (t : Nat) : (s.askRestart b c t).sec = s.sec := rfl
@[simp] theorem State.askRestart_cfg (s : State) (b : Option (List Nat)) (c : Bool) (t : Nat) : (s.askRestart b c t).cfg = s.cfg := rfl
@[simp] theorem State.askRestart_cas (s : State) (b : Option (List Nat)) (c : Bool) (t : Nat) : (s.askRestart b c t).cas = s.cas := rfl
@[simp] theorem State.askRestart_bgw (s : State) (b : Option (List Nat)) (c : Bool) (t : Nat) : (s.askRestart b c t).bgw = s.bgw := rfl
@[simp] theorem State.askRestart_aos (s : State) (b : Option (List Nat)) (c : Bool) (t : Nat) : (s.askRestart b c t).aos = s.aos := rfl
@[simp] theorem State.askRestart_flash (s : State) (b : Option (List Nat)) (c : Bool) (t : Nat) : (s.askRestart b c t).flash = s.flash := rfl
@[simp] theorem State.askRestart_fuses (s : State) (b : Option (List Nat)) (c : Bool) (t : Nat) : (s.askRestart b c t).fuses = s.fuses := rfl
@[simp] theorem State.askRestart_fact (s : State) (b : Option (List Nat)) (c : Bool) (t : Nat) : (s.askRestart b c t).fact = s.fact := rfl

/-! ### State.handUnit -/

@[simp] theorem State.handUnit_pending (s : State) (n : Nat) (u : StreamUnit) : (s.handUnit n u).pending = s.pending := rfl
@[simp] theorem State.handUnit_free (s : State) (n : Nat) (u : StreamUnit) : (s.handUnit n u).free = s.free := rfl
@[simp] theorem State.handUnit_conf (s : State) (n : Nat) (u : StreamUnit) : (s.handUnit n u).conf = s.conf := rfl
@[simp] theorem State.handUnit_pads (s : State) (n : Nat) (u : StreamUnit) : (s.handUnit n u).pads = s.pads := rfl
@[simp] theorem State.handUnit_glb (s : State) (n : Nat) (u : StreamUnit) : (s.handUnit n u).glb = s.glb := rfl
@[simp] theorem State.handUnit_pwr (s : State) (n : Nat) (u : StreamUnit) : (s.handUnit n u).pwr = s.pwr := rfl
@[simp] theorem State.handUnit_prb (s : State) (n : Nat) (u : StreamUnit) : (s.handUnit n u).prb = s.prb := rfl
@[simp] theorem State.handUnit_rxf (s : State) (n : Nat) (u : StreamUnit) : (s.handUnit n u).rxf = s.rxf := rfl
@[simp] theorem State.handUnit_adc (s : State) (n : Nat) (u : StreamUnit) : (s.handUnit n u).adc = s.adc := rfl
@[simp] theorem State.handUnit_til (s : State) (n : Nat) (u : StreamUnit) : (s.handUnit n u).til = s.til := rfl
@[simp] theorem State.handUnit_coh (s : State) (n : Nat) (u : StreamUnit) : (s.handUnit n u).coh = s.coh := rfl
@[simp] theorem State.handUnit_dec (s : State) (n : Nat) (u : StreamUnit) : (s.handUnit n u).dec = s.dec := rfl
@[simp] theorem State.handUnit_qss (s : State) (n : Nat) (u : StreamUnit) : (s.handUnit n u).qss = s.qss := rfl
@[simp] theorem State.handUnit_dts (s : State) (n : Nat) (u : StreamUnit) : (s.handUnit n u).dts = s.dts := rfl
@[simp] theorem State.handUnit_zon (s : State) (n : Nat) (u : StreamUnit) : (s.handUnit n u).zon = s.zon := rfl
@[simp] theorem State.handUnit_acq (s : State) (n : Nat) (u : StreamUnit) : (s.handUnit n u).acq = s.acq := rfl
@[simp] theorem State.handUnit_mem (s : State) (n : Nat) (u : StreamUnit) : (s.handUnit n u).mem = s.mem := rfl
@[simp] theorem State.handUnit_tim (s : State) (n : Nat) (u : StreamUnit) : (s.handUnit n u).tim = s.tim := rfl
@[simp] theorem State.handUnit_hka (s : State) (n : Nat) (u : StreamUnit) : (s.handUnit n u).hka = s.hka := rfl
@[simp] theorem State.handUnit_sec (s : State) (n : Nat) (u : StreamUnit) : (s.handUnit n u).sec = s.sec := rfl
@[simp] theorem State.handUnit_cfg (s : State) (n : Nat) (u : StreamUnit) : (s.handUnit n u).cfg = s.cfg := rfl
@[simp] theorem State.handUnit_cas (s : State) (n : Nat) (u : StreamUnit) : (s.handUnit n u).cas = s.cas := rfl
@[simp] theorem State.handUnit_bgw (s : State) (n : Nat) (u : StreamUnit) : (s.handUnit n u).bgw = s.bgw := rfl
@[simp] theorem State.handUnit_aos (s : State) (n : Nat) (u : StreamUnit) : (s.handUnit n u).aos = s.aos := rfl
@[simp] theorem State.handUnit_flash (s : State) (n : Nat) (u : StreamUnit) : (s.handUnit n u).flash = s.flash := rfl
@[simp] theorem State.handUnit_fuses (s : State) (n : Nat) (u : StreamUnit) : (s.handUnit n u).fuses = s.fuses := rfl
@[simp] theorem State.handUnit_fact (s : State) (n : Nat) (u : StreamUnit) : (s.handUnit n u).fact = s.fact := rfl

/-! ### noteGlobal and done -/

@[simp] theorem noteGlobal_pending (s t : State) : (noteGlobal s t).pending = t.pending := by unfold noteGlobal; split <;> rfl
@[simp] theorem noteGlobal_free (s t : State) : (noteGlobal s t).free = t.free := by unfold noteGlobal; split <;> rfl
@[simp] theorem noteGlobal_conf (s t : State) : (noteGlobal s t).conf = t.conf := by unfold noteGlobal; split <;> rfl
@[simp] theorem noteGlobal_pads (s t : State) : (noteGlobal s t).pads = t.pads := by unfold noteGlobal; split <;> rfl
@[simp] theorem noteGlobal_pwr (s t : State) : (noteGlobal s t).pwr = t.pwr := by unfold noteGlobal; split <;> rfl
@[simp] theorem noteGlobal_prb (s t : State) : (noteGlobal s t).prb = t.prb := by unfold noteGlobal; split <;> rfl
@[simp] theorem noteGlobal_rxf (s t : State) : (noteGlobal s t).rxf = t.rxf := by unfold noteGlobal; split <;> rfl
@[simp] theorem noteGlobal_adc (s t : State) : (noteGlobal s t).adc = t.adc := by unfold noteGlobal; split <;> rfl
@[simp] theorem noteGlobal_til (s t : State) : (noteGlobal s t).til = t.til := by unfold noteGlobal; split <;> rfl
@[simp] theorem noteGlobal_coh (s t : State) : (noteGlobal s t).coh = t.coh := by unfold noteGlobal; split <;> rfl
@[simp] theorem noteGlobal_dec (s t : State) : (noteGlobal s t).dec = t.dec := by unfold noteGlobal; split <;> rfl
@[simp] theorem noteGlobal_qss (s t : State) : (noteGlobal s t).qss = t.qss := by unfold noteGlobal; split <;> rfl
@[simp] theorem noteGlobal_dts (s t : State) : (noteGlobal s t).dts = t.dts := by unfold noteGlobal; split <;> rfl
@[simp] theorem noteGlobal_zon (s t : State) : (noteGlobal s t).zon = t.zon := by unfold noteGlobal; split <;> rfl
@[simp] theorem noteGlobal_acq (s t : State) : (noteGlobal s t).acq = t.acq := by unfold noteGlobal; split <;> rfl
@[simp] theorem noteGlobal_mem (s t : State) : (noteGlobal s t).mem = t.mem := by unfold noteGlobal; split <;> rfl
@[simp] theorem noteGlobal_net (s t : State) : (noteGlobal s t).net = t.net := by unfold noteGlobal; split <;> rfl
@[simp] theorem noteGlobal_tim (s t : State) : (noteGlobal s t).tim = t.tim := by unfold noteGlobal; split <;> rfl
@[simp] theorem noteGlobal_hka (s t : State) : (noteGlobal s t).hka = t.hka := by unfold noteGlobal; split <;> rfl
@[simp] theorem noteGlobal_sec (s t : State) : (noteGlobal s t).sec = t.sec := by unfold noteGlobal; split <;> rfl
@[simp] theorem noteGlobal_cfg (s t : State) : (noteGlobal s t).cfg = t.cfg := by unfold noteGlobal; split <;> rfl
@[simp] theorem noteGlobal_cas (s t : State) : (noteGlobal s t).cas = t.cas := by unfold noteGlobal; split <;> rfl
@[simp] theorem noteGlobal_bgw (s t : State) : (noteGlobal s t).bgw = t.bgw := by unfold noteGlobal; split <;> rfl
@[simp] theorem noteGlobal_aos (s t : State) : (noteGlobal s t).aos = t.aos := by unfold noteGlobal; split <;> rfl
@[simp] theorem noteGlobal_flash (s t : State) : (noteGlobal s t).flash = t.flash := by unfold noteGlobal; split <;> rfl
@[simp] theorem noteGlobal_fuses (s t : State) : (noteGlobal s t).fuses = t.fuses := by unfold noteGlobal; split <;> rfl
@[simp] theorem noteGlobal_fact (s t : State) : (noteGlobal s t).fact = t.fact := by unfold noteGlobal; split <;> rfl

/-- Of GLB only the status bits can change at the end of a command. -/
theorem noteGlobal_glb (s t : State) : (noteGlobal s t).glb = { t.glb with int := (noteGlobal s t).glb.int } := by
  unfold noteGlobal; split <;> rfl

/-- GLB_INT_ENABLE is not written by the end of a command. -/
theorem noteGlobal_en (s t : State) : (noteGlobal s t).glb.int.en = t.glb.int.en := by
  unfold noteGlobal IntPair.raiseIf IntPair.raise
  split
  · rfl
  · dsimp only
    split <;> split <;> rfl

/-- What every meaning answers: a next state, the one its operation leaves with the queue as it was and GLB's record. -/
theorem State.done_eq (s t : State) : s.done t = .next { t with glb := (noteGlobal s t).glb, pending := s.pending } := by
  unfold State.done noteGlobal
  split <;> rfl

/-- Raising one bit of a pair leaves its other status bits. -/
theorem IntPair.raise_other (p : IntPair) (b i : Nat) (h : b ≠ i) : (p.raise b).st.getLsbD i = p.st.getLsbD i := by
  unfold IntPair.raise
  rw [BitVec.getLsbD_or, BitVec.getLsbD_ofNat, Nat.testBit_two_pow]
  simp [h]

/-- The end of a command raises no status bit of GLB but FAULT and MODE. -/
theorem noteGlobal_other (s t : State) (i : Nat) (h : 2 ≤ i) : (noteGlobal s t).glb.int.st.getLsbD i = t.glb.int.st.getLsbD i := by
  have key : ∀ (p : IntPair) (c : Bool) (b : Nat), b ≠ i → (p.raiseIf c b).st.getLsbD i = p.st.getLsbD i := by
    intro p c b hb
    unfold IntPair.raiseIf
    split
    · exact IntPair.raise_other p b i hb
    · rfl
  unfold noteGlobal
  split
  · rfl
  · dsimp only
    rw [key _ _ 1 (by omega), key _ _ 0 (by omega)]

/-- The status bits FAULT and MODE apart, a command leaves the state its operation leaves, with the queue as it was. -/
theorem State.done_status (s t : State) :
    ∃ w : Word, s.done t = .next { t.withStatus w with pending := s.pending } ∧ ∀ b : Nat, 2 ≤ b → w.getLsbD b = t.glb.int.st.getLsbD b := by
  refine ⟨(noteGlobal s t).glb.int.st, ?_, fun b hb => noteGlobal_other s t b hb⟩
  rw [State.done_eq]
  have hg := noteGlobal_glb s t
  have he := noteGlobal_en s t
  have hi : (noteGlobal s t).glb.int = { t.glb.int with st := (noteGlobal s t).glb.int.st } := by
    cases hn : (noteGlobal s t).glb.int
    rw [hn] at he
    exact congrArg _ he
  rw [hg, hi]
  rfl

/-- A command whose meaning ends with `t` leaves `t`. -/
theorem leaves_of_done {c : Instr} {s t : State} (h : exec c s = s.done t) : Leaves c s t := by
  obtain ⟨w, hw, hb⟩ := State.done_status s t
  exact ⟨w, h.trans hw, hb⟩

/-- The same for a meaning equal to a state written out. -/
theorem leaves_of_eq {c : Instr} {s t u : State} (h : t = u) (hc : exec c s = s.done t) : Leaves c s u := h ▸ leaves_of_done hc

end Sys2Proof.Machine
end

