-- ==== Sys2Proof/Laws/Session.lean ====
section
/-! SUPPORT. What an accepted host command does around its own effect (18 R396 to R400): the state it starts from, its response, and the
parts of the state the session leaves alone. -/

namespace Sys2Proof.Machine

/-! ### The arrival of a datagram -/

/-- A frame received changes NET alone. -/
theorem State.received_parts (s : State) (p : Nat) (x : RxMeta) : s.received p x = { s with net := (s.received p x).net } := rfl

/-- A datagram that arrives changes NET alone. -/
theorem State.arrives_parts {s t : State} {v : Via} (h : s.arrives v = some t) : t = { s with net := t.net } := by
  unfold State.arrives at h
  split at h
  · cases h; rfl
  · split at h
    · cases h; rfl
    · cases h

/-- An accepted command starts from a state that differs in SEC and NET alone. -/
theorem State.entered_parts (s : State) (h : Hdr) :
    s.entered h = { s with sec := (s.entered h).sec, net := (s.entered h).net } := by
  unfold State.entered
  cases he : s.arrives h.via with
  | none => rfl
  | some t => rw [Option.getD_some, State.arrives_parts he]; rfl

/-! ### Sessions -/

/-- A change that keeps SID and state changes the session found under a SID. -/
theorem State.session_modSession (s : State) (sid : Nat) (f : Session → Session)
    (hf : ∀ x, (f x).isOpen = x.isOpen ∧ (f x).sid = x.sid) :
    (s.modSession sid f).session sid = (s.session sid).map f := by
  have key : ∀ l : List Session, (l.map fun x => if x.sid = sid then f x else x).find? (fun x => x.isOpen && x.sid == sid) =
      (l.find? fun x => x.isOpen && x.sid == sid).map f := by
    intro l
    induction l with
    | nil => rfl
    | cons a l ih =>
      rw [List.map_cons, List.find?_cons, List.find?_cons]
      by_cases ha : a.sid = sid
      · simp only [ha, if_true, (hf a).1, (hf a).2, beq_self_eq_true, Bool.and_true]
        cases a.isOpen
        · exact ih
        · rfl
      · have hb : (a.sid == sid) = false := by simpa using ha
        simp only [ha, if_false, hb, Bool.and_false]
        exact ih
  exact key s.sec.sess

/-- The session after acceptance is found under its SID. -/
theorem State.entered_session {s : State} {h : Hdr} {x : Session} (hx : s.session h.sid = some x) :
    (s.entered h).session h.sid = some (x.entered s h) := by
  have ha : ∀ a : State, a.sec = s.sec → a.tim = s.tim →
      ((a.modSession h.sid fun y => { y.from h.via with lastCmd := a.tim.tick }).modSession h.sid fun y => y.accept h.seq a.tim.tick).session h.sid =
        some (x.entered s h) := by
    intro a e1 e2
    have hs : a.session h.sid = some x := by rw [← hx]; unfold State.session; rw [e1]
    rw [State.session_modSession _ _ _ (by intro y; exact ⟨rfl, rfl⟩), State.session_modSession _ _ _ (by intro y; exact ⟨rfl, rfl⟩), hs,
      Option.map_some, Option.map_some, e2]
    rfl
  unfold State.entered
  cases he : s.arrives h.via with
  | none => exact ha s rfl rfl
  | some t => exact ha t (by rw [State.arrives_parts he]) (by rw [State.arrives_parts he])

/-! ### Responses -/

/-- A datagram sent changes SEC and NET alone. -/
theorem State.sendMgmt_parts (s : State) (m : MgmtSend) :
    s.sendMgmt m = { s with sec := (s.sendMgmt m).sec, net := (s.sendMgmt m).net } := by
  unfold State.sendMgmt
  split <;> rfl

/-- A datagram sent waits on its transport. -/
theorem State.sendMgmt_mem (s : State) (m : MgmtSend) : m ∈ (s.sendMgmt m).outbox m.transport := by
  unfold State.sendMgmt State.outbox
  cases hm : m.transport <;> simp

/-- What waits to be sent still waits after another datagram is sent. -/
theorem State.sendMgmt_keeps {s : State} {m x : MgmtSend} {tr : Transport} (h : x ∈ s.outbox tr) : x ∈ (s.sendMgmt m).outbox tr := by
  unfold State.sendMgmt
  unfold State.outbox at *
  cases tr <;> cases hm : m.transport <;> simp_all

/-- Responses sent `n` times change SEC and NET alone. -/
theorem respondMany_parts (x : Session) (seq : Nat) (r : Response) (l : List Nat) (s : State) :
    l.foldl (fun s _ => s.respond x seq r) s =
      { s with sec := (l.foldl (fun s _ => s.respond x seq r) s).sec, net := (l.foldl (fun s _ => s.respond x seq r) s).net } := by
  induction l generalizing s with
  | nil => rfl
  | cons a l ih =>
    rw [List.foldl_cons, ih]
    have h := State.sendMgmt_parts s { transport := x.transport, dst := x.src, msg := .response x.sid seq x.kM2h r }
    unfold State.respond
    rw [h]

/-- A response sent at least once waits to be sent. -/
theorem respondMany_mem (x : Session) (seq : Nat) (r : Response) (n : Nat) (s : State) :
    ({ transport := x.transport, dst := x.src, msg := .response x.sid seq x.kM2h r } : MgmtSend) ∈
      ((List.range (n + 1)).foldl (fun s _ => s.respond x seq r) s).outbox x.transport := by
  rw [List.range_succ, List.foldl_append, List.foldl_cons, List.foldl_nil]
  exact State.sendMgmt_mem _ { transport := x.transport, dst := x.src, msg := .response x.sid seq x.kM2h r }

/-- The response of a command changes SEC and NET alone. -/
theorem State.answer_parts (s : State) (sid seq : Nat) (r : Response) :
    s.answer sid seq r = { s with sec := (s.answer sid seq r).sec, net := (s.answer sid seq r).net } := by
  unfold State.answer
  split
  · rfl
  · dsimp only
    rw [respondMany_parts]
    rfl

/-- The response of an open session's command waits to be sent. -/
theorem State.answer_mem {s : State} {sid seq : Nat} {x : Session} (r : Response) (h : s.session sid = some x) :
    ({ transport := x.transport, dst := x.src, msg := .response x.sid seq x.kM2h r } : MgmtSend) ∈ (s.answer sid seq r).outbox x.transport := by
  unfold State.answer
  rw [h]
  exact respondMany_mem x seq r _ _

/-- A datagram sent leaves the sessions. -/
theorem State.sendMgmt_sess (s : State) (m : MgmtSend) : (s.sendMgmt m).sec.sess = s.sec.sess := by
  unfold State.sendMgmt
  split <;> rfl

/-- After its response a session is as it was, with the response kept. -/
theorem State.answer_session {s : State} {sid seq : Nat} {x : Session} (r : Response) (h : s.session sid = some x) :
    (s.answer sid seq r).session sid = some (x.keep seq r) := by
  have key : ∀ (l : List Nat) (a : State), (l.foldl (fun s _ => s.respond x seq r) a).sec.sess = a.sec.sess := by
    intro l
    induction l with
    | nil => exact fun _ => rfl
    | cons b l ih => intro a; rw [List.foldl_cons, ih]; exact State.sendMgmt_sess _ _
  have hm := State.session_modSession s sid (fun x => x.keep seq r) (fun _ => ⟨rfl, rfl⟩)
  rw [h] at hm
  unfold State.answer
  rw [h]
  dsimp only
  unfold State.session at hm ⊢
  rw [key]
  exact hm

/-! ### Accepted commands -/

/-- A command that is ready runs its effect in the state it has entered, then answers. -/
theorem commandThen_ready {s : State} {h : Hdr} {code role : Nat} {x : Session} (hr : Ready s h code role x)
    (f : State → Session → State × Option Response × (State → State)) :
    s.commandThen h code role f =
      match (f (s.entered h) (x.entered s h)).2.1 with
      | some r => (f (s.entered h) (x.entered s h)).2.2 ((f (s.entered h) (x.entered s h)).1.answer h.sid h.seq r)
      | none => (f (s.entered h) (x.entered s h)).2.2 (f (s.entered h) (x.entered s h)).1 := by
  obtain ⟨t, ht⟩ := Option.isSome_iff_exists.mp hr.link
  have hp := State.arrives_parts ht
  have hans : t.answers = true := by
    have : t.answers = s.answers := by rw [hp]; rfl
    rw [this]; exact hr.answers
  have hlife : ¬ (x.role < role ∨ t.fuses.lifecycle = 3 ∧ scrappedAllows code = false) := by
    have : t.fuses = s.fuses := by rw [hp]
    rw [this]
    have h1 := hr.role
    rcases hr.life with h2 | h2
    · intro h3; rcases h3 with h3 | h3
      · omega
      · exact h2 h3.1
    · intro h3; rcases h3 with h3 | h3
      · omega
      · rw [h2] at h3; exact Bool.noConfusion h3.2
  have hy := State.entered_session hr.session
  have he : s.entered h =
      { (t.modSession h.sid fun y => { y.from h.via with lastCmd := t.tim.tick }).modSession h.sid (fun y => y.accept h.seq t.tim.tick) with
        sec := { ((t.modSession h.sid fun y => { y.from h.via with lastCmd := t.tim.tick }).modSession h.sid fun y => y.accept h.seq t.tim.tick).sec with
          cmds := wrapAdd 32 t.sec.cmds 1 } } := by
    unfold State.entered; rw [ht]; rfl
  dsimp only at he
  unfold State.commandThen
  rw [hr.session]
  have hfresh : (x.from h.via).replay h.seq = .run := hr.fresh
  simp only [ht, hans, hfresh]
  rw [if_neg (by simp)]
  refine (if_neg hlife).trans ?_
  rw [he] at hy ⊢
  split
  · rename_i h0; cases h0.symm.trans hy
  · rename_i y h0
    cases h0.symm.trans hy
    rfl

/-- A command that answers at once and does nothing after its response. -/
theorem command1_ready {s : State} {h : Hdr} {code role : Nat} {x : Session} (hr : Ready s h code role x)
    (f : State → Session → State × Response) :
    s.command1 h code role f =
      (f (s.entered h) (x.entered s h)).1.answer h.sid h.seq (f (s.entered h) (x.entered s h)).2 := by
  unfold State.command1 State.command
  rw [commandThen_ready hr]
  rfl

/-! ### The core of the state -/

/-- A change of the status bits is none of the core. -/
@[simp] theorem State.withStatus_core (s : State) (w : Word) : (s.withStatus w).core = s.core := rfl

/-- A frame received leaves the core. -/
theorem State.received_core (s : State) (p : Nat) (x : RxMeta) : (s.received p x).core = s.core := by
  unfold State.received State.modPort Net.setPort Net.port State.core Port.core
  split <;> rfl

/-- A datagram that arrives leaves the core. -/
theorem State.arrives_core {s t : State} {v : Via} (h : s.arrives v = some t) : t.core = s.core := by
  unfold State.arrives at h
  split at h
  · cases h; rfl
  · split at h
    · cases h; exact State.received_core _ _ _
    · cases h

/-- Acceptance leaves the core. -/
@[simp] theorem State.entered_core (s : State) (h : Hdr) : (s.entered h).core = s.core := by
  have key : ∀ a : State, a.core = s.core →
      ({ ((a.modSession h.sid fun y => { y.from h.via with lastCmd := a.tim.tick }).modSession h.sid fun y => y.accept h.seq a.tim.tick) with
        sec := { ((a.modSession h.sid fun y => { y.from h.via with lastCmd := a.tim.tick }).modSession h.sid fun y => y.accept h.seq a.tim.tick).sec with
          cmds := wrapAdd 32 a.sec.cmds 1 } } : State).core = s.core := fun a ha => ha
  unfold State.entered
  cases he : s.arrives h.via with
  | none => exact key s rfl
  | some t => exact key t (State.arrives_core he)

/-- A datagram sent leaves the core. -/
theorem State.sendMgmt_core (s : State) (m : MgmtSend) : (s.sendMgmt m).core = s.core := by
  unfold State.sendMgmt
  split <;> rfl

/-- A response leaves the core. -/
@[simp] theorem State.answer_core (s : State) (sid seq : Nat) (r : Response) : (s.answer sid seq r).core = s.core := by
  unfold State.answer
  split
  · rfl
  · rename_i x _
    dsimp only
    have key : ∀ (l : List Nat) (a : State), (l.foldl (fun s _ => s.respond x seq r) a).core = a.core := by
      intro l
      induction l with
      | nil => exact fun _ => rfl
      | cons b l ih => intro a; rw [List.foldl_cons, ih]; exact State.sendMgmt_core _ _
    rw [key]
    rfl

/-- The state an accepted command starts from: all of `s` but parts of SEC and NET that no core holds. -/
theorem State.entered_shape (s : State) (h : Hdr) : ∃ (sec : Sec) (net : Net),
    s.entered h = { s with sec := sec, net := net } ∧
    ({ sec with sess := [], spiTx := [], cmds := 0 } : Sec) = { s.sec with sess := [], spiTx := [], cmds := 0 } ∧
    ({ net with portA := net.portA.core, portB := net.portB.core } : Net) = { s.net with portA := s.net.portA.core, portB := s.net.portB.core } := by
  have hc := State.entered_core s h
  exact ⟨_, _, State.entered_parts s h, congrArg State.sec hc, congrArg State.net hc⟩

/-- The status bits and the queue are no part of what waits to be sent. -/
theorem State.outbox_status (s : State) (w : Word) (l : List Instr) (tr : Transport) :
    ({ s.withStatus w with pending := l } : State).outbox tr = s.outbox tr := by cases tr <;> rfl

/-- What a command that answers at once leaves: the core of its effect's state, and its response waiting to be sent. -/
theorem command1_answers {c : Instr} {s : State} {h : Hdr} {code role : Nat} {x : Session} (hr : Ready s h code role x)
    (f : State → Session → State × Response) (hc : exec c s = s.done (s.command1 h code role f)) (u v : State) (r : Response)
    (hf : f (s.entered h) (x.entered s h) = (u, r))
    (hs : ∃ y, u.session h.sid = some y ∧ y.transport = h.via.tr ∧ y.src = h.via.src ∧ y.sid = x.sid ∧ y.kM2h = x.kM2h)
    (hv : u.core = v.core) : Answers c s h x r v := by
  obtain ⟨y, hy, h1, h2, h3, h4⟩ := hs
  obtain ⟨w, hw, -⟩ := State.done_status s (u.answer h.sid h.seq r)
  refine ⟨{ (u.answer h.sid h.seq r).withStatus w with pending := s.pending }, hc.trans ?_, ?_, ?_⟩
  · rw [command1_ready hr, hf]; exact hw
  · exact (State.answer_core u h.sid h.seq r).trans hv
  · have := State.answer_mem (seq := h.seq) r hy
    rw [h1, h2, h3, h4] at this
    unfold State.Answered
    rw [State.outbox_status]
    exact this

/-- The state such a command leaves. -/
theorem command1_next {c : Instr} {s : State} {h : Hdr} {code role : Nat} {x : Session} (hr : Ready s h code role x)
    (f : State → Session → State × Response) (hc : exec c s = s.done (s.command1 h code role f)) (u : State) (r : Response)
    (hf : f (s.entered h) (x.entered s h) = (u, r)) :
    ∃ w, exec c s = .next { (u.answer h.sid h.seq r).withStatus w with pending := s.pending } := by
  obtain ⟨w, hw, -⟩ := State.done_status s (u.answer h.sid h.seq r)
  refine ⟨w, hc.trans ?_⟩
  rw [command1_ready hr, hf]; exact hw

/-- The same where the effect leaves the sessions alone. -/
theorem command1_answers_kept {c : Instr} {s : State} {h : Hdr} {code role : Nat} {x : Session} (hr : Ready s h code role x)
    (f : State → Session → State × Response) (hc : exec c s = s.done (s.command1 h code role f)) (u v : State) (r : Response)
    (hf : f (s.entered h) (x.entered s h) = (u, r)) (hs : u.sec.sess = (s.entered h).sec.sess)
    (hv : u.core = v.core) : Answers c s h x r v := by
  refine command1_answers hr f hc u v r hf ⟨x.entered s h, ?_, rfl, rfl, rfl, rfl⟩ hv
  rw [← State.entered_session hr.session]; unfold State.session; rw [hs]

/-! ### What acceptance leaves -/

@[simp] theorem State.entered_pending (s : State) (h : Hdr) : (s.entered h).pending = s.pending := by rw [State.entered_parts]
@[simp] theorem State.entered_free (s : State) (h : Hdr) : (s.entered h).free = s.free := by rw [State.entered_parts]
@[simp] theorem State.entered_conf (s : State) (h : Hdr) : (s.entered h).conf = s.conf := by rw [State.entered_parts]
@[simp] theorem State.entered_pads (s : State) (h : Hdr) : (s.entered h).pads = s.pads := by rw [State.entered_parts]
@[simp] theorem State.entered_glb (s : State) (h : Hdr) : (s.entered h).glb = s.glb := by rw [State.entered_parts]
@[simp] theorem State.entered_pwr (s : State) (h : Hdr) : (s.entered h).pwr = s.pwr := by rw [State.entered_parts]
@[simp] theorem State.entered_prb (s : State) (h : Hdr) : (s.entered h).prb = s.prb := by rw [State.entered_parts]
@[simp] theorem State.entered_rxf (s : State) (h : Hdr) : (s.entered h).rxf = s.rxf := by rw [State.entered_parts]
@[simp] theorem State.entered_adc (s : State) (h : Hdr) : (s.entered h).adc = s.adc := by rw [State.entered_parts]
@[simp] theorem State.entered_til (s : State) (h : Hdr) : (s.entered h).til = s.til := by rw [State.entered_parts]
@[simp] theorem State.entered_coh (s : State) (h : Hdr) : (s.entered h).coh = s.coh := by rw [State.entered_parts]
@[simp] theorem State.entered_dec (s : State) (h : Hdr) : (s.entered h).dec = s.dec := by rw [State.entered_parts]
@[simp] theorem State.entered_qss (s : State) (h : Hdr) : (s.entered h).qss = s.qss := by rw [State.entered_parts]
@[simp] theorem State.entered_dts (s : State) (h : Hdr) : (s.entered h).dts = s.dts := by rw [State.entered_parts]
@[simp] theorem State.entered_zon (s : State) (h : Hdr) : (s.entered h).zon = s.zon := by rw [State.entered_parts]
@[simp] theorem State.entered_acq (s : State) (h : Hdr) : (s.entered h).acq = s.acq := by rw [State.entered_parts]
@[simp] theorem State.entered_mem (s : State) (h : Hdr) : (s.entered h).mem = s.mem := by rw [State.entered_parts]
@[simp] theorem State.entered_tim (s : State) (h : Hdr) : (s.entered h).tim = s.tim := by rw [State.entered_parts]
@[simp] theorem State.entered_hka (s : State) (h : Hdr) : (s.entered h).hka = s.hka := by rw [State.entered_parts]
@[simp] theorem State.entered_cfg (s : State) (h : Hdr) : (s.entered h).cfg = s.cfg := by rw [State.entered_parts]
@[simp] theorem State.entered_cas (s : State) (h : Hdr) : (s.entered h).cas = s.cas := by rw [State.entered_parts]
@[simp] theorem State.entered_bgw (s : State) (h : Hdr) : (s.entered h).bgw = s.bgw := by rw [State.entered_parts]
@[simp] theorem State.entered_aos (s : State) (h : Hdr) : (s.entered h).aos = s.aos := by rw [State.entered_parts]
@[simp] theorem State.entered_flash (s : State) (h : Hdr) : (s.entered h).flash = s.flash := by rw [State.entered_parts]
@[simp] theorem State.entered_fuses (s : State) (h : Hdr) : (s.entered h).fuses = s.fuses := by rw [State.entered_parts]
@[simp] theorem State.entered_fact (s : State) (h : Hdr) : (s.entered h).fact = s.fact := by rw [State.entered_parts]

/-- Acceptance changes the sessions and the count of commands of SEC, and the count of received frames of a port. -/
theorem State.entered_secnet (s : State) (h : Hdr) :
    (s.entered h).sec = { s.sec with sess := (s.entered h).sec.sess, cmds := (s.entered h).sec.cmds } ∧
    (s.entered h).net = { s.net with portA := (s.entered h).net.portA, portB := (s.entered h).net.portB } := by
  have key : ∀ a : State, a.sec = s.sec → a.net = { s.net with portA := a.net.portA, portB := a.net.portB } →
      let b := ({ ((a.modSession h.sid fun y => { y.from h.via with lastCmd := a.tim.tick }).modSession h.sid fun y => y.accept h.seq a.tim.tick) with
        sec := { ((a.modSession h.sid fun y => { y.from h.via with lastCmd := a.tim.tick }).modSession h.sid fun y => y.accept h.seq a.tim.tick).sec with
          cmds := wrapAdd 32 a.sec.cmds 1 } } : State)
      b.sec = { s.sec with sess := b.sec.sess, cmds := b.sec.cmds } ∧ b.net = { s.net with portA := b.net.portA, portB := b.net.portB } := by
    intro a h1 h2
    refine ⟨?_, h2⟩
    simp only [State.modSession, h1]
  unfold State.entered
  cases he : s.arrives h.via with
  | none => exact key s rfl rfl
  | some t =>
    refine key t (by rw [State.arrives_parts he]) ?_
    unfold State.arrives at he
    split at he
    · cases he; rfl
    · split at he
      · cases he
        unfold State.received State.modPort Net.setPort
        dsimp only
        split <;> rfl
      · cases he

@[simp] theorem State.entered_sec_replies (s : State) (h : Hdr) : (s.entered h).sec.replies = s.sec.replies := by rw [(State.entered_secnet s h).1]
@[simp] theorem State.entered_sec_fails (s : State) (h : Hdr) : (s.entered h).sec.fails = s.sec.fails := by rw [(State.entered_secnet s h).1]
@[simp] theorem State.entered_sec_locked (s : State) (h : Hdr) : (s.entered h).sec.locked = s.sec.locked := by rw [(State.entered_secnet s h).1]
@[simp] theorem State.entered_sec_kepoch (s : State) (h : Hdr) : (s.entered h).sec.kepoch = s.sec.kepoch := by rw [(State.entered_secnet s h).1]
@[simp] theorem State.entered_sec_rekeyPend (s : State) (h : Hdr) : (s.entered h).sec.rekeyPend = s.sec.rekeyPend := by rw [(State.entered_secnet s h).1]
@[simp] theorem State.entered_sec_ksm (s : State) (h : Hdr) : (s.entered h).sec.ksm = s.sec.ksm := by rw [(State.entered_secnet s h).1]
@[simp] theorem State.entered_sec_ksmPend (s : State) (h : Hdr) : (s.entered h).sec.ksmPend = s.sec.ksmPend := by rw [(State.entered_secnet s h).1]
@[simp] theorem State.entered_sec_prevEpoch (s : State) (h : Hdr) : (s.entered h).sec.prevEpoch = s.sec.prevEpoch := by rw [(State.entered_secnet s h).1]
@[simp] theorem State.entered_sec_spiTx (s : State) (h : Hdr) : (s.entered h).sec.spiTx = s.sec.spiTx := by rw [(State.entered_secnet s h).1]
@[simp] theorem State.entered_sec_spiLast (s : State) (h : Hdr) : (s.entered h).sec.spiLast = s.sec.spiLast := by rw [(State.entered_secnet s h).1]
@[simp] theorem State.entered_sec_reqs (s : State) (h : Hdr) : (s.entered h).sec.reqs = s.sec.reqs := by rw [(State.entered_secnet s h).1]
@[simp] theorem State.entered_sec_nextReq (s : State) (h : Hdr) : (s.entered h).sec.nextReq = s.sec.nextReq := by rw [(State.entered_secnet s h).1]
@[simp] theorem State.entered_sec_restarting (s : State) (h : Hdr) : (s.entered h).sec.restarting = s.sec.restarting := by rw [(State.entered_secnet s h).1]
@[simp] theorem State.entered_sec_lifePend (s : State) (h : Hdr) : (s.entered h).sec.lifePend = s.sec.lifePend := by rw [(State.entered_secnet s h).1]
@[simp] theorem State.entered_sec_hsFail (s : State) (h : Hdr) : (s.entered h).sec.hsFail = s.sec.hsFail := by rw [(State.entered_secnet s h).1]
@[simp] theorem State.entered_sec_tagFail (s : State) (h : Hdr) : (s.entered h).sec.tagFail = s.sec.tagFail := by rw [(State.entered_secnet s h).1]
@[simp] theorem State.entered_sec_stale (s : State) (h : Hdr) : (s.entered h).sec.stale = s.sec.stale := by rw [(State.entered_secnet s h).1]
@[simp] theorem State.entered_sec_dup (s : State) (h : Hdr) : (s.entered h).sec.dup = s.sec.dup := by rw [(State.entered_secnet s h).1]
@[simp] theorem State.entered_sec_lockouts (s : State) (h : Hdr) : (s.entered h).sec.lockouts = s.sec.lockouts := by rw [(State.entered_secnet s h).1]
@[simp] theorem State.entered_sec_busy (s : State) (h : Hdr) : (s.entered h).sec.busy = s.sec.busy := by rw [(State.entered_secnet s h).1]
@[simp] theorem State.entered_sec_int (s : State) (h : Hdr) : (s.entered h).sec.int = s.sec.int := by rw [(State.entered_secnet s h).1]
@[simp] theorem State.entered_net_running (s : State) (h : Hdr) : (s.entered h).net.running = s.net.running := by rw [(State.entered_secnet s h).2]
@[simp] theorem State.entered_net_bothDown (s : State) (h : Hdr) : (s.entered h).net.bothDown = s.net.bothDown := by rw [(State.entered_secnet s h).2]
@[simp] theorem State.entered_net_arpConflict (s : State) (h : Hdr) : (s.entered h).net.arpConflict = s.net.arpConflict := by rw [(State.entered_secnet s h).2]
@[simp] theorem State.entered_net_streams (s : State) (h : Hdr) : (s.entered h).net.streams = s.net.streams := by rw [(State.entered_secnet s h).2]
@[simp] theorem State.entered_net_rows (s : State) (h : Hdr) : (s.entered h).net.rows = s.net.rows := by rw [(State.entered_secnet s h).2]
@[simp] theorem State.entered_net_latches (s : State) (h : Hdr) : (s.entered h).net.latches = s.net.latches := by rw [(State.entered_secnet s h).2]
@[simp] theorem State.entered_net_int (s : State) (h : Hdr) : (s.entered h).net.int = s.net.int := by rw [(State.entered_secnet s h).2]

/-- A command that answers at once, with an effect that neither reads nor changes what acceptance changes. -/
theorem command1_local {c : Instr} {s : State} {h : Hdr} {code role : Nat} {x : Session} (hr : Ready s h code role x)
    (f : State → Session → State × Response) (hc : exec c s = s.done (s.command1 h code role f)) (g : State → State) (r : Response)
    (hf : f (s.entered h) (x.entered s h) = (g (s.entered h), r)) (hg : ∀ a : State, (g a).core = (g a.core).core)
    (hs : ∀ a : State, (g a).sec.sess = a.sec.sess) : Answers c s h x r (g s) := by
  refine command1_answers_kept hr f hc _ _ r hf (hs _) ?_
  rw [hg, State.entered_core, ← hg]

/-- A command refused, or answered without an effect. -/
theorem command1_none {c : Instr} {s : State} {h : Hdr} {code role : Nat} {x : Session} (hr : Ready s h code role x)
    (f : State → Session → State × Response) (hc : exec c s = s.done (s.command1 h code role f)) (r : Response)
    (hf : f (s.entered h) (x.entered s h) = (s.entered h, r)) : Answers c s h x r s :=
  command1_local hr f hc id r hf (fun _ => rfl) (fun _ => rfl)

/-- An accepted command leaves what its effect leaves of the state entered, with its response on the way. -/
theorem command1_leaves {c : Instr} {s : State} {h : Hdr} {code role : Nat} {x : Session} (hr : Ready s h code role x)
    (f : State → Session → State × Response) (hc : exec c s = s.done (s.command1 h code role f)) {u : State} {r : Response}
    (hf : f (s.entered h) (x.entered s h) = (u, r)) : Leaves c s (u.answer h.sid h.seq r) :=
  leaves_of_done (by rw [hc, command1_ready hr, hf])

end Sys2Proof.Machine
end

