-- ==== Sys2Proof/Laws/RegMap.lean ====
section
/-! SUPPORT. The status map: what a read-clear store and a word written leave alone, and what a read-clear field holds after its store. -/

namespace Sys2Proof.Machine

/-- The store of a read-clear field leaves the sessions and the queue. -/
theorem rcField_parts (f : RcField) (h : f ∈ rcFields) (s : State) (v : Nat) :
    (f.set s v).sec.sess = s.sec.sess ∧ (f.set s v).pending = s.pending := by
  simp only [rcFields, List.mem_append, List.mem_flatMap] at h
  rcases h with (((((((h | ⟨n, -, h⟩) | ⟨n, -, h⟩) | ⟨n, -, h⟩) | ⟨n, -, h⟩) | ⟨n, -, h⟩) | ⟨n, -, h⟩) | ⟨n, -, h⟩) | ⟨n, -, h⟩
  · have key : ∀ f ∈ rcSingles, ∀ (s : State) (v : Nat), (f.set s v).sec.sess = s.sec.sess ∧ (f.set s v).pending = s.pending := by
      simp only [rcSingles, List.forall_mem_cons, List.not_mem_nil, false_implies, implies_true, and_true]
    exact key f h s v
  all_goals
    simp only [laneRc, spkRc, memPortRc, portRc, strRc, tdcRc, rtdRc, taskRc, List.mem_cons, List.not_mem_nil, or_false] at h
    rcases h with rfl | h <;> (try rcases h with rfl | h) <;> (try rcases h with rfl | h) <;> (try rcases h with rfl) <;> exact ⟨rfl, rfl⟩

/-- The store of a word's read-clear fields leaves the sessions and the queue. -/
theorem rcStore_parts (s : State) (addr w : Nat) : (rcStore s addr w).sec.sess = s.sec.sess ∧ (rcStore s addr w).pending = s.pending := by
  unfold rcStore
  have h : ∀ f ∈ rcAt addr, ∀ (s : State) (v : Nat), (f.set s v).sec.sess = s.sec.sess ∧ (f.set s v).pending = s.pending :=
    fun f hf => rcField_parts f (List.mem_of_mem_filter hf)
  generalize rcAt addr = l at h
  induction l generalizing s with
  | nil => exact ⟨rfl, rfl⟩
  | cons f l ih =>
    have h1 := ih (f.set s (w / 2 ^ f.lo % 2 ^ f.width)) (fun g hg => h g (List.mem_cons_of_mem _ hg))
    have h2 := h f (List.mem_cons_self ..) s (w / 2 ^ f.lo % 2 ^ f.width)
    exact ⟨h1.1.trans h2.1, h1.2.trans h2.2⟩

/-- The stores of a span leave the sessions and the queue. -/
theorem rcSpan_parts (l : List Nat) (g : Nat → Nat) (s : State) :
    (l.foldl (fun t a => rcStore t a (g a)) s).sec.sess = s.sec.sess ∧ (l.foldl (fun t a => rcStore t a (g a)) s).pending = s.pending := by
  induction l generalizing s with
  | nil => exact ⟨rfl, rfl⟩
  | cons a l ih =>
    have h := rcStore_parts s a (g a)
    exact ⟨(ih _).1.trans h.1, (ih _).2.trans h.2⟩

/-- A single read-clear field holds the bits its word was given. -/
theorem rcSingle_get : ∀ f ∈ rcSingles, ∀ (s : State) (w : Nat), f.get (rcStore s f.addr w) = w / 2 ^ f.lo % 2 ^ f.width := by
  simp only [rcSingles, List.forall_mem_cons, List.not_mem_nil, false_implies, implies_true, and_true]
  repeat' apply And.intro
  all_goals exact fun _ _ => rfl

/-- A single read-clear field lies in the core of the state. -/
theorem rcSingle_core : ∀ f ∈ rcSingles, ∀ s : State, f.get s.core = f.get s := by
  simp only [rcSingles, List.forall_mem_cons, List.not_mem_nil, false_implies, implies_true, and_true]
  repeat' apply And.intro
  all_goals exact fun _ => rfl

end Sys2Proof.Machine
end

