-- ==== Sys2Proof/WellFormed.lean ====
section
/-! DEFINITION. Well-formed commands: each operand lies in the range of the field or signal that carries it (18 R392, R400; 19 R417;
21 R450; 00 R2). What a command in range means, its refusals included, is the machine's. -/

namespace Sys2Proof

/-- What can be wrong with a command. -/
inductive Check where
  /-- SID is a uint16 (18 R392). -/
  | sid
  /-- SEQ is a uint64 (18 R392). -/
  | seq
  /-- ADDR is a uint32 (18 R400). -/
  | addr
  /-- COUNT is a uint16 (18 R400). -/
  | count
  /-- A one-byte parameter is a uint8 (18 R400). -/
  | byteParam
  /-- A two-byte parameter is a uint16 (18 R400). -/
  | shortParam
  /-- A four-byte parameter is a uint32 (18 R400). -/
  | wordParam
  /-- An eight-byte parameter is a uint64 (18 R400). -/
  | longParam
  /-- A timestamp has 96 bits (16 R345). -/
  | timestamp
  /-- A nonce, hash, NH or HP has 32 bytes (18 R393, R400). -/
  | bytes32
  /-- A public key has 65 bytes, a signature 64 (18 R384). -/
  | keyBytes
  /-- Staged data are 4 to 1,024 bytes, a multiple of 4 (19 R417). -/
  | stageData
  /-- A tiller number is below 384 (05 R106). -/
  | tiller
  /-- A block number is below 128 (05 R107). -/
  | block
  /-- A converter lane is one of four (04 R89). -/
  | lane
  /-- A converter slice is one of nine (04 R92). -/
  | slice
  /-- A converter code is an int8 (04 R90). -/
  | adcCode
  /-- A slice has 32 delay taps for each of eight phases (04 R91). -/
  | taps
  /-- The peak of a frame is at most 128 (03 R74). -/
  | peak
  /-- A DRAM channel is one of eight, a bank one of sixteen (14 R294). -/
  | dramPlace
  /-- A write lies in the 64 bytes of one unit (14 R294, R295). -/
  | unitWrite
  /-- A port is one of two (15 R317). -/
  | port
  /-- A VID has 12 bits (15 R325). -/
  | vlan
  /-- A stream is one of sixteen (15 R323). -/
  | stream
  /-- A TDC or RTD channel is one of four (16 R354; 17 R374). -/
  | channel4
  /-- A housekeeping code has 12 bits (17 R365). -/
  | hkCode
  /-- A Raman code has 12 bits (11 R239). -/
  | ramanCode
  /-- The supply feeds are two (20 R425). -/
  | feed
  /-- The GPIOs are eight (24 R507). -/
  | gpio
  /-- Ring ranks are 0 to 15, and 0xFF for all (21 R449, R450). -/
  | rank
  /-- A trigger source is ZONE, PAD or CMD (13 R274). -/
  | source
  deriving DecidableEq, Repr

/-- The tag of a received frame holds a VID. -/
def RxMeta.checks (x : RxMeta) : List (Check × Bool) := [(.vlan, x.vlan.all fun v => decide (v < 4096))]

/-- The header's checks. -/
def Hdr.checks (h : Hdr) : List (Check × Bool) :=
  [(.sid, decide (h.sid < 2 ^ 16)), (.seq, decide (h.seq < 2 ^ 64))] ++ h.via.rx.checks

/-- A read, or a write within its unit. -/
def DramReq.inUnit (q : DramReq) : Bool := q.write.all fun w => decide (0 < w.2.length ∧ w.1 + w.2.length ≤ 64)

/-- A code of a converter lane. -/
def adcRange (x : Int) : Bool := decide (-128 ≤ x ∧ x ≤ 127)

/-- Converter samples hold int8 codes. -/
def samplesInRange (l : List Sample) : Bool :=
  l.all fun x => adcRange x.xi && adcRange x.xq && adcRange x.yi && adcRange x.yq

/-- A calibration measures 32 taps at each of the eight phases. -/
def CalMeas.inRange (m : CalMeas) : Bool :=
  [m.skew1, m.skew2].all fun l => decide (l.length = 8) && l.all fun t => decide (t.length = 32)

/-- A rank of the ring. -/
def rankRange (r : Nat) : Bool := decide (r < 16)

/-- The checks of a ring message's header. -/
def RingHdr.checks (h : RingHdr) : List (Check × Bool) :=
  [(.rank, rankRange h.src && (rankRange h.dst || h.dst == 255)), (.byteParam, decide (h.hops < 2 ^ 8)), (.wordParam, decide (h.seq < 2 ^ 32))]

/-- What is checked of each command, by name. -/
def Instr.checks : Instr → List (Check × Bool)
  | .read h addr count => h.checks ++ [(.addr, decide (addr < 2 ^ 32)), (.count, decide (count < 2 ^ 16))]
  | .write h addr data => h.checks ++ [(.addr, decide (addr < 2 ^ 32)), (.count, decide (4 * data.length < 2 ^ 16))]
  | .rcFieldRead h addr _ => h.checks ++ [(.addr, decide (addr < 2 ^ 32))]
  | .latchedGroupRead h addr => h.checks ++ [(.addr, decide (addr < 2 ^ 32))]
  | .w1cWrite h addr _ _ => h.checks ++ [(.addr, decide (addr < 2 ^ 32))]
  | .intEnableWrite h addr _ => h.checks ++ [(.addr, decide (addr < 2 ^ 32))]
  | .hkRdWrite h _ => h.checks
  | .logSelWrite h _ => h.checks
  | .gpioOutWrite h _ => h.checks
  | .pwrPadfuseWrite h _ => h.checks
  | .blkrstReceiver h => h.checks
  | .blkrstTiller h => h.checks
  | .blkrstZone h => h.checks
  | .blkrstHousekeeping h => h.checks
  | .blkrstDone failed => [(.tiller, failed.all fun i => decide (i < 384))]
  | .amend h type inst _ group body => h.checks ++
      [(.shortParam, decide (type < 2 ^ 16 ∧ inst < 2 ^ 16)), (.byteParam, decide (group < 2 ^ 8)), (.count, decide (body.length < 2 ^ 16))]
  | .amendStatus h reqId => h.checks ++ [(.wordParam, decide (reqId < 2 ^ 32))]
  | .acqStart h => h.checks
  | .acqStop h => h.checks
  | .sleep h => h.checks
  | .standby h wakeS => h.checks ++ [(.wordParam, decide (wakeS < 2 ^ 32))]
  | .standbyEntry => []
  | .laserArm h => h.checks
  | .sync h => h.checks
  | .retrain h blocks => h.checks ++ [(.shortParam, decide (blocks.length < 2 ^ 16) && blocks.all fun b => decide (b < 2 ^ 16))]
  | .qsRef h mode blocks => h.checks ++
      [(.byteParam, decide (mode < 2 ^ 8)), (.shortParam, decide (blocks.length < 2 ^ 16) && blocks.all fun b => decide (b < 2 ^ 16))]
  | .bankSwap h target nx => h.checks ++ [(.byteParam, decide (target < 2 ^ 8)), (.shortParam, decide (nx < 2 ^ 16))]
  | .record h instant range => h.checks ++
      [(.timestamp, instant.all fun t => decide (t < 2 ^ 96)), (.wordParam, range.all fun r => decide (r.1 < 2 ^ 32 ∧ r.2 < 2 ^ 32))]
  | .recList h first max => h.checks ++ [(.wordParam, decide (first < 2 ^ 32)), (.byteParam, decide (max < 2 ^ 8))]
  | .recLock h recId => h.checks ++ [(.wordParam, decide (recId < 2 ^ 32))]
  | .recUnlock h recId => h.checks ++ [(.wordParam, decide (recId < 2 ^ 32))]
  | .recDelete h recId => h.checks ++ [(.wordParam, decide (recId < 2 ^ 32))]
  | .recSend h stream recId => h.checks ++ [(.byteParam, decide (stream < 2 ^ 8)), (.wordParam, decide (recId < 2 ^ 32))]
  | .rawArm h mode source tick f preF => h.checks ++
      [(.byteParam, decide (mode < 2 ^ 8 ∧ source < 2 ^ 8)), (.longParam, decide (tick < 2 ^ 64)),
       (.wordParam, decide (f < 2 ^ 32 ∧ preF < 2 ^ 32))]
  | .rawRelease h => h.checks
  | .timeSet h t => h.checks ++ [(.timestamp, decide (t < 2 ^ 96))]
  | .stageBegin h target force length hash => h.checks ++
      [(.byteParam, decide (target < 2 ^ 8 ∧ force < 2 ^ 8)), (.wordParam, decide (length < 2 ^ 32)), (.bytes32, decide (hash.length = 32))]
  | .stageEraseDone => []
  | .stageWrite h ofs data => h.checks ++
      [(.wordParam, decide (ofs < 2 ^ 32)), (.stageData, decide (4 ≤ data.length ∧ data.length ≤ 1024 ∧ data.length % 4 = 0))]
  | .stageCheck h => h.checks
  | .activate h mode => h.checks ++ [(.byteParam, decide (mode < 2 ^ 8))]
  | .attest h nonce => h.checks ++ [(.bytes32, decide (nonce.length = 32))]
  | .certRead h ofs count => h.checks ++ [(.shortParam, decide (ofs < 2 ^ 16)), (.count, decide (count < 2 ^ 16))]
  | .streamKey h stream epoch => h.checks ++ [(.byteParam, decide (stream < 2 ^ 8 ∧ epoch < 2 ^ 8))]
  | .streamRekey h => h.checks
  | .credSalt h slot => h.checks ++ [(.byteParam, decide (slot < 2 ^ 8))]
  | .credSet h slot credId role iter kc => h.checks ++
      [(.byteParam, decide (slot < 2 ^ 8 ∧ role < 2 ^ 8)), (.shortParam, decide (credId < 2 ^ 16)), (.wordParam, decide (iter < 2 ^ 32)),
       (.bytes32, decide (kc.length = 32))]
  | .credClear h slot => h.checks ++ [(.byteParam, decide (slot < 2 ^ 8))]
  | .keyFuse h slot hash => h.checks ++ [(.byteParam, decide (slot < 2 ^ 8)), (.bytes32, decide (hash.length = 32))]
  | .keyRevoke h slot signer pub sig => h.checks ++
      [(.byteParam, decide (slot < 2 ^ 8 ∧ signer < 2 ^ 8)), (.keyBytes, decide (pub.length = 65 ∧ sig.length = 64))]
  | .lifecycle h target confirm => h.checks ++ [(.byteParam, decide (target < 2 ^ 8)), (.wordParam, decide (confirm < 2 ^ 32))]
  | .lifecycleFuseWrite => []
  | .mgmtRestart h => h.checks
  | .mgmtResume => []
  | .pairSwitch h action force => h.checks ++ [(.byteParam, decide (action < 2 ^ 8 ∧ force < 2 ^ 8))]
  | .close h => h.checks
  | .hello via credId nh => via.rx.checks ++ [(.shortParam, decide (credId < 2 ^ 16)), (.bytes32, decide (nh.length = 32))]
  | .proof via sid hp => via.rx.checks ++ [(.sid, decide (sid < 2 ^ 16)), (.bytes32, decide (hp.length = 32))]
  | .mgmtTagFail via => via.rx.checks
  | .spiResponseFetch => []
  | .proofTimeout sid => [(.sid, decide (sid < 2 ^ 16))]
  | .credentialLockEnd slot => [(.byteParam, decide (slot < 2 ^ 8))]
  | .sessionTimeout sid => [(.sid, decide (sid < 2 ^ 16))]
  | .mainPowerOn => []
  | .vaoMonitorAssert => []
  | .vaoMonitorRelease => []
  | .vrstAssert _ _ _ => []
  | .vrstRelease => []
  | .feedLost feed _ => [(.feed, decide (feed < 2))]
  | .feedRestored feed => [(.feed, decide (feed < 2))]
  | .vwarnAssert _ => []
  | .vwarnRelease => []
  | .rstNLow => []
  | .rstNRelease => []
  | .wakeInEdge _ _ => []
  | .wakeTimerExpiry _ => []
  | .railsGood => []
  | .systemPllLock _ => []
  | .mgmtCoreStart _ => []
  | .imageValidated => []
  | .dramCheckDone bad _ => [(.dramPlace, bad.all fun c => decide (c < 8))]
  | .startupStep6Done failed => [(.tiller, failed.all fun i => decide (i < 384))]
  | .ilkNLow => []
  | .ilkQualified => []
  | .ldAmpDelayEnd => []
  | .ampSettleEnd => []
  | .floorSegmentEnd dark => [(.adcCode, samplesInRange dark)]
  | .initialCalDone meas => [(.slice, decide (meas.length ≤ 36)), (.taps, meas.all CalMeas.inRange)]
  | .launchPosition raman => [(.ramanCode, raman.all fun x => decide (x.1 < 4096 ∧ x.2 < 4096))]
  | .tracePeriodBoundary => []
  | .shadowTablesReady => []
  | .launchMonEdge _ => []
  | .lmonWindowEnd => []
  | .rangeFrameEnd peak _ => [(.peak, decide (peak ≤ 128))]
  | .rangeSwitch => []
  | .loPowerUpdate => []
  | .rotationBoundary => []
  | .calCommit lane m => [(.lane, decide (lane < 4)), (.taps, m.inRange)]
  | .sliceSelfTestDone lane slice _ => [(.lane, decide (lane < 4)), (.slice, decide (slice < 9))]
  | .monitorWindowEnd stats => [(.lane, decide (stats.length ≤ 32))]
  | .tillerTake tiller => [(.tiller, decide (tiller < 384))]
  | .sheafCommit tiller inp => [(.tiller, decide (tiller < 384)), (.adcCode, samplesInRange inp.samples)]
  | .sheafAbort tiller _ => [(.tiller, decide (tiller < 384))]
  | .sheafOverrun tiller => [(.tiller, decide (tiller < 384))]
  | .tillerKatDone tiller _ => [(.tiller, decide (tiller < 384))]
  | .winnowRelease block => [(.block, decide (block < 128))]
  | .releaseDeadline block => [(.block, decide (block < 128))]
  | .sheafAbandon r block => [(.longParam, decide (r < 2 ^ 64)), (.block, decide (block < 128))]
  | .syncPadEdge => []
  | .dtsAverageEnd _ => []
  | .dtsPartnerTimeout => []
  | .zoneIntervalDecision _ => []
  | .trigOutPulseEnd => []
  | .trigInEdge _ => []
  | .recordRowCopy src _ _ => [(.source, decide (src < 3))]
  | .holdOffEnd src => [(.source, decide (src < 3))]
  | .rawFrameWrite _ _ => []
  | .dramRequest req _ _ => [(.unitWrite, req.inUnit)]
  | .requestPromotion ch _ => [(.dramPlace, decide (ch < 8))]
  | .refreshDue ch bank => [(.dramPlace, decide (ch < 8 ∧ bank < 16))]
  | .mr4Read ch _ => [(.dramPlace, decide (ch < 8))]
  | .selfRefreshEntry ch => [(.dramPlace, decide (ch < 8))]
  | .selfRefreshExit ch => [(.dramPlace, decide (ch < 8))]
  | .rowTestDone ch bank _ _ _ => [(.dramPlace, decide (ch < 8 ∧ bank < 16))]
  | .refQualified => []
  | .refDisqualified => []
  | .ppsEdge _ => []
  | .ppsLost => []
  | .todSentence _ _ => []
  | .rateSegmentStart => []
  | .todTxSend => []
  | .tdc3Edge _ => []
  | .tdcCalDone ch _ _ => [(.channel4, decide (ch < 4))]
  | .tdcSelfTestDone ch _ => [(.channel4, decide (ch < 4))]
  | .hkScanStart => []
  | .hkConversion (.code n) => [(.hkCode, decide (n < 4096))]
  | .hkConversion (.volts _) => []
  | .rtdConversionEnd ch _ _ => [(.channel4, decide (ch < 4))]
  | .rtdBreak ch => [(.channel4, decide (ch < 4))]
  | .linkUp port => [(.port, decide (port < 2))]
  | .linkDown port => [(.port, decide (port < 2))]
  | .arpFrame port rx _ _ _ _ => rx.checks ++ [(.port, decide (port < 2))]
  | .arpRequestTimer port stream => [(.port, decide (port < 2)), (.stream, decide (stream < 16))]
  | .icmpEcho port rx _ _ _ _ => rx.checks ++ [(.port, decide (port < 2))]
  | .rxFrameDiscard port rx => rx.checks ++ [(.port, decide (port < 2))]
  | .dasUnitForm stream => [(.stream, decide (stream < 16))]
  | .rowUnitForm stream => [(.stream, decide (stream < 16))]
  | .eventFrameForm stream => [(.stream, decide (stream < 16))]
  | .hkBatchForm stream => [(.stream, decide (stream < 16))]
  | .telemetry => []
  | .heartbeatFrame stream => [(.stream, decide (stream < 16))]
  | .frameTransmit port => [(.port, decide (port < 2))]
  | .faultPulseEnd => []
  | .surveyAcqEnd => []
  | .surveyDrainEnd => []
  | .gpioEdge n _ => [(.gpio, decide (n < 8))]
  | .gpioPpsPulse => []
  | .gpioPpsPulseEnd => []
  | .dzirakLinkUp _ => []
  | .laneCrcExcess _ _ _ => []
  | .laneBistDone _ _ _ => []
  | .heartbeat rh body => rh.checks ++ [(.rank, rankRange body.rank)]
  | .heartbeatSend => []
  | .memberLost rank => [(.rank, rankRange rank)]
  | .joinReq rh body => rh.checks ++ [(.rank, rankRange body.rank)]
  | .joinAck rh => rh.checks
  | .joinRefuse rh _ => rh.checks
  | .joinRetry => []
  | .timeSend => []
  | .time rh _ _ _ => rh.checks
  | .slew rh target _ => rh.checks ++ [(.rank, rankRange target)]
  | .slewTimeout rank => [(.rank, rankRange rank)]
  | .state rh body => rh.checks ++ [(.rank, rankRange body.activeRank)]
  | .syncIdx rh ns => rh.checks ++ [(.longParam, decide (ns < 2 ^ 64))]
  | .amendProp rh type inst _ => rh.checks ++ [(.shortParam, decide (type < 2 ^ 16 ∧ inst < 2 ^ 16))]
  | .amendVote rh _ => rh.checks
  | .amendVoteTimeout => []
  | .amendCommit rh _ => rh.checks
  | .seedBegin rh => (rh.map RingHdr.checks).getD []
  | .seedChunkReady block => [(.block, decide (block < 128))]
  | .seedChunk rh block _ => rh.checks ++ [(.block, decide (block < 128))]
  | .seedCommit rh block => rh.checks ++ [(.block, decide (block < 128))]
  | .seedEnd rh => rh.checks
  | .reseedTimer => []
  | .release rh lastIdx => rh.checks ++ [(.longParam, decide (lastIdx < 2 ^ 64))]
  | .takeReq rh => rh.checks
  | .dtsTrace rh _ _ => rh.checks
  | .arbGrantChange _ => []
  | .arbHbLost => []
  | .soakEnd => []
  | .sramScrub _ _ _ _ => []
  | .dramScrub _ => []
  | .tiaTrim step => [(.lane, decide (step.length ≤ 4))]
  | .tdcCheck _ => []
  | .sramRowTestDone _ _ _ => []
  | .flash => []
  | .floorMeasurementStart => []
  | .syncEdgeInstant rh _ => rh.checks

/-- The checks a command fails, by name. -/
def Instr.failing (i : Instr) : List Check := (i.checks.filter fun e => !e.2).map Prod.fst

/-- A command all of whose operands lie in range. -/
def Instr.wellFormed (i : Instr) : Prop := i.failing = []

end Sys2Proof
end

