-- ==== Sys2Proof/Tests/Slice0.lean ====
section
/-! SUPPORT. Tests: an ill-formed term for each well-formedness check; and for each statement of Obligations.lean that has hypotheses, a
theorem that shows concrete states and operands which meet the hypotheses of each of its clauses, at the ends of their ranges. -/

open Sys2Proof Sys2Proof.Machine

-- One theorem after the other: the kernel evaluates most of them, and each would keep a thread of its own waiting.
set_option Elab.async false

/-! ### Helpers -/

/-- A frame without a tag. -/
def tRx : RxMeta := { vlan := none, fecCorr := 0, fecUncorr := 0 }

/-- A datagram on the SPI target. -/
def tVia : Via := { tr := .spi, src := 0, dstIp := 0, dstUdp := 0, frag := false, rx := tRx }

/-- Header of a command in session 5. -/
def tHdr : Hdr := { sid := 5, seq := 1, via := tVia }

/-- Header of a ring message of rank 1 to all. -/
def tRing : RingHdr := { src := 1, dst := 255, hops := 0, seq := 0, crcOk := true }

/-- A measurement of one slice. -/
def tMeas : CalMeas := {
  off1 := 0, off2 := 0, gain1 := 0, gain2 := 0
  skew1 := List.replicate 8 (List.replicate 32 0), skew2 := List.replicate 8 (List.replicate 32 0) }

/-- An open session of role administrator over SPI. -/
def tSess : Session := {
  sid := 5, slot := 0, isOpen := true, role := 2, localSess := true, transport := .spi, src := 0, credId := 0, credSlot := none
  nh := [], nd := [], salt := [], iter := 10000, hMax := 0, window := [], lastCmd := 0, salts := [], latches := [], group := none
  kH2m := [], kM2h := [] }

/-- The module powered, in phase `p`, with that session open. -/
def tAt (p : Phase) : State := { State.reset with
  pwr := { State.reset.pwr with phase := p, rails := true, configured := true, busSeen := true, vao := false, vrst := false }
  tim := { State.reset.tim with counting := true }
  sec := { State.reset.sec with sess := [tSess] } }

/-- In configured sleep. -/
def tSleep : State := tAt .sleep

/-- In acquisition. -/
def tAcq : State := tAt .acquisition

/-- The state a command leaves, or the state it was given where it leaves none. -/
def tAfter (c : Instr) (s : State) : State := match exec c s with
  | .next t => t
  | _ => s

/-- Command `c` answers a next state in `s`. -/
def tNext (c : Instr) (s : State) : Bool := match exec c s with
  | .next _ => true
  | _ => false

/-- Command `c` faults in `s`. -/
def tFault (c : Instr) (s : State) : Bool := match exec c s with
  | .fault _ => true
  | _ => false

theorem exec_of_tNext {c : Instr} {s : State} (h : tNext c s = true) : exec c s = .next (tAfter c s) := by
  unfold tNext at h; unfold tAfter; split at h <;> simp_all

/-- A launch schedule that began at tick 0 with 16-tick trace periods and one slot. -/
def tRun : State := { tAcq with
  prb := { tAcq.prb with epoch := some 0, boundaryDone := true, segs := [{ r0 := 0, m0 := 0, s := 1 }] } }

/-- Commands of role `role` and code `code` are accepted in the session of `tAt`. -/
theorem ready_at (s : State) (code role : Nat) (h : s.session 5 = some tSess) (a : s.answers = true) (r : role ≤ 2)
    (l : s.fuses.lifecycle ≠ 3) : Ready s tHdr code role tSess :=
  ⟨h, rfl, a, by decide, r, .inl l⟩

/-! ### Well-formedness: one ill-formed term for each check -/

theorem test_wf_sid : (Instr.read { tHdr with sid := 2 ^ 16 } 0 4).failing = [Check.sid] := by decide
theorem test_wf_seq : (Instr.acqStart { tHdr with seq := 2 ^ 64 }).failing = [Check.seq] := by decide
theorem test_wf_addr : (Instr.rcFieldRead tHdr (2 ^ 32) 0).failing = [Check.addr] := by decide
theorem test_wf_count : (Instr.read tHdr 0 (2 ^ 16)).failing = [Check.count] := by decide
theorem test_wf_byteParam : (Instr.activate tHdr 256).failing = [Check.byteParam] := by decide
theorem test_wf_shortParam : (Instr.retrain tHdr [2 ^ 16]).failing = [Check.shortParam] := by decide
theorem test_wf_wordParam : (Instr.standby tHdr (2 ^ 32)).failing = [Check.wordParam] := by decide
theorem test_wf_longParam : (Instr.rawArm tHdr 0 0 (2 ^ 64) 1 0).failing = [Check.longParam] := by decide
theorem test_wf_timestamp : (Instr.timeSet tHdr (2 ^ 96)).failing = [Check.timestamp] := by decide
theorem test_wf_bytes32 : (Instr.attest tHdr []).failing = [Check.bytes32] := by decide
theorem test_wf_keyBytes : (Instr.keyRevoke tHdr 0 1 [] []).failing = [Check.keyBytes] := by decide
theorem test_wf_stageData : (Instr.stageWrite tHdr 0 [1, 2, 3]).failing = [Check.stageData] := by decide
theorem test_wf_tiller : (Instr.tillerTake 384).failing = [Check.tiller] := by decide
theorem test_wf_block : (Instr.winnowRelease 128).failing = [Check.block] := by decide
theorem test_wf_lane : (Instr.sliceSelfTestDone 4 0 []).failing = [Check.lane] := by decide
theorem test_wf_slice : (Instr.sliceSelfTestDone 0 9 []).failing = [Check.slice] := by decide
theorem test_wf_adcCode : (Instr.floorSegmentEnd [{ xi := 128, xq := 0, yi := 0, yq := 0 }]).failing = [Check.adcCode] := by decide
theorem test_wf_taps : (Instr.calCommit 0 { tMeas with skew2 := [] }).failing = [Check.taps] := by decide
theorem test_wf_peak : (Instr.rangeFrameEnd 129 0).failing = [Check.peak] := by decide
theorem test_wf_dramPlace : (Instr.refreshDue 0 16).failing = [Check.dramPlace] := by decide
theorem test_wf_unitWrite : (Instr.dramRequest { addr := 0, code := 6, write := some (63, [1, 2]) } .clean 0).failing =
    [Check.unitWrite] := by decide
theorem test_wf_vlan : (Instr.rxFrameDiscard 0 { tRx with vlan := some 4096 }).failing = [Check.vlan] := by decide
theorem test_wf_port : (Instr.linkUp 2).failing = [Check.port] := by decide
theorem test_wf_stream : (Instr.dasUnitForm 16).failing = [Check.stream] := by decide
theorem test_wf_channel4 : (Instr.rtdBreak 4).failing = [Check.channel4] := by decide
theorem test_wf_hkCode : (Instr.hkConversion (.code 4096)).failing = [Check.hkCode] := by decide
theorem test_wf_ramanCode : (Instr.launchPosition [(0, 4096)]).failing = [Check.ramanCode] := by decide
theorem test_wf_feed : (Instr.feedLost 2 0).failing = [Check.feed] := by decide
theorem test_wf_gpio : (Instr.gpioEdge 8 true).failing = [Check.gpio] := by decide
theorem test_wf_rank : (Instr.memberLost 16).failing = [Check.rank] := by decide
theorem test_wf_source : (Instr.holdOffEnd 3).failing = [Check.source] := by decide

/-! ### Steps and invariants -/

theorem witness_StepRunsFrontCommand : step { tSleep with pending := [.faultPulseEnd] } = exec .faultPulseEnd { tSleep with pending := [] } :=
  rfl

theorem witness_IdleStepCountsTicks : tSleep.pending = [] ∧ tSleep.tim.counting = true ∧ State.reset.tim.counting = false ∧
    State.reset.pending = [] := by decide

theorem witness_ExecKeepsQueue : exec .faultPulseEnd { tSleep with pending := [.joinRetry] } =
    .next (tAfter .faultPulseEnd { tSleep with pending := [.joinRetry] }) := rfl

theorem witness_OnlyMissingAddressStops :
    tFault (.dramRequest { addr := 28 * 2 ^ 30, code := 6, write := none } .clean 0) State.reset = true ∧
    tNext (.dramRequest { addr := 28 * 2 ^ 30 - 64, code := 6, write := none } .clean 0) State.reset = true := by decide +kernel

/-- In sleep of a survey campaign with its timer running. -/
def tSurvey : State := { tSleep with pwr := { tSleep.pwr with survey := true, wakeTimer := some 1 } }

theorem witness_GlbRecordsFaultAndMode :
    (tAfter (.vrstAssert 0 0 0) tSleep).tim.counting = false ∧
    exec (.wakeTimerExpiry false) tSurvey = .next (tAfter (.wakeTimerExpiry false) tSurvey) ∧
    (tAfter (.wakeTimerExpiry false) tSurvey).tim.counting = true ∧ (tAfter (.wakeTimerExpiry false) tSurvey).mode ≠ tSurvey.mode :=
  ⟨by decide, exec_of_tNext (by decide +kernel), by decide +kernel, by decide +kernel⟩

/-- The seed laser is on and the amplifier not yet. -/
def tArmed : State := { tAcq with
  conf := { tAcq.conf with laser := { tAcq.conf.laser with emit := 1 } }
  prb := { tAcq.prb with ilkOk := true, arm := .ampDelay }
  pads := { tAcq.pads with ldEn := true, ilkN := true } }

theorem safe_tArmed : tArmed.safe :=
  ⟨by decide, fun _ => ⟨by decide, ⟨by decide, by decide⟩, by decide⟩, by decide, by decide, fun _ _ => by decide,
    fun _ h => absurd h (by decide), fun h => absurd h (by decide), by simp [tArmed, tAcq, tAt, State.reset, State.guard], by decide, by decide⟩

theorem witness_RulesKeptByEveryStep : tArmed.safe ∧ step { tArmed with pending := [.ldAmpDelayEnd] } =
    .next (tAfter .ldAmpDelayEnd tArmed) := ⟨safe_tArmed, rfl⟩

theorem witness_FusesOnlyAdvance : tArmed.safe ∧ step tArmed = .next { tArmed with tim := { tArmed.tim with tick := 16 } } :=
  ⟨safe_tArmed, rfl⟩

theorem witness_LaserNeedsInterlockAndImage : tArmed.safe ∧ step { tArmed with pending := [.ldAmpDelayEnd] } =
    .next (tAfter .ldAmpDelayEnd tArmed) ∧ (tAfter .ldAmpDelayEnd tArmed).pads.ampEn = true := ⟨safe_tArmed, rfl, by decide⟩

/-! ### A configuration image (19 R408 to R411) -/

/-- A record as it stands in an image. -/
def tRec (type inst : Nat) (body : List Byte) : List Byte :=
  leBytes 2 type ++ leBytes 1 inst ++ leBytes 1 0 ++ leBytes 4 body.length ++ body ++ zeros (alignUp body.length 8 - body.length)

/-- Words as bytes. -/
def tWords (l : List Nat) : List Byte := l.flatMap (leBytes 4)

/-- The records of a small image: one slot, one block, one FIR tap, rank 0 of a pair. -/
def tRecs : List Byte :=
  tRec 0x10 0 (tWords [7, 0, 14677, 16384, 1024, 400, 0, 0, 0, 0, 0, 0, 0, 16, 0, 1, 0, 0, 0] ++ leBytes 2 511) ++
  tRec 0x11 0 (leBytes 1 1 ++ leBytes 1 0 ++ leBytes 2 500 ++ leBytes 2 50 ++ zeros 2) ++
  tRec 0x14 0 (tWords [1, 16, 4, 10000, 1, 10000, 0, 1550000]) ++ tRec 0x15 0 (tWords [1, 1, 1, 0, 10, 3, 256]) ++
  tRec 0x16 0 (leBytes 2 0 ++ leBytes 2 1 ++ leBytes 2 16384) ++
  tRec 0x1C 0 (tWords [1, 1, 0, 0, 0, 0, 0, 0, 10, 10, 10, 10, 10, 10, 0, 0, 0, 0, 0, 0, 0, 0, 0, 0, 0, 0, 1024, 1024]) ++
  tRec 0x1E 0 (zeros 4 ++ (List.range 8).flatMap fun _ => zeros 12 ++ leBytes 2 16) ++
  tRec 0x1F 0 (tWords [1, 0, 0, 1500, 0, 0, 0, 0, 0, 0, 0, 0, 0]) ++ tRec 0x21 0 (tWords [1, 0, 0, 1, 0, 0, 0, 0]) ++
  tRec 0x27 0 (tWords [3, 0, 2, 0]) ++ tRec 0x28 0 (tWords [0, 0, 0, 600, 0])

/-- The header, with this CRC. -/
def tHead (crc : Nat) : List Byte :=
  ascii "KT7I" ++ leBytes 1 1 ++ leBytes 1 0 ++ leBytes 2 11 ++ leBytes 4 672 ++ leBytes 4 crc ++ zeros 16 ++ leBytes 1 0xFF ++ zeros 31

/-- The image. -/
def tImage : List Byte := tHead 3894940491 ++ tRecs

/-- What the module reads of its header. -/
def tImgHead : ImgHead := { version := 0, minFw := 0, serialBind := 0, orderBind := 0xFF, recs := (takeRecs 11 tRecs).getD [] }

/-- The settings it holds. -/
def tConf : Conf := match structureOf tImgHead.recs with
  | .ok c => c
  | .error _ => {}

/-- The fold of crc32 with its register evaluated byte by byte. -/
def tFold : List Byte → Nat → Nat
  | [], c => c
  | b :: l, 0 => tFold l (crcByte 0 b)
  | b :: l, c + 1 => tFold l (crcByte (c + 1) b)

theorem foldl_eq_tFold (l : List Byte) (c : Nat) : l.foldl crcByte c = tFold l c := by
  induction l generalizing c with
  | nil => rfl
  | cons b l ih => cases c <;> exact ih _

theorem crc_tImage : crc32 (tHead 0 ++ tRecs) = 3894940491 := by
  rw [crc32, foldl_eq_tFold]; decide +kernel

theorem imgHead_tImage : imgHead tImage = some tImgHead := by
  have h1 : takeRecs 11 tRecs = some tImgHead.recs := by decide +kernel
  have h2 : (tImage.take 672).drop 64 = tRecs := by decide +kernel
  have h3 : ((tImage.take 672).take (sigStart tImgHead.recs)).take 12 ++ zeros 4 ++
      ((tImage.take 672).take (sigStart tImgHead.recs)).drop 16 = tHead 0 ++ tRecs := by decide +kernel
  have h4 : fieldAt tImage 8 4 = 672 := by decide +kernel
  have h5 : fieldAt (tImage.take 672) 6 2 = 11 := by decide +kernel
  have h6 : ¬ (slice tImage 0 4 ≠ ascii "KT7I" ∨ fieldAt tImage 4 1 ≠ 1 ∨ 16 * 2 ^ 20 < 672 ∨ 672 < 64 ∨ tImage.length < 672) := by
    decide +kernel
  unfold imgHead
  simp only [h4, h5, h2, h1, if_neg h6, h3, crc_tImage]
  decide +kernel

theorem structureOf_tImage : structureOf tImgHead.recs = .ok tConf := by
  have : (match structureOf tImgHead.recs with | .ok _ => true | .error _ => false) = true := by decide +kernel
  unfold tConf; split at this <;> simp_all

theorem validate_of {x : VCtx} {img : List Byte} {h : ImgHead} {c : Conf} (h0 : imgHead img = some h) (h1 : bindingOk x h = true)
    (h2 : firstRej (signatureChks x img h) = none) (h3 : structureOf h.recs = .ok c)
    (h4 : firstRej ((sortRecs h.recs).flatMap (recRanges c)) = none) (h5 : laterSteps x c = none) :
    validate x img = .ok { head := h, conf := c } := by
  simp [validate, h0, h1, h2, h3, h4, h5]

theorem sortRecs_tImage : sortRecs tImgHead.recs = tImgHead.recs := List.mergeSort_of_pairwise (by decide +kernel)

/-- The image passes every step of its validation. -/
theorem validate_tImage : validate State.reset.vctx tImage = .ok { head := tImgHead, conf := tConf } :=
  validate_of imgHead_tImage (by decide +kernel) (by decide +kernel) structureOf_tImage (by rw [sortRecs_tImage]; decide +kernel)
    (by decide +kernel)

/-- No image. -/
theorem validate_empty (x : VCtx) : validate x [] = .error (rejFree 1 0) := rfl

/-! ### The status map -/

theorem ready_sleep (code role : Nat) (h : role ≤ 2) : Ready tSleep tHdr code role tSess :=
  ready_at _ _ _ (by decide) (by decide) h (by decide)

theorem ready_acq (code role : Nat) (h : role ≤ 2) : Ready tAcq tHdr code role tSess :=
  ready_at _ _ _ (by decide) (by decide) h (by decide)

theorem witness_ReadCommands : Ready tSleep tHdr 0x0001 0 tSess ∧
    spanOk 2 4 = false ∧ spanOk 0 1028 = false ∧ spanOk 0x100 4 = true ∧ spanOk 0x0A400 1024 = true ∧
    (∀ f ∈ rcSingles, spanOk f.addr 4 = true) ∧ (0x00048, [0x0004C]) ∈ latchGroups ∧ (0x12044, [0x12048]) ∈ latchGroups ∧
    latchedBy 2 = [] ∧ latchedBy 0x100 = [] := ⟨ready_sleep _ _ (by decide), by decide +kernel⟩

theorem witness_WriteCommand : Ready tSleep tHdr 0x0002 1 tSess ∧ spanOk 2 4 = false ∧ spanOk 0x50 4 = true ∧
    (spanAddrs 0x50 4).all writable = true ∧ (spanAddrs 0x48 4).all writable = false ∧
    ((spanAddrs 0x50 4).zip [7#32]).findSome? (fun p => writeRefused (tSleep.entered tHdr) tSess p.1 p.2) = none ∧
    Ready tAcq tHdr 0x0002 1 tSess ∧ spanOk 0x1040 4 = true ∧ (spanAddrs 0x1040 4).all writable = true ∧
    ((spanAddrs 0x1040 4).zip [1#32]).findSome?
      (fun p => writeRefused (tAcq.entered tHdr) (tSess.entered tAcq tHdr) p.1 p.2) = some .busy :=
  ⟨ready_sleep _ _ (by decide), by decide +kernel, by decide +kernel, by decide +kernel, by decide +kernel, by decide +kernel,
    ready_acq _ _ (by decide), by decide +kernel⟩

theorem witness_StatusAndSelectorWrites_status : Ready tSleep tHdr 0x0002 1 tSess ∧ intRegs ≠ [] ∧ spanOk 2 4 = false ∧ writable 0x48 = false ∧
    spanOk 0x50 4 = true ∧ writable 0x50 = true ∧ writeRefused (tSleep.entered tHdr) (tSess.entered tSleep tHdr) 0x50 7 = none ∧
    Ready tAcq tHdr 0x0002 1 tSess ∧ spanOk 0x1040 4 = true ∧ writable 0x1040 = true ∧
    writeRefused (tAcq.entered tHdr) (tSess.entered tAcq tHdr) 0x1040 1 = some .busy :=
  ⟨ready_sleep _ _ (by decide), (by simp [intRegs]), by decide +kernel, by decide +kernel, by decide +kernel, by decide +kernel,
    by decide +kernel, ready_acq _ _ (by decide), by decide +kernel⟩

/-- A fault-log entry. -/
def tEntry : LogEntry := { seq := 3, code := 0x0101, cls := 3, eflags := 0, ts := 0, boot := 1, unit := 0, rep := 0, data := [] }

/-- In sleep with one unread housekeeping word of a buffer of 256, and one entry in the fault log. -/
def tHkLog : State := { tSleep with
  hka := { tSleep.hka with wp := 1, unread := 1, widx := 1, buf := [(0, 5)] }, bgw := { tSleep.bgw with queue := [tEntry] } }

theorem witness_StatusAndSelectorWrites_selectors : Ready tHkLog tHdr 0x0002 1 tSess ∧ (1 : Nat) = tHkLog.hka.wp ∧ (0 : Nat) ≠ tHkLog.hka.wp ∧
    ((tHkLog.hka.reader.slots tHkLog.hka.len).findIdx? fun i => i == 0) = some 0 ∧
    9 ∉ tHkLog.hka.reader.slots tHkLog.hka.len ∧ (9 : Nat) ≠ tHkLog.hka.wp ∧
    ((tHkLog.flash.logEntries ++ tHkLog.logAll).find? fun e => e.seq == 3) = some tEntry ∧
    (∀ e ∈ tHkLog.flash.logEntries ++ tHkLog.logAll, e.seq ≠ 4) :=
  ⟨ready_at _ _ _ (by decide) (by decide) (by decide) (by decide), by decide +kernel⟩

/-! ### Supplies, resets and wake -/

/-- Both feeds good and no warning. -/
def tFed : State := { tSleep with pwr := { tSleep.pwr with feedAOk := true, feedBOk := true, vwarnMon := false } }

/-- In standby, waking on a falling edge or the timer. -/
def tStandby : State := { tAt .standby with
  pwr := { (tAt .standby).pwr with wakeTimer := some 1 }, cfg := { (tAt .standby).cfg with wakePolicy := 3 } }

theorem witness_SuppliesAndWake :
    (tFed.pwr.feedAOk = true ∧ tFed.pwr.feedBOk = true ∧ tFed.pwr.vwarnMon = false) ∧
    (tSleep.pwr.feedAOk = false ∧ tSleep.pwr.feedBOk = false ∧ tSleep.pwr.vwarnMon = true) ∧ 2 ≤ 2 ∧
    (tStandby.pwr.phase = .standby ∧ bit tStandby.cfg.wakePolicy 1 = true ∧
      (bit tStandby.cfg.wakePolicy 0 && tStandby.pwr.wakeTimer.isSome) = true) ∧
    ((tAt .standby).pwr.phase = .standby ∧ bit (tAt .standby).cfg.wakePolicy 1 = false ∧
      (bit (tAt .standby).cfg.wakePolicy 0 && (tAt .standby).pwr.wakeTimer.isSome) = false) ∧
    (tSurvey.pwr.phase = .sleep ∧ tSurvey.pwr.survey = true ∧ tSurvey.pwr.wakeTimer.isSome = true ∧ tSurvey.pwr.standbyWait = none) ∧
    (tSleep.pwr.phase = .sleep ∧ tSleep.pwr.survey = false) ∧ tAcq.pwr.phase ≠ .standby ∧ tAcq.pwr.phase ≠ .sleep := by decide

/-- Just after a reset of reach A, its monitor released. -/
def tCold : State := { State.reset with pwr := { State.reset.pwr with vao := false } }

/-- As `tCold`, with option bytes that ask for standby. -/
def tColdStandby : State := { tCold with flash := { tCold.flash with opt := { tCold.flash.opt with wakePolicy := 8 } } }

/-- In standby with VRST asserted and a wake kept. -/
def tKept : State := { tStandby with pwr := { tStandby.pwr with vrst := true, wakeKept := true } }

theorem witness_ResetSources :
    (tStandby.pwr.phase = .standby ∧ tCold.pwr.phase = .rails) ∧ (tSleep.pwr.phase ≠ .standby ∧ tSleep.pwr.phase ≠ .rails) ∧
    (tSleep.pwr.vrst = false ∧ tStandby.pwr.vrst = false) ∧ tKept.pwr.vrst = true ∧
    (tSleep.pwr.busSeen = true ∧ ¬ (tSleep.pwr.phase = .standby ∧ tSleep.pwr.wakeKept = true)) ∧
    (tKept.pwr.busSeen = true ∧ tKept.pwr.phase = .standby ∧ tKept.pwr.wakeKept = true) ∧
    (tCold.pwr.busSeen = false ∧ tCold.pwr.vao = false ∧
      bit (if tCold.flash.opt.good then tCold.flash.opt.wakePolicy else ({} : OptBytes).wakePolicy) 3 = false) ∧
    (tColdStandby.pwr.busSeen = false ∧ tColdStandby.pwr.phase = .rails ∧ tColdStandby.pwr.vao = false ∧
      bit (if tColdStandby.flash.opt.good then tColdStandby.flash.opt.wakePolicy else ({} : OptBytes).wakePolicy) 3 = true) ∧
    (State.reset.pwr.busSeen = false ∧ State.reset.pwr.vao = true) := by decide

theorem witness_MainDomainRestart : tAcq.pwr.phase ≠ .standby ∧ tAcq.pwr.phase ≠ .rails ∧ tAcq.pwr.vrst = false ∧
    ∃ bus a b, (Instr.vrstAssert 0 65535 0) = .vrstAssert bus a b ∧ tAcq.pwr.vrst = false :=
  ⟨by decide, by decide, by decide, 0, 65535, 0, rfl, by decide⟩

/-- A session of role viewer over the network. -/
def tViewer : Session := { tSess with role := 1, localSess := false }

/-- In sleep with that session. -/
def tView : State := { tSleep with sec := { tSleep.sec with sess := [tViewer] } }

/-- In sleep, with stream 0 sending housekeeping; block resets 1 and 2 under way. -/
def tHkStream : State := { tSleep with
  conf := { tSleep.conf with streams := [{ en := 1, stype := 8 }] }, pwr := { tSleep.pwr with blkrst := 3 } }

theorem witness_PadFusesAndBlockResets :
    (Ready tSleep tHdr 0x0002 1 tSess ∧ tSleep.fuses.lifecycle = 0 ∧ tSess.role = 2 ∧ tSleep.mode ≠ 2 ∧ tSleep.mode ≠ 3 ∧
      (∀ y ∈ tSleep.conf.streams, y.en = 1 → y.stype ≠ 8) ∧ tSleep.pwr.blkrst = 0) ∧
    (Ready tView tHdr 0x0002 1 tViewer ∧ tViewer.role ≠ 2 ∧ tViewer.localSess = false) ∧
    (Ready tAcq tHdr 0x0002 1 tSess ∧ tAcq.mode = 2) ∧ (tAt .stopping).mode = 3 ∧
    (Ready tHkStream tHdr 0x0002 1 tSess ∧ (∃ y ∈ tHkStream.conf.streams, y.en = 1 ∧ y.stype = 8)) ∧
    (tHkStream.pwr.blkrst ≠ 0 ∧ tHkStream.pwr.blkrst.getLsbD 1 = true) ∧
    ((4#4).getLsbD 1 = false ∧ 4#4 ≠ 0) :=
  ⟨⟨ready_sleep _ _ (by decide), by decide⟩, ⟨⟨by decide, rfl, by decide, by decide, by decide, .inl (by decide)⟩, by decide⟩,
    ⟨ready_acq _ _ (by decide), by decide⟩, by decide, ⟨ready_at _ _ _ (by decide) (by decide) (by decide) (by decide), by decide⟩,
    by decide, by decide⟩

/-! ### Start-up and staging -/

/-- In start-up, with the image in slot A. -/
def tImageAt (p : Phase) : State := { tAt p with flash := { (tAt p).flash with imgA := tImage } }

/-- In start-up, with its settings accepted. -/
def tDram : State := { tAt .dram with cfg := { (tAt .dram).cfg with accepted := some tConf } }

/-- At step 6 with AUTOSTART. -/
def tAuto : State := { tAt .step6 with conf := { (tAt .step6).conf with power := { (tAt .step6).conf.power with autostart := 1 } } }

/-- Firmware selection with a trial. -/
def tTrial : State := { tAt .mgmt with flash := { (tAt .mgmt).flash with opt := { (tAt .mgmt).flash.opt with fw := { trial := true } } } }

theorem witness_StartUpSteps :
    ((tAt .rails).pwr.phase = .rails ∧ (tAt .rails).pwr.vao = false ∧ (tAt .rails).pwr.vrst = false ∧ (tAt .rails).pwr.busSeen = true) ∧
    tSleep.pwr.phase ≠ .rails ∧ tCold.pwr.busSeen = false ∧ ((tAt .pll).pwr.phase = .pll ∧ (tAt .pll).pwr.rstHeld = false) ∧
    tSleep.pwr.phase ≠ .pll ∧ ((tAt .mgmt).pwr.phase = .mgmt ∧ (tAt .mgmt).flash.options.fw.trial = false) ∧
    (tTrial.pwr.phase = .mgmt ∧ tTrial.flash.options.fw.trial = true) ∧ tSleep.pwr.phase ≠ .mgmt := by decide

theorem vctx_trialStart : (trialStart (tImageAt .image)).vctx = State.reset.vctx := by decide +kernel

theorem witness_ImageSteps :
    ((tImageAt .image).pwr.phase = .image ∧ (tImageAt .image).fuses.lifecycle ≠ 3 ∧
      validate (trialStart (tImageAt .image)).vctx ((trialStart (tImageAt .image)).flash.img
        (if (trialStart (tImageAt .image)).cfg.tried = [] then (trialStart (tImageAt .image)).flash.options.boot.slot
         else 1 - (trialStart (tImageAt .image)).cfg.tried.headD 0)) = .ok { head := tImgHead, conf := tConf }) ∧
    ((tAt .image).pwr.phase = .image ∧ ∃ r, validate (trialStart (tAt .image)).vctx ((trialStart (tAt .image)).flash.img 0) = .error r) ∧
    tSleep.pwr.phase ≠ .image ∧ (tDram.pwr.phase = .dram ∧ tDram.cfg.accepted = some tConf ∧ [7] ≠ ([] : List Nat)) ∧
    ((tAt .dram).cfg.accepted = none) ∧
    (tAuto.pwr.phase = .step6 ∧ (copyAosLog (retireFailed tAuto [383])).conf.power.autostart = 1) ∧
    ((tAt .step6).pwr.phase = .step6 ∧ (copyAosLog (retireFailed (tAt .step6) [])).conf.power.autostart ≠ 1 ∧
      (copyAosLog (retireFailed (tAt .step6) [])).conf.power.surveyEn ≠ 1) ∧ tSleep.pwr.phase ≠ .step6 := by
  refine ⟨⟨rfl, by decide, ?_⟩, ⟨rfl, rejFree 1 0, rfl⟩, by decide, ⟨rfl, rfl, by decide⟩, rfl, by decide +kernel, by decide +kernel, by decide⟩
  rw [vctx_trialStart]; exact validate_tImage

/-- In sleep, a staging of 8 bytes for slot B of which 4 are written. -/
def tStage (st : Stage) : State := { tSleep with
  cfg := { tSleep.cfg with stage := st, stageTarget := 1, stageLen := 8, stageHash := [], staged := [(0, 4)] } }

/-- In sleep, the whole image staged for slot B. -/
def tStaged (st : Stage) : State := { tSleep with
  cfg := { tSleep.cfg with stage := st, stageTarget := 1, stageLen := 672, stageHash := sha256 tImage, staged := [(0, 672)] }
  flash := { tSleep.flash with imgB := tImage } }

theorem ready_tStage (st : Stage) (code role : Nat) (h : role ≤ 2) : Ready (tStage st) tHdr code role tSess :=
  ready_at _ _ _ rfl rfl h (show (0 : Nat) ≠ 3 by decide)

theorem ready_tStaged (st : Stage) (code role : Nat) (h : role ≤ 2) : Ready (tStaged st) tHdr code role tSess :=
  ready_at _ _ _ rfl rfl h (show (0 : Nat) ≠ 3 by decide)

theorem stageVerdict_of {s : State} {img : List Byte} {v : ImgOk} (h1 : s.flash.target s.cfg.stageTarget = img)
    (h2 : s.cfg.stageHash = sha256 img) (h3 : s.cfg.stageTarget < 2) (h4 : validate s.vctx img = .ok v) : s.stageVerdict = none := by
  simp [State.stageVerdict, h1, h2, h3, h4]

theorem stageVerdict_tStaged (st : Stage) : (tStaged st).stageVerdict = none :=
  stageVerdict_of (img := tImage) rfl (by simp only [tStaged]) (show 1 < 2 by decide) validate_tImage

theorem witness_Staging :
    (Ready tSleep tHdr 0x0040 2 tSess ∧ tSleep.targetUsed 0 = true ∧ tSleep.targetUsed 1 = false ∧ tSleep.cfg.stage = .none ∧
      (1 ≤ 3 ∧ 1 ≤ 1 ∧ 2 ^ 24 ≤ (if 1 < 2 then 2 ^ 24 else 2 ^ 22) ∧ (zeros 32).length = 32) ∧ ¬ (4 ≤ 3)) ∧
    (Ready (tStage .erasing) tHdr 0x0040 2 tSess ∧ (tStage .erasing).cfg.stage ≠ .none ∧ (tStage .erasing).targetUsed 1 = false ∧
      (tStage .erasing).cfg.stage = .erasing) ∧ tSleep.cfg.stage ≠ .erasing ∧
    (Ready (tStage .erasing) tHdr 0x0041 2 tSess ∧ (1020 % 4 = 0 ∧ (zeros 1024).length % 4 = 0 ∧ 4 ≤ (zeros 1024).length ∧
      (zeros 1024).length ≤ 1024) ∧ ¬ ((zeros 1028).length ≤ 1024)) ∧
    (Ready (tStage .opened) tHdr 0x0041 2 tSess ∧ (tStage .opened).cfg.stageLen < 8 + 4 ∧ 4 + 4 ≤ (tStage .opened).cfg.stageLen ∧
      ((tStage .opened).cfg.staged.any fun e => decide (e.1 < 4 + 4 ∧ 4 < e.1 + e.2)) = false ∧
      ((tStage .opened).cfg.staged.any fun e => decide (e.1 < 0 + 4 ∧ 0 < e.1 + e.2)) = true) ∧
    (Ready tSleep tHdr 0x0042 2 tSess ∧ Ready (tStage .checked) tHdr 0x0042 2 tSess ∧ (tStage .checked).stageVerdict.isSome = true ∧
      Ready (tStaged .opened) tHdr 0x0042 2 tSess ∧ (tStaged .opened).stageVerdict = none) :=
  ⟨⟨ready_sleep _ _ (by decide), by decide +kernel⟩, ⟨ready_tStage _ _ _ (by decide), by decide⟩, by decide,
    ⟨ready_tStage _ _ _ (by decide), by decide +kernel⟩, ⟨ready_tStage _ _ _ (by decide), by decide +kernel⟩, ready_sleep _ _ (by decide),
    ready_tStage _ _ _ (by decide), by decide +kernel, ready_tStaged _ _ _ (by decide), stageVerdict_tStaged _⟩

/-! ### Modes, survey campaigns and the laser chain -/

/-- In sleep, STANDBY answered. -/
def tWaits (p : Phase) (w : Nat) : State := { tAt p with pwr := { (tAt p).pwr with standbyWait := some w } }

theorem ready_tAt (p : Phase) (code role : Nat) (h : role ≤ 2) (a : (tAt p).answers = true) : Ready (tAt p) tHdr code role tSess :=
  ready_at _ _ _ rfl a h (show (0 : Nat) ≠ 3 by decide)

theorem witness_ModeCommands :
    (Ready tSleep tHdr 0x0010 1 tSess ∧ tSleep.pwr.phase = .sleep ∧ tSleep.pwr.standbyWait = none ∧ tSleep.mode ≠ 0) ∧
    (Ready tAcq tHdr 0x0011 1 tSess ∧ tAcq.pwr.phase = .acquisition) ∧
    (Ready (tAt .golden) tHdr 0x0013 2 tSess ∧ (tAt .golden).pwr.phase = .golden) ∧
    (Ready (tWaits .sleep 1) tHdr 0x0010 1 tSess ∧ (tWaits .sleep 1).pwr.standbyWait.isSome = true) ∧
    (Ready (tAt .stopping) tHdr 0x0010 1 tSess ∧ (tAt .stopping).pwr.phase ≠ .sleep ∧ (tAt .stopping).pwr.phase ≠ .acquisition) ∧
    (Ready (tAt .image) tHdr 0x0013 2 tSess ∧ (tAt .image).mode = 0 ∧ (tAt .image).pwr.phase ≠ .golden) :=
  ⟨⟨ready_sleep _ _ (by decide), by decide⟩, ⟨ready_acq _ _ (by decide), by decide⟩, ⟨ready_tAt _ _ _ (by decide) (by decide), by decide⟩,
    ⟨ready_at _ _ _ rfl (by decide) (by decide) (by decide), by decide⟩, ⟨ready_tAt _ _ _ (by decide) (by decide), by decide⟩,
    ready_tAt _ _ _ (by decide) (by decide), by decide, by decide⟩

/-- In acquisition of a survey cycle, launches made. -/
def tCycle : State := { tAcq with pwr := { tAcq.pwr with survey := true }, prb := { tAcq.prb with launched := true } }

/-- In the drain after it. -/
def tDrain : State := { tAt .stopping with pwr := { (tAt .stopping).pwr with draining := true } }

theorem witness_StopAndSurvey : ((tWaits .sleep 0).pwr.standbyWait = some 0 ∧ (tWaits .sleep 0).pwr.phase = .sleep) ∧
    ((tWaits .acquisition 1).pwr.standbyWait = some 1 ∧ (tWaits .acquisition 1).pwr.phase ≠ .sleep) ∧ tSleep.pwr.standbyWait = none ∧
    (tCycle.pwr.phase = .acquisition ∧ tCycle.pwr.survey = true ∧ tCycle.prb.launched = true) ∧ tSleep.pwr.phase ≠ .acquisition ∧
    (tDrain.pwr.phase = .stopping ∧ tDrain.pwr.draining = true) ∧ tSleep.pwr.phase ≠ .stopping := by decide

/-- In acquisition, arming at `a`, with or without a launch epoch. -/
def tArm (a : Arm) (e : Option Nat) : State := { tArmed with prb := { tArmed.prb with arm := a, epoch := e } }

/-- In acquisition with the interlock open, arming at `a`. -/
def tOpen (a : Arm) : State := { tAcq with
  conf := { tAcq.conf with laser := { tAcq.conf.laser with emit := 1 } }, prb := { tAcq.prb with arm := a } }

theorem witness_LaserArming :
    tArmed.prb.ilkOk = true ∧ (tAcq.prb.ilkOk = false ∧ tAcq.mode ≠ 0 ∧ tAcq.prb.arm ≠ .waitIlk) ∧
    ((tOpen .waitIlk).prb.ilkOk = false ∧ (tOpen .waitIlk).mode ≠ 0 ∧ (tOpen .waitIlk).prb.arm = .waitIlk) ∧ State.reset.mode = 0 ∧
    tArmed.prb.arm = .ampDelay ∧ tAcq.prb.arm ≠ .ampDelay ∧
    ((tArm .settle none).prb.arm = .settle ∧ (tArm .settle none).prb.epoch = none ∧ (tArm .settle none).conf.cascade.role = 0 ∧
      (tArm .settle none).cas.stateSeen = none) ∧
    ((tArm .settle (some 0)).prb.arm = .settle ∧ (tArm .settle (some 0)).prb.epoch.isSome = true) ∧
    (Ready tAcq tHdr 0x0014 1 tSess ∧ tAcq.emits = false) ∧ (Ready (tAt .golden) tHdr 0x0014 1 tSess ∧ (tAt .golden).pwr.phase = .golden) ∧
    (Ready (tOpen .tripped) tHdr 0x0014 1 tSess ∧ (tOpen .tripped).pwr.phase = .acquisition ∧ (tOpen .tripped).emits = true ∧
      (tOpen .tripped).prb.arm = .tripped) ∧
    (Ready tArmed tHdr 0x0014 1 tSess ∧ tArmed.pwr.phase ≠ .golden ∧ tArmed.emits = true ∧ tArmed.prb.arm ≠ .tripped) :=
  ⟨by decide, by decide, by decide, by decide, by decide, by decide, by decide, by decide, ⟨ready_acq _ _ (by decide), by decide⟩,
    ⟨ready_tAt _ _ _ (by decide) (by decide), by decide⟩, ⟨ready_at _ _ _ rfl (by decide) (by decide) (by decide), by decide⟩,
    ready_at _ _ _ rfl (by decide) (by decide) (by decide), by decide⟩

/-! ### Launches, the launch monitor, the receiver and the converters -/

/-- In phase `p` with a launch schedule of two slots from tick 0, its next boundary done or not. -/
def tLaunch (p : Phase) (done : Bool) : State := { tAt p with
  conf := { (tAt p).conf with probe := { (tAt p).conf.probe with plan := 6, ttr := 32768, p := 1024 } }
  prb := { (tAt p).prb with epoch := some 0, boundaryDone := done, arm := .waitLaunch, segs := [{ r0 := 0, m0 := 0, s := 2 }] } }

/-- The same with one slot and the chain armed. -/
def tLaunch1 : State := { tLaunch .acquisition true with
  conf := { tAcq.conf with probe := { tAcq.conf.probe with plan := 7, ttr := 16384, p := 1024 } }
  prb := { (tLaunch .acquisition true).prb with arm := .armed, segs := [{ r0 := 0, m0 := 0, s := 1 }] } }

/-- The master's state as a follower sees it. -/
def tState : StateBody := { epoch := 7, period := 0, ns := 0, trainIdx := 0, activeRank := 0 }

/-- A joined follower, its master's launch epoch another than its own. -/
def tFollow : State := { tLaunch .acquisition false with
  cas := { (tLaunch .acquisition false).cas with joined := true, stateSeen := some tState } }

/-- Light has been passed up to the launch of this state. -/
def tLit (s : State) : State := lightOn (dispatchPass { s with tim := { s.tim with tick := max s.tim.tick (s.launchTick s.prb.nextR) } }
  (s.launchTick s.prb.nextR)) s.prb.nextR s.prb.m s.prb.j (s.launchTick s.prb.nextR)

theorem witness_LaunchSchedule :
    (tAcq.prb.j = 0 ∧ (boundary tAcq).prb.epoch = none) ∧
    ((tLaunch .acquisition true).prb.j = 0 ∧ (boundary (tLaunch .acquisition true)).prb.epoch.isSome = true ∧
      (boundary (tLaunch .acquisition true)).prb.boundaryDone = true ∧ (boundary (tLaunch .acquisition true)).pwr.stopped = false ∧
      (boundary (tLaunch .acquisition true)).pwr.phase = .acquisition ∧ (boundary (tLaunch .acquisition true)).prb.arm = .waitLaunch ∧
      0 + 1 < (tLit (boundary (tLaunch .acquisition true))).conf.probe.slots) ∧
    ((boundary tLaunch1).prb.boundaryDone = true ∧ (boundary tLaunch1).prb.arm ≠ .waitLaunch ∧
      (tLit (boundary tLaunch1)).conf.probe.slots ≤ 0 + 1) ∧
    tAcq.prb.epoch = none ∧
    ((tLaunch .stopping false).prb.epoch.isSome = true ∧ (tLaunch .stopping false).prb.boundaryDone = false ∧
      (tLaunch .stopping false).pwr.stopped = false ∧ (tLaunch .stopping false).pwr.phase = .stopping) ∧
    ((tLaunch .acquisition false).prb.boundaryDone = false ∧ (tLaunch .acquisition false).pwr.phase = .acquisition ∧
      (joinNow { tLaunch .acquisition false with tim := { (tLaunch .acquisition false).tim with
        tick := max 0 ((tLaunch .acquisition false).boundaryTick 0) } }).epochDiffers = none) ∧
    (tFollow.prb.boundaryDone = false ∧ tFollow.pwr.phase = .acquisition ∧
      (joinNow { tFollow with tim := { tFollow.tim with tick := max 0 (tFollow.boundaryTick 0) } }).epochDiffers = some tState) := by
  decide +kernel

/-- In acquisition with the monitor's window open, TDC 0 calibrated or busy; `frozen` and `good` as the shadow tables stand. -/
def tMon (busy frozen : Bool) (good : List Nat) : State := { tAcq with
  prb := { tAcq.prb with lmonOpen := true, lmonFrozen := frozen, lmonGood := good }
  tim := { tAcq.tim with tdc0 := { tAcq.tim.tdc0 with busy := busy, n1 := 100, n2 := 101 } } }

/-- With an amendment of the probe comb pending. -/
def tPend (ready : Bool) : State := { tAcq with prb := { tAcq.prb with pend := some { req := 1, conf := {}, tick := 0, ready := ready } } }

theorem witness_LaunchMonitor :
    tAcq.prb.lmonOpen = false ∧ (tMon false false []).prb.lmonOpen = true ∧
    (∃ at' fr c, ((tMon false false []).tdcEdge 0 { n := 99, c := 0 }).2 = .measured at' fr c ∧ c < 2 ^ 28 ∧
      0 ≤ roundDiv (((c : Int) * 4000 + (16 - (0 : Nat)) * 250) * fr.2 - fr.1) fr.2 ∧
      roundDiv (((c : Int) * 4000 + (16 - (0 : Nat)) * 250) * fr.2 - fr.1) fr.2 ≤ 4095 * 250) ∧
    (∃ at' fr, ((tMon false false []).tdcEdge 0 { n := 99, c := 2 ^ 28 }).2 = .measured at' fr (2 ^ 28)) ∧
    (∃ at', ((tMon true false []).tdcEdge 0 { n := 99, c := 0 }).2 = .coarse at') ∧
    (({ tMon true false [] with conf := { tAcq.conf with time := { tAcq.conf.time with presc := [1] } } } : State).tdcEdge 0
      { n := 99, c := 0 }).2 = .skipped ∧
    ((tMon true false []).prb.lmonFrozen = false ∧ within (lmonMean ([16000].take 16) - 0) lmonLimit = true ∧
      within (lmonMean ([16001].take 16) - 0) lmonLimit = false) ∧
    ((tMon true true []).prb.lmonFrozen = true ∧ within ((16000 : Int) - 0) lmonLimit = true ∧ [16000].length < 16 ∧
      16 ≤ (16000 :: (tMon true true (List.replicate 15 0)).prb.lmonGood).length ∧ within ((16001 : Int) - 0) lmonLimit = false) ∧
    (∃ a, (tPend false).prb.pend = some a ∧ a.ready = false) ∧ (∃ a, (tPend true).prb.pend = some a ∧ a.ready = true) ∧
    tAcq.prb.pend = none :=
  ⟨by decide, by decide, ⟨_, _, _, rfl, by decide⟩, ⟨_, _, rfl⟩, ⟨_, rfl⟩, by decide +kernel, by decide +kernel, by decide +kernel, ⟨_, rfl, rfl⟩, ⟨_, rfl, rfl⟩, rfl⟩

/-- In acquisition with the converters running and a switch of range pending. -/
def tRxf : State := { tAcq with
  adc := { tAcq.adc with running := true }, rxf := { tAcq.rxf with pendSwitch := some (0, 2, true), floorSeg := some 3 } }

/-- In acquisition with the LO monitor scanned, `n` codes of it taken in this millisecond and `p` shown. -/
def tLo (n : Nat) (p : Int) : State := { tAcq with rxf := { tAcq.rxf with loFrom := some 0, loCount := n, loPwr := p } }

theorem witness_Receiver : tRxf.adc.running = true ∧ tAcq.adc.running = false ∧ tRxf.rxf.pendSwitch = some (0, 2, true) ∧
    tAcq.rxf.pendSwitch = none ∧ tAcq.rxf.loFrom = none ∧ (tLo 0 3).rxf.loFrom.isSome = true ∧
    ¬ ((tLo 0 3).rxf.loCount = 0 ∧ (tLo 0 3).rxf.loPwr = -32768) ∧ (tLo 0 (-32768)).rxf.loFrom.isSome = true ∧
    ((tLo 0 (-32768)).rxf.loCount = 0 ∧ (tLo 0 (-32768)).rxf.loPwr = -32768) ∧ (tArm .settle none).prb.arm = .settle ∧ tAcq.prb.arm ≠ .settle ∧
    (tRxf.rxf.floorSeg = some 3 ∧ 3 ≤ 3) ∧ ({ tRxf with rxf := { tRxf.rxf with floorSeg := some 2 } } : State).rxf.floorSeg = some 2 ∧ 2 < 3 ∧ tAcq.rxf.floorSeg = none := by
  decide

/-- Converters running; the initial calibration done or not; these lanes about to be lost. -/
def tAdc (done : Bool) (lost : List Nat) : State := { tAcq with adc := { tAcq.adc with
  running := true, initDone := done, lanes := tAcq.adc.lanes.mapIdx fun i l => if lost.contains i then { l with losing := some 0 } else l } }

/-- With slice 8 of lane 0 under test. -/
def tSlice : State := (tAdc true []).modLane 0 fun l => l.modSlice 8 fun y => { y with testing := some (1, 33) }

/-- A measurement with this offset. -/
def tCal (off : Int) : CalMeas := { tMeas with off1 := off, off2 := off }

theorem witness_Converters :
    ((tAdc false []).adc.running = true ∧ (tAdc false []).adc.initDone = false) ∧ tAcq.adc.running = false ∧
    (∃ i, ((tAdc true []).lane 3).out = some i ∧
      calCheck rotationLimits ((nth ((tAdc true []).lane 3).slices i {}).off, (nth ((tAdc true []).lane 3).slices i {}).gain,
        (nth ((tAdc true []).lane 3).slices i {}).taps) (tCal 4) ((tAdc true []).laneDelay 3) = none ∧
      (calCheck rotationLimits ((nth ((tAdc true []).lane 3).slices i {}).off, (nth ((tAdc true []).lane 3).slices i {}).gain,
        (nth ((tAdc true []).lane 3).slices i {}).taps) (tCal 5) ((tAdc true []).laneDelay 3)).isSome = true) ∧
    (nth ((tAdc true []).lane 0).slices 8 {}).testing = none ∧
    ((nth (tSlice.lane 0).slices 8 {}).testing = some (1, 33) ∧ (∀ d ∈ [-1, 1], -1 ≤ d ∧ d ≤ (1 : Int)) ∧
      (nth (tSlice.lane 0).slices 8 {}).rejRun < 3 ∧ ¬ (∀ d ∈ [2], -1 ≤ d ∧ d ≤ (1 : Int))) ∧
    (∀ l ∈ [[], [0], [3], [1, 2]], (tAdc true l).adc.running = true) ∧
    ((((tAdc true [0]).adc.lanes.drop 0).take 2).any fun l => l.losing.isSome) = true ∧
    ((((tAdc true [0]).adc.lanes.drop 2).take 2).any fun l => l.losing.isSome) = false ∧
    ((((tAdc true [3]).adc.lanes.drop 0).take 2).any fun l => l.losing.isSome) = false ∧
    ((((tAdc true [3]).adc.lanes.drop 2).take 2).any fun l => l.losing.isSome) = true ∧
    (tAdc true []).pwr.phase = .acquisition ∧ tSleep.pwr.phase ≠ .acquisition :=
  ⟨by decide, by decide, ⟨8, by decide +kernel⟩, by decide +kernel, by decide +kernel, by decide, by decide +kernel, by decide +kernel,
    by decide +kernel, by decide +kernel, by decide, by decide⟩

/-- Both polarisations lost at one rotation boundary: FAULT_N is held from then on. -/
theorem witness_GlbRecordsFaultAndMode_fault :
    exec .rotationBoundary (tAdc true [0, 2]) = .next (tAfter .rotationBoundary (tAdc true [0, 2])) ∧
    (tAfter .rotationBoundary (tAdc true [0, 2])).tim.counting = true ∧ (tAdc true [0, 2]).faultHeld = false ∧
    (tAfter .rotationBoundary (tAdc true [0, 2])).faultHeld = true :=
  ⟨exec_of_tNext (by decide +kernel), by decide +kernel, by decide +kernel, by decide +kernel⟩

/-! ### The tiller array and the winnow -/

/-- A launched shot of slot 0, for two blocks. -/
def tShot (r : Nat) : Shot := {
  r := r, tick := 0, c0 := 0, m := 0, j := 0, slot := 0, muted := false, thinned := false, blocks := 2, probe := {}, phase := {}, window := 0
  beyond := none }

/-- In acquisition with the tiller array running, these queues and this state of tiller 0. -/
def tTil (q : List (List Sheaf)) (t : TState) (tick : Nat) : State := { tAcq with
  til := { tAcq.til with running := true, shots := [tShot 0, tShot 1], queues := q, tillers := smSet .idle [] 0 t }
  tim := { tAcq.tim with tick := tick } }

/-- Every spikelet but the first holds two shot sheaves. -/
def tSteal : State := tTil ([] :: List.replicate 23 [.shot 0 0, .shot 1 0]) .idle 0

/-- Every spikelet but the first holds two shot sheaves of index 1, whose turn has not come. -/
def tBlocked : State := tTil ([] :: List.replicate 23 [.shot 1 0, .shot 1 0]) .idle (8 * secTicks)

theorem neighbours_zero : neighbours 0 = [1, 23, 2, 22] := by decide

theorem victim_tSteal : tSteal.til.victim 0 = some 1 := by decide +kernel

theorem victim_none : (tTil [] .idle (8 * secTicks)).til.victim 0 = none := by decide +kernel

theorem witness_TillerWork :
    384 ≤ 384 ∧ tAcq.til.running = false ∧ (tTil [] (.running (.glean 0)) 0).tiller 0 ≠ .idle ∧
    (0 < 384 ∧ (tTil [[.shot 0 0, .block 0 []]] .idle 0).tiller 0 = .idle ∧ (tTil [[.shot 0 0, .block 0 []]] .idle 0).til.running = true ∧
      ((tTil [[.shot 0 0, .block 0 []]] .idle 0).til.queue 0).find? Sheaf.isBlock = some (.block 0 [])) ∧
    (383 < 384 ∧ (tTil [] .idle 0).tiller 383 = .idle) ∧
    (((tTil [[.shot 1 0, .shot 0 0]] .idle 0).til.queue 0).find? Sheaf.isBlock = none ∧
      ((tTil [[.shot 1 0, .shot 0 0]] .idle 0).til.queue 0).find? (tTil [[.shot 1 0, .shot 0 0]] .idle 0).til.takeable = some (.shot 0 0)) ∧
    (tSteal.til.queue 0 = [] ∧ (tSteal.til.queue 1).reverse.find? tSteal.til.takeable = some (.shot 0 0)) ∧
    (tBlocked.til.victim 0 = some 1 ∧ (tBlocked.til.queue 1).reverse.find? tBlocked.til.takeable = none ∧ tBlocked.gleanDue 0 = true ∧
      tSteal.gleanDue 0 = false) ∧
    ((tTil [] .idle (8 * secTicks)).gleanDue 0 = true ∧
      (tTil [] .idle (8 * secTicks)).til.queue 0 = []) ∧
    (tTil [] .idle (8 * secTicks - 1)).gleanDue 0 = false ∧
    ((tTil [] (.running (.shot 0 0)) 0).tiller 0 = .running (.shot 0 0) ∧ (tTil [] (.running (.shot 0 0)) 0).til.shot 0 = some (tShot 0)) ∧
    ((tTil [] (.running (.shot 9 0)) 0).tiller 0 = .running (.shot 9 0) ∧ (tTil [] (.running (.shot 9 0)) 0).til.shot 9 = none) ∧
    (tTil [] (.running (.block 0 [])) 0).tiller 0 = .running (.block 0 []) ∧
    (tTil [] (.running (.glean 0)) 0).tiller 0 = .running (.glean 0) ∧ (tTil [] .idle 0).tiller 0 = .idle := by decide +kernel

/-- Tiller 0 under test, with transient faults at these ticks. -/
def tTest (l : List Nat) : State := { tTil [] (.test 2 []) 0 with til := { (tTil [] (.test 2 []) 0).til with faultTimes := smSet [] [] 0 l } }

theorem witness_TillerFaults :
    (Instr.sheafAbort 0 4 = .sheafAbort 0 4 ∧ (4 : Nat) = 4) ∧ (Instr.sheafOverrun 0 = .sheafOverrun 0 ∧ (2 : Nat) = 2) ∧
    (tTil [] (.running (.glean 0)) 0).tiller 0 = .running (.glean 0) ∧ (tTil [] (.running (.shot 0 0)) 0).tiller 0 = .running (.shot 0 0) ∧
    (tTil [] .idle 0).tiller 0 = .idle ∧
    ((tTest [0, 0, 0]).tiller 0 = .test 2 [] ∧ 4 ≤ (recentFaults (smGet [] (tTest [0, 0, 0]).til.faultTimes 0) 0).length) ∧
    ((tTest [0, 0]).tiller 0 = .test 2 [] ∧ (recentFaults (smGet [] (tTest [0, 0]).til.faultTimes 0) 0).length < 4) ∧
    (tTil [] .idle 0).tiller 0 ≠ .test 2 [] := by decide +kernel

/-- The winnow of block 0 waits for shot 0, whose row is committed or not; the shot as given. -/
def tWin (done : Bool) (sh : Shot) (cut : Option Nat) (q : List (List Sheaf)) : State := { tTil q .idle 0 with
  til := { (tTil q .idle 0).til with
    shots := [sh], cut := cut
    winnow := smSet {} [] 0 { done := if done then [{ r := 0, data := [], fl := 0, placeholder := true, gap := false }] else [] } } }

theorem witness_Winnow :
    (((tWin true (tShot 0) none []).til.win 0).nextR = 0 ∧ (((tWin true (tShot 0) none []).til.win 0).done.find? fun d => d.r == 0).isSome = true ∧
      (tWin true (tShot 0) none []).til.shot 0 = some (tShot 0) ∧ (tWin true (tShot 0) none []).til.isCut (tShot 0) 0 = false ∧
      (tWin true (tShot 0) (some 0) []).til.isCut (tShot 0) 0 = true) ∧
    (tWin true (tShot 5) none []).til.shot 0 = none ∧
    (((tWin false (tShot 0) none []).til.win 0).done.find? fun d => d.r == 0) = none ∧
    (({ tShot 0 with muted := true } : Shot).muted = true ∧ (tShot 0).blocks ≤ 2) ∧
    ((tShot 0).muted = false ∧ (tShot 0).thinned = false ∧ 1 < (tShot 0).blocks) ∧
    (((tWin false (tShot 0) none []).til.waiting.contains (0, 0) || (tWin false (tShot 0) none []).til.queues.any fun q =>
      q.contains (.shot 0 0)) = false) ∧
    (((tWin false (tShot 0) none [[.shot 0 0]]).til.waiting.contains (0, 0) || (tWin false (tShot 0) none [[.shot 0 0]]).til.queues.any fun q =>
      q.contains (.shot 0 0)) = true ∧ (tWin false (tShot 0) none [[.shot 0 0]]).til.held.contains (tokenKey 0 0) = false) ∧
    ((({ (tWin false (tShot 0) none []).til with held := [tokenKey 0 0] } : Til).held.contains (tokenKey 0 0) &&
      ({ (tWin false (tShot 0) none []).til with held := [tokenKey 0 0] } : Til).dueShot 0 0 == some 0) = true) := by decide +kernel

/-! ### SYNC, training, the quasi-static and Raman channels -/

/-- In phase `p` with this SYNC source; joined to a cascade as its master or not. -/
def tSync (p : Phase) (src : Nat) (joined master : Bool) : State := { tAt p with
  conf := { (tAt p).conf with dec := { (tAt p).conf.dec with syncSrc := src }, cascade := { (tAt p).conf.cascade with role := b2n joined } }
  cas := { (tAt p).cas with joined := joined, master := master } }

theorem ready_tSync (p : Phase) (src : Nat) (j m : Bool) (a : (tSync p src j m).answers = true) :
    Ready (tSync p src j m) tHdr 0x0015 1 tSess := ready_at _ _ _ rfl a (by decide) (show (0 : Nat) ≠ 3 by decide)

theorem witness_SyncSources :
    ((tSync .acquisition 2 false false).conf.dec.syncSrc ≠ 1 ∧ (tSync .acquisition 2 false false).conf.dec.syncSrc ≠ 3) ∧
    (tSync .sleep 3 false false).acquiring = false ∧
    ((tSync .acquisition 1 false false).conf.dec.syncSrc = 1 ∧ (tSync .acquisition 1 false false).acquiring = true ∧
      ¬ ((tSync .acquisition 1 false false).conf.cascade.role ≠ 0 ∧ (tSync .acquisition 1 false false).cas.joined = true)) ∧
    ((tSync .acquisition 3 true true).conf.cascade.role ≠ 0 ∧ (tSync .acquisition 3 true true).cas.joined = true ∧
      (tSync .acquisition 3 true true).cas.master = true ∧ (tSync .acquisition 3 true false).cas.master = false) ∧
    (Ready (tSync .acquisition 1 false false) tHdr 0x0015 1 tSess ∧
      ((tSync .acquisition 1 false false).entered tHdr).conf.dec.syncSrc ≠ 2 ∧
      ((tSync .acquisition 1 false false).entered tHdr).conf.dec.syncSrc ≠ 3) ∧
    (Ready (tSync .acquisition 3 true false) tHdr 0x0015 1 tSess ∧
      ((tSync .acquisition 3 true false).entered tHdr).cas.joined = true ∧
      ((tSync .acquisition 3 true false).entered tHdr).cas.master = false) ∧
    (Ready (tSync .sleep 2 false false) tHdr 0x0015 1 tSess ∧ ((tSync .sleep 2 false false).entered tHdr).acquiring = false) ∧
    (Ready (tSync .acquisition 2 false false) tHdr 0x0015 1 tSess ∧ ((tSync .acquisition 2 false false).entered tHdr).acquiring = true) :=
  ⟨by decide, by decide, by decide, by decide, ⟨ready_tSync _ _ _ _ (by decide), by decide⟩, ⟨ready_tSync _ _ _ _ (by decide), by decide⟩,
    ⟨ready_tSync _ _ _ _ (by decide), by decide⟩, ready_tSync _ _ _ _ (by decide), by decide⟩

/-- Two blocks configured; a reference capture pending or not. -/
def tBlocks (p : Phase) (cmd : Option QsCmd) : State := { tAt p with
  conf := { (tAt p).conf with probe := { (tAt p).conf.probe with p := 2048 } }, qss := { (tAt p).qss with cmd := cmd } }

theorem witness_TrainingCommands :
    (Ready (tBlocks .acquisition none) tHdr 0x0016 1 tSess ∧
      (∃ b ∈ [2], ((tBlocks .acquisition none).entered tHdr).conf.probe.nblocks ≤ b) ∧
      ¬ (∃ b ∈ [1], ((tBlocks .acquisition none).entered tHdr).conf.probe.nblocks ≤ b) ∧
      ((tBlocks .acquisition none).entered tHdr).acquiring = true) ∧
    (Ready (tBlocks .sleep none) tHdr 0x0016 1 tSess ∧ ((tBlocks .sleep none).entered tHdr).acquiring = false) ∧
    (Ready (tBlocks .sleep none) tHdr 0x0017 1 tSess ∧ 1 < 2 ∧ 1 ≤ 1) :=
  ⟨⟨ready_at _ _ _ rfl rfl (by decide) (by decide), by decide +kernel⟩, ⟨ready_at _ _ _ rfl rfl (by decide) (by decide), by decide⟩,
    ready_at _ _ _ rfl rfl (by decide) (by decide), by decide⟩

/-- Banks A and B loaded; a swap running (to B) or held (to B). -/
def tBank (p : Phase) (xf : Bool) (held : Bool) : State := { tAt p with
  conf := { (tAt p).conf with firA := { loaded := true }, firB := { loaded := true } }
  dec := { (tAt p).dec with
    xf := if xf then some { req := 1, src := 0, dst := 1, qx := 0, len := 256, started := false } else none
    heldSwap := if held then some { req := 1, bank := 1, len := 256 } else none } }

theorem ready_tBank (p : Phase) (x h : Bool) (a : (tBank p x h).answers = true) : Ready (tBank p x h) tHdr 0x0018 1 tSess :=
  ready_at _ _ _ rfl a (by decide) (show (0 : Nat) ≠ 3 by decide)

theorem witness_BankSwapCommand :
    (Ready (tBank .acquisition false false) tHdr 0x0018 1 tSess ∧ ¬ (3 ≤ 2) ∧
      ((0 ≤ 2 ∧ (4096 = 0 ∨ (16 ≤ 4096 ∧ 4096 ≤ 4096)) ∧ (((tBank .acquisition false false).entered tHdr).conf.bank 0).loaded = true)) ∧
      ((1 ≤ 2 ∧ (16 = 0 ∨ (16 ≤ 16 ∧ 16 ≤ 4096)) ∧ (((tBank .acquisition false false).entered tHdr).conf.bank 1).loaded = true)) ∧
      ((tBank .acquisition false false).entered tHdr).acquiring = true ∧
      ((tBank .acquisition false false).entered tHdr).dec.xf = none ∧ 0 = ((tBank .acquisition false false).entered tHdr).dec.bank) ∧
    (Ready (tBank .acquisition true false) tHdr 0x0018 1 tSess ∧ (((tBank .acquisition true false).entered tHdr).dec.xf.map Xfade.dst) = some 1) ∧
    (Ready (tBank .sleep false false) tHdr 0x0018 1 tSess ∧ ((tBank .sleep false false).entered tHdr).acquiring = false ∧
      ((tBank .sleep false false).entered tHdr).dec.heldSwap = none ∧ 0 = ((tBank .sleep false false).entered tHdr).bankNow ∧ 1 ≠ ((tBank .sleep false false).entered tHdr).bankNow) ∧
    (Ready (tBank .sleep false true) tHdr 0x0018 1 tSess ∧ ((tBank .sleep false true).entered tHdr).dec.heldSwap.isSome = true) :=
  ⟨⟨ready_tBank _ _ _ (by decide), by decide⟩, ⟨ready_tBank _ _ _ (by decide), by decide⟩, ⟨ready_tBank _ _ _ (by decide), by decide⟩,
    ready_tBank _ _ _ (by decide), by decide⟩

/-- A pending average. -/
def tAvg : DtsAvg := {
  avg := 0, cfg := {}, ng := 0, phi := 0, lnR := [], nUsed := 1, tsStart := 0, tsEnd := 0, tref := (0, 0), asM := [], stM := [], qwords := []
  clip := false, coilHeld := false, lnc := none, tick := 0, firstG0 := 0, lastR := 0 }

/-- A complete average over `used` trace periods. -/
def tRunOf (used : Nat) : DtsRun := {
  avg := 0, cfg := {}, ng := 0, phi := 0, accAs := [], accSt := [], nUsed := used, firstG0 := 0, lastG0 := 0, lastR := 0, clip := false
  endDecl := none }

/-- The Raman channel with these complete averages, alone or at one end of a loop whose ring is up. -/
def tDts (runs : List DtsRun) (dual : Bool) (partner : List (Nat × List (Option Int))) (waits : List DtsAvg) : State := { tAcq with
  conf := { tAcq.conf with dts := { tAcq.conf.dts with deEn := b2n dual }, cascade := { tAcq.conf.cascade with role := 2 } }
  cas := { tAcq.cas with link := true }
  dts := { tAcq.dts with running := true, complete := runs, partner := partner, waits := waits } }

/-- The averages to be evaluated when DTS_AVERAGE_END comes. -/
def tDone (s : State) : List DtsRun := (if s.dts.complete = [] ∧ s.dtsOver then s.dts.close s.conf else s.dts).complete

/-- Header of a ring message of rank 1 to rank 0. -/
def tRing0 : RingHdr := { tRing with dst := 0 }

theorem witness_RamanAverages :
    tAcq.dts.running = false ∧ (tDone (tDts [] false [] []) = [] ∧ (tDts [] false [] []).dts.running = true) ∧
    (tDone (tDts [tRunOf 0] false [] []) = [tRunOf 0] ∧ (tRunOf 0).nUsed = 0) ∧
    (tDone (tDts [tRunOf 1] false [] []) = [tRunOf 1] ∧ (tRunOf 1).nUsed ≠ 0 ∧ (tDts [tRunOf 1] false [] []).dualEnded = false) ∧
    (tDone { tDts [] false [] [] with prb := { tAcq.prb with m := 2 ^ 14 } }).length = 1 ∧
    ((tDts [tRunOf 1] true [] []).dualEnded = true ∧ ((tDts [tRunOf 1] true [] []).dts.partner.find? fun p => p.1 == 0) = none) ∧
    ((tDts [tRunOf 1] true [(0, [])] []).dualEnded = true ∧
      ((tDts [tRunOf 1] true [(0, [])] []).dts.partner.find? fun p => p.1 == 0) = some (0, [])) ∧
    ((tDts [] true [] [tAvg]).inRing = true ∧ tRing0.crcOk = true ∧ tRing0.src ≠ (tDts [] true [] [tAvg]).conf.cascade.rank ∧
      tRing0.dst = (tDts [] true [] [tAvg]).conf.cascade.rank ∧ (tDts [] false [] []).dualEnded = false ∧
      ((tDts [] true [] [tAvg]).dts.waits.find? fun a => a.avg == 0) = some tAvg) ∧
    (((tDts [tRunOf 1] true [] []).dts.waits.find? fun a => a.avg == 0) = none ∧
      ((tDts [tRunOf 1] true [] []).dts.complete.head?.map DtsRun.avg).getD 7 = 0 ∧ 0 ≤ 0) ∧
    (({ (tDts [] true [] []).dts with avg := 1 } : Dts).complete.head?.map DtsRun.avg).getD 1 = 1 ∧ 0 < 1 ∧
    (tDts [] true [] []).dts.waits = [] ∧ (tDts [] true [] [tAvg]).dts.waits = [tAvg] := by decide +kernel

/-! ### Zones, records and raw captures -/

/-- A detection interval. -/
def tInt : ZInt := { first := 0, last := 0, tsFirst := 0, tsLast := 0, got := [], e := [], qw := [] }

/-- Zone settings without a zone. -/
def tZCfg : ZCfg := { q0 := 0, zones := [], filters := [], params := {}, changed := [], saved := [] }

/-- A segment of `n` rows over `npos` positions, none copied yet, its trigger's output known or not. -/
def tSeg (k : Option Nat) (n npos : Nat) : Segment := {
  recId := 0, source := 2, cfg := { pre := 0 }, trig := { tT := 0, arrival := 0, pos := 0, npos := npos, seq := 0, zone := 0 }, kT := k
  merges := [], n := n, tof0 := 0, pitch := 1, gauge := 1, pOut := 0, trigs := 1, tLast := 0, heldOff := 0, extended := false
  trunc := false, capped := false, syncIdx := 0, modflags := 0, plan := 7, rows := [], gaps := []
  frozen := false, endTick := none }

/-- The acquisition engine running with this open segment of CMD, CMD enabled; `zon` as given. -/
def tEngine (seg : Option Segment) (ints : List ZInt) : State := { tAcq with
  conf := { tAcq.conf with
    acq := { tAcq.conf.acq with cmd := { tAcq.conf.acq.cmd with en := 1 }, zone := { tAcq.conf.acq.zone with en := 1 } }
    time := { tAcq.conf.time with presc := [0, 0, 1, 0] }, probe := { tAcq.conf.probe with p := 1024 } }
  acq := { tAcq.acq with running := true, newQ := 1, cmd := { seg := seg } }, zon := { tAcq.zon with ints := ints, cfgs := [tZCfg] } }

theorem witness_ZoneDecisions : (zoneErrors (tEngine none []) [0]).zoneDue = none ∧ (tEngine none [tInt]).zoneDue = some (tInt, tZCfg) ∧
    (tEngine none [tInt]).zon.ints.head? = some tInt ∧ zcfgAt (tEngine none [tInt]).zon.cfgs tInt.first = some tZCfg := by decide +kernel

/-- The open segment of source 2 once the triggers are resolved. -/
def tOpenSeg (g : Option Segment) : Option Segment := ((resolveTriggers (tEngine g [])).acq.src 2).seg

/-- That segment with its next row copied. -/
def tCopied (g : Option Segment) : Option (Segment × Mem) :=
  (tOpenSeg g).bind fun x => (resolveTriggers (tEngine g [])).copyRow x 9 false [] []

theorem witness_TriggersAndSegments :
    ((tEngine none []).tdcEdge 2 { n := 0, c := 0 }).2.instant = none ∧
    (tAcq.tdcEdge 2 { n := 0, c := 0 }).2.instant.isSome = true ∧
    ((tAcq.conf.acq.src 0).en ≠ 1 ∧ ((tEngine none []).conf.acq.src 0).en = 1 ∧ (tEngine none []).acq.running = true) ∧
    ((closeSegment (tEngine (some (tSeg none 1 0)) []) 2 0).acq.src 2).seg = some (tSeg none 1 0) ∧
    ((closeSegment (tEngine none []) 2 0).acq.src 2).seg = none ∧ (Hold.judge (some (.time 1 0)) (msTicks + 15)).isSome = true ∧
    Hold.judge (some (.time 1 0)) (msTicks + 16) = none ∧ (Hold.judge (some (.events 1)) 0).isSome = true ∧
    Hold.judge (some (.events 0)) 0 = none ∧ Hold.judge none 0 = none ∧
    tOpenSeg none = none ∧ (tOpenSeg (some (tSeg none 1 0))).map Segment.kT = some none ∧
    ((tOpenSeg (some (tSeg (some 0) 0 0))).map fun g => (g.kT, decide (g.n ≤ g.rows.length), g.done)) = some (some 0, true, false) ∧
    ((tOpenSeg (some { tSeg (some 0) 0 0 with endTick := some 0 })).map fun g => (g.kT, decide (g.n ≤ g.rows.length), g.endTick, g.merges)) =
      some (some 0, true, some 0, []) ∧
    ((tOpenSeg (some (tSeg (some 9) 1 1))).map fun g => (g.kT, decide (g.rows.length < g.n))) = some (some 9, true) ∧
    tCopied (some (tSeg (some 9) 1 1)) = none ∧
    ((tCopied (some (tSeg (some 9) 1 0))).map fun h => decide (h.1.n ≤ h.1.rows.length)) = some true ∧
    ((tCopied (some (tSeg (some 9) 2 0))).map fun h => decide (h.1.rows.length < h.1.n)) = some true := by decide +kernel

/-- A directory entry. -/
def tEntryOf (id : Nat) (complete locked : Bool) (sending : List Nat) : DirEntry := {
  recId := id, type := 1, complete := complete, locked := locked, sending := sending, length := 0, tTrig := 0, body := .raw }

/-- The engine with four records and stream 15 sending them. -/
def tStore : State := { tEngine none [] with
  conf := { (tEngine none []).conf with streams := List.replicate 15 {} ++ [{ en := 1, stype := 5, rsend := 1 }] }
  acq := { (tEngine none []).acq with
    dir := [tEntryOf 0 true false [], tEntryOf 1 true true [], tEntryOf 2 false false [], tEntryOf 3 true false [15]] } }

theorem witness_RecordCommands :
    (Ready tStore tHdr 0x0020 1 tSess ∧ tsOfLayout (10 ^ 9 * 2 ^ 16) = none ∧ tsOfLayout (999999999 * 2 ^ 16) = some (65536 * 999999999) ∧
      (tStore.entered tHdr).conf.probe.p < 1023 + 2 ∧ 1023 + 1 ≤ (tStore.entered tHdr).conf.probe.p ∧
      ¬ ((tStore.entered tHdr).acq.running = false)) ∧
    (Ready tSleep tHdr 0x0020 1 tSess ∧ (tSleep.entered tHdr).acq.running = false ∧ (tSleep.entered tHdr).acq.ended = false) ∧
    (Ready tStore tHdr 0x0021 0 tSess ∧ 36 < 37 ∧ 1 ≤ 36 ∧ 36 ≤ 36) ∧
    (Ready tStore tHdr 0x0022 1 tSess ∧ Ready tStore tHdr 0x0023 1 tSess ∧ (tStore.entered tHdr).acq.find 4 = none ∧
      (tStore.entered tHdr).acq.find 1 = some (tEntryOf 1 true true [])) ∧
    (Ready tStore tHdr 0x0024 1 tSess ∧ (tStore.entered tHdr).acq.find 2 = some (tEntryOf 2 false false []) ∧
      (tStore.entered tHdr).acq.find 3 = some (tEntryOf 3 true false [15]) ∧
      (tStore.entered tHdr).acq.find 0 = some (tEntryOf 0 true false [])) ∧
    (Ready tStore tHdr 0x0025 1 tSess ∧ 15 < 16 ∧ ((tStore.entered tHdr).strCfg 14).stype ≠ 5 ∧
      ((tStore.entered tHdr).strCfg 15).stype = 5 ∧ ((tStore.entered tHdr).strCfg 15).rsend = 1) :=
  have r (code role : Nat) (h : role ≤ 2) : Ready tStore tHdr code role tSess := ready_at _ _ _ rfl rfl h (show (0 : Nat) ≠ 3 by decide)
  ⟨⟨r _ _ (by decide), by decide +kernel⟩, ⟨ready_sleep _ _ (by decide), by decide⟩, ⟨r _ _ (by decide), by decide⟩,
    ⟨r _ _ (by decide), r _ _ (by decide), by decide +kernel⟩, ⟨r _ _ (by decide), by decide +kernel⟩, r _ _ (by decide), by decide +kernel⟩

/-- Room for raw captures, a capture in state `st`, this directory, and FULL_MODE. -/
def tRaw (st : Nat) (dir : List DirEntry) (full : Nat) : State := { tRxf with
  conf := { tRxf.conf with acq := { tRxf.conf.acq with rawcapGib := 1, fullMode := full } }
  acq := { tRxf.acq with dir := dir, raw := { tRxf.acq.raw with st := st, f := 1, byTrigger := st == 1 } } }

/-- A full directory of locked records after `l`. -/
def tLocked (l : List DirEntry) (n : Nat) : List DirEntry := l ++ List.replicate n (tEntryOf 1 true true [])

theorem length_tLocked (l : List DirEntry) (n : Nat) : (tLocked l n).length = l.length + n := by simp [tLocked]

theorem makeRoom_locked (s : State) (n N : Nat) (h : s.acq.dir = tLocked [] N) (hN : 65536 ≤ N) (c : Nat) : s.acq.makeRoom c 0 n = none := by
  have f : s.acq.fits c 0 = false := by
    unfold Acq.fits; rw [h, length_tLocked]; exact decide_eq_false fun x => Nat.not_lt.mpr hN (by simpa using x.2)
  have v : s.acq.victim = none := by simp [Acq.victim, h, tLocked, tEntryOf, DirEntry.evictable]
  cases n <;> simp [Acq.makeRoom, f, v]

theorem makeRoom_one (s : State) (n N : Nat) (h : s.acq.dir = tLocked [tEntryOf 0 true false []] N) (hN : N = 65535) (c : Nat) :
    ∃ a, s.acq.makeRoom c 0 (n + 2) = some a := by
  have f : s.acq.fits c 0 = false := by
    unfold Acq.fits; rw [h, length_tLocked]; exact decide_eq_false fun x => by simp at x; omega
  have v : s.acq.victim = some (tEntryOf 0 true false []) := by simp [Acq.victim, h, tLocked, tEntryOf, DirEntry.evictable]
  have e : s.acq.dir.erase (tEntryOf 0 true false []) = tLocked [] N := by simp [h, tLocked]
  refine ⟨{ s.acq with dir := tLocked [] N, evicted := satAdd 16 s.acq.evicted 1, int := s.acq.int.raise 3 }, ?_⟩
  have g : (tLocked [] N).length < 65536 := by rw [length_tLocked, hN]; decide
  have u : (((tLocked [] N).filter fun e => e.type != 3).map DirEntry.length).sum = 0 := by simp [tLocked, tEntryOf]
  have w : Acq.fits { s.acq with dir := tLocked [] N, evicted := satAdd 16 s.acq.evicted 1, int := s.acq.int.raise 3 } c 0 = true := by
    simp [Acq.fits, Acq.used, g, u]
  simp [Acq.makeRoom, f, v, e, w]

theorem ready_tRaw (st : Nat) (d : List DirEntry) (f code role : Nat) (h : role ≤ 2) : Ready (tRaw st d f) tHdr code role tSess :=
  ready_at _ _ _ rfl rfl h (show (0 : Nat) ≠ 3 by decide)

theorem witness_RawCapture :
    (Ready (tRaw 0 [] 0) tHdr 0x0026 1 tSess ∧ 1 < 2 ∧ 2 < 3 ∧ rawCapacity ((tRaw 0 [] 0).entered tHdr).conf < 65473 ∧
      ¬ (1 < 1 ∨ 2 < 2 ∨ 65472 = 0 ∨ rawCapacity ((tRaw 0 [] 0).entered tHdr).conf < 65472 ∨ (1 = 1 ∧ 65472 ≤ 65471)) ∧
      ((tRaw 0 [] 0).entered tHdr).acq.raw.st = 0 ∧ ((tRaw 0 [] 0).entered tHdr).acq.dir.length < 65536) ∧
    (Ready (tRaw 2 [] 0) tHdr 0x0026 1 tSess ∧ ((tRaw 2 [] 0).entered tHdr).acq.raw.st ≠ 0) ∧
    (Ready (tRaw 0 (tLocked [] 65536) 1) tHdr 0x0026 1 tSess ∧ 65536 ≤ ((tRaw 0 (tLocked [] 65536) 1).entered tHdr).acq.dir.length ∧
      ((tRaw 0 (tLocked [] 65536) 1).entered tHdr).conf.acq.fullMode ≠ 0) ∧
    (((tRaw 0 (tLocked [] 65536) 0).entered tHdr).conf.acq.fullMode = 0 ∧
      ((tRaw 0 (tLocked [] 65536) 0).entered tHdr).acq.makeRoom 0 0
        ((tRaw 0 (tLocked [] 65536) 0).entered tHdr).acq.dir.length = none) ∧
    (∃ a, ((tRaw 0 (tLocked [tEntryOf 0 true false []] 65535) 0).entered tHdr).acq.makeRoom 0 0
        (65534 + 2) = some a) ∧
    Ready (tRaw 2 [] 0) tHdr 0x0027 1 tSess ∧ tSleep.adc.running = false ∧
    ((tRaw 2 [] 0).adc.running = true ∧ (tRaw 2 [] 0).acq.raw.st = 2 ∧ (tRaw 1 [] 0).acq.raw.st = 1) ∧
    (({ zone := { hold := some (.time 1 0) } } : Acq).src 0).hold = some (.time 1 0) ∧ (tSleep.acq.src 0).hold = none :=
  ⟨⟨ready_tRaw _ _ _ _ _ (by decide), by decide +kernel⟩, ⟨ready_tRaw _ _ _ _ _ (by decide), by decide⟩,
    ⟨ready_tRaw _ _ _ _ _ (by decide), by show 65536 ≤ (tLocked [] 65536).length; rw [length_tLocked]; exact Nat.le_add_left _ _, show (1 : Nat) ≠ 0 by decide⟩,
    ⟨rfl, makeRoom_locked _ _ 65536 rfl (Nat.le_refl _) _⟩, makeRoom_one _ _ 65535 rfl rfl _, ready_tRaw _ _ _ _ _ (by decide), by decide, by decide, by decide, by decide⟩

/-! ### The memory controller -/

/-- In phase `p`, DRAM channel 0 as `c`, this fill, panic and poison. -/
def tMem (p : Phase) (c : Channel) (panic : Bool) (poison : List Nat) : State := { tAt p with
  mem := { (tAt p).mem with ready := true, chans := c :: List.replicate 7 {}, panic := [panic, false, false], poison := poison } }

/-- A read of unit `n`, or a write of bytes of it. -/
def tReq (n : Nat) (w : Option (Nat × List Byte)) : DramReq := { addr := 64 * n, code := 6, write := w }

theorem witness_DramRequests :
    (tReq 0 none).addr < tSleep.dramUsable ∧ (tReq (28 * 2 ^ 24 - 1) none).addr < tSleep.dramUsable ∧
    ((tMem .sleep {} false []).mem.chans[0]? = some ({} : Channel) ∧ ({} : Channel).queue = [] ∧ ({} : Channel).waiting = [] ∧
      ({} : Channel).selfRef = false ∧ (tMem .sleep {} false []).mem.ready = true ∧ ((tMem .sleep {} false []).dramAt 0).channel = 0 ∧
      (setFill { tMem .sleep {} false [] with mem := (tMem .sleep {} false []).mem.settle 0 } 6 0).mem.chans[0]? = some ({} : Channel) ∧
      (setFill { tMem .sleep {} false [] with mem := (tMem .sleep {} false []).mem.settle 0 } 6 0).reqReady
        { req := tReq 0 none, ecc := .clean, promoted := false } = true) ∧
    ((tReq 0 (some (0, zeros 64))).write = some (0, zeros 64) ∧ 64 ≤ (zeros 64).length ∧ 1 / 64 ≠ 64 / 64) ∧
    ((tReq 0 (some (63, [1]))).write = some (63, [1]) ∧ [1].length < 64) ∧
    ((tReq 0 none).write = none ∧ (tReq 0 none).addr / 64 ∉ (tMem .sleep {} false []).mem.poison ∧
      (tReq 0 none).addr / 64 ∈ (tMem .sleep {} false [0]).mem.poison) := by decide +kernel

/-- A row under test. -/
def tRow : RowTest := { ch := 0, bank := 15, row := 0, addr := 0, code := 6, syndrome := 0 }

/-- With that row under test, and the first `n` spare rows in use. -/
def tRowTest (n : Nat) : State := { tSleep with
  mem := { tSleep.mem with tests := [tRow] }, aos := { tSleep.aos with dram := (List.range n).map fun i => (i, some i) } }

theorem smGet_used (l : List Nat) (k : Nat) : smGet none (l.map fun i => (i, some i)) k = if k ∈ l then some k else none := by
  induction l with
  | nil => rfl
  | cons a l ih =>
    by_cases h : a = k
    · subst h; simp [smGet]
    · have h' : ¬ k = a := fun e => h e.symm
      simp only [List.map_cons, smGet, if_neg h, ih, List.mem_cons, h', false_or]

/-- No spare row is left. -/
theorem freeSpare_full : freeSpare (tRowTest 512).aos.dram = none := by
  have h (n : Nat) : (tRowTest n).aos.dram = (List.range n).map fun i => (i, some i) := rfl
  rw [h]
  unfold freeSpare
  rw [List.find?_eq_none]
  intro i hi
  rw [smGet_used, if_pos hi]
  simp

/-- A channel with its bank 0 owing `d` refreshes. -/
def tDebt (d : Nat) : Channel := { banks := { debt := d } :: List.replicate 15 {} }

/-- What a refresh due on channel 0 finds: the debts repaid up to now and a waiting band taken. -/
def tDue (s : State) : State := applyBand { s with mem := s.mem.settle s.tim.tick } 0

theorem witness_DramUpkeep :
    (nth (tMem .sleep { selfRef := true } false []).mem.chans 0 {}).selfRef = true ∧
    (nth (tMem .sleep { mr4Due := true } false []).mem.chans 0 {}).mr4Due = true ∧
    ((nth (tMem .sleep (tDebt 7) true []).mem.chans 0 {}).selfRef = false ∧ (nth (tMem .sleep (tDebt 7) true []).mem.chans 0 {}).mr4Due = false ∧
      (tDue (tMem .sleep (tDebt 7) true [])).mem.inPanic = true ∧
      (nth (nth (tDue (tMem .sleep (tDebt 7) true [])).mem.chans 0 {}).banks 0 {}).debt = 7) ∧
    ((nth (nth (tDue (tMem .sleep (tDebt 8) true [])).mem.chans 0 {}).banks 0 {}).debt = 8 ∧
      (tDue (tMem .sleep (tDebt 7) false [])).mem.inPanic = false) ∧
    (({} : Channel).newBand.getD ({} : Channel).band ≠ 2 ∧ ({ band := 2 } : Channel).newBand.getD ({ band := 2 } : Channel).band = 2) ∧
    ((tMem .sleep {} false []).srIdle = some 200 ∧ (tMem .sleep {} false []).mem.ready = true ∧
      (nth (tMem .sleep {} false []).mem.chans 0 {}).queue = [] ∧ (nth (tMem .sleep {} false []).mem.chans 0 {}).waiting = []) ∧
    (({ tAcq with conf := { tAcq.conf with dram := { tAcq.conf.dram with srIdle := 0 } } } : State).srIdle = none ∧
      tSleep.mem.ready = false) ∧
    ((nth (tMem .sleep { selfRef := true } true []).mem.chans 0 {}).selfRef = true ∧ (tMem .sleep { selfRef := true } true []).mem.inPanic = true) ∧
    (tMem .sleep { selfRef := true } false []).mem.inPanic = false ∧
    (tSleep.mem.tests.find? fun t => t.ch == 0 && t.bank == 15 && t.row == 0) = none ∧
    ((tRowTest 0).mem.tests.find? fun t => t.ch == 0 && t.bank == 15 && t.row == 0) = some tRow ∧
    freeSpare (tRowTest 0).aos.dram = some 0 ∧ freeSpare (tRowTest 1).aos.dram = some 1 := by
  decide +kernel

/-! ### The time base and the TDC -/

/-- In phase `p` with this time source, reference, PPS instant, count of good edges, and time state. -/
def tTime (p : Phase) (src : Nat) (last : Option Nat) (run : Nat) (st : TimeState) : State := { tAt p with
  conf := { (tAt p).conf with time := { (tAt p).conf.time with timeSrc := src } }
  tim := { (tAt p).tim with ppsLast := last, ppsRun := run, st := st } }

theorem ready_tTime (p : Phase) (src : Nat) (a : (tTime p src none 0 .free).answers = true) :
    Ready (tTime p src none 0 .free) tHdr 0x0030 1 tSess := ready_at _ _ _ rfl a (by decide) (show (0 : Nat) ≠ 3 by decide)

theorem witness_TimeReference :
    tSleep.tim.refOk = false ∧ tSleep.tim.refOk ≠ true ∧ (tTime .sleep 0 none 0 .free).conf.time.timeSrc ≠ 1 ∧
    ((tTime .sleep 1 none 0 .free).conf.time.timeSrc = 1 ∧ ((tTime .sleep 1 none 0 .free).tdcEdge 1 { n := 0, c := 0 }).2.instant.isSome = true ∧
      ((tTime .sleep 1 none 0 .free).tdcEdge 1 { n := 0, c := 0 }).1.tim.ppsLast = none) ∧
    (({ tTime .sleep 1 none 0 .free with conf := { (tTime .sleep 1 none 0 .free).conf with
        time := { (tTime .sleep 1 none 0 .free).conf.time with presc := [0, 1, 0, 0] } } } : State).tdcEdge 1 { n := 0, c := 0 }).2.instant = none ∧
    (((tTime .sleep 1 (some 0) 2 .free).tdcEdge 1 { n := 0, c := 0 }).1.tim.ppsLast = some 0 ∧ spacingOk 0 sec48 = true ∧
      spacingOk 0 (sec48 + 1000 * 2 ^ 48) = true ∧ spacingOk 0 (sec48 + 1000 * 2 ^ 48 + 1) = false ∧ 3 ≤ 2 + 1 ∧ 1 + 1 < 3) ∧
    (tTime .sleep 1 none 0 .locked).tim.st = .locked ∧ (tTime .sleep 1 none 0 .free).tim.st ≠ .locked ∧ tSleep.tim.pendRate = none ∧
    ({ tSleep.tim with pendRate := some (0, 0) } : Tim).pendRate = some (0, 0) ∧
    (tSleep.tim.ppsTick = none ∧ ({ tSleep.tim with ppsTick := some 0 } : Tim).ppsTick = some 0) ∧
    (Ready (tTime .sleep 1 none 0 .free) tHdr 0x0030 1 tSess ∧ ((tTime .sleep 1 none 0 .free).entered tHdr).conf.time.timeSrc ≠ 0) ∧
    (Ready (tTime .acquisition 0 none 0 .free) tHdr 0x0030 1 tSess ∧ ((tTime .acquisition 0 none 0 .free).entered tHdr).acquiring = true) ∧
    (Ready (tTime .sleep 0 none 0 .free) tHdr 0x0030 1 tSess ∧ ((tTime .sleep 0 none 0 .free).entered tHdr).acquiring = false ∧
      ((tTime .sleep 0 none 0 .free).entered tHdr).prb.epoch = none ∧
      tsOfLayout (10 ^ 9 * 2 ^ 16) = none ∧ (tsOfLayout (2 ^ 96 - 1)) = none ∧ (tsOfLayout 0).isSome = true) :=
  ⟨by decide, by decide, by decide, by decide +kernel, by decide +kernel, by decide +kernel, by decide, by decide, by decide, by decide, by decide,
    ⟨ready_tTime _ _ (by decide), by decide⟩, ⟨ready_tTime _ _ (by decide), by decide⟩, ready_tTime _ _ (by decide), by decide +kernel⟩

/-- In phase `p`, TDC channel 0 calibrated, under test or retired. -/
def tTdc (p : Phase) (test : Option (Nat × Int)) (retired : Bool) : State := { tAt p with
  tim := { (tAt p).tim with tdc0 := { (tAt p).tim.tdc0 with busy := false, testing := test } }
  aos := { (tAt p).aos with tdcs := if retired then [0] else [] } }

/-- A joined member, master or not, whose TDC channel 3 measures SYNC edges. -/
def tSync3 (master : Bool) : State :=
  let s := tSync .acquisition 1 true master
  { s with conf := { s.conf with time := { s.conf.time with tdc3Sel := 1 } } }

theorem witness_TodAndTdc :
    (todParse (todSentenceOf 5 1) = some (5, 1) ∧ 100 ≤ 100 ∧ 900 ≤ 900 ∧ 1 % 2 = 1) ∧ todParse [] = none ∧
    tSleep.tim.st = .free ∧ (tTime .sleep 0 none 0 .rtc).tim.st = .rtc ∧ (tTime .sleep 0 none 0 .set).tim.st ≠ .free ∧ (tTime .sleep 0 none 0 .set).tim.st ≠ .rtc ∧
    ((tSleep.tdcEdge 3 { n := 0, c := 0 }).2.instant.isSome = true ∧ (tSleep.tdcEdge 3 { n := 0, c := 0 }).1.conf.cascade.role = 0) ∧
    (∀ m, ((tSync3 m).tdcEdge 3 { n := 0, c := 0 }).2.instant.isSome = true ∧
      ((tSync3 m).tdcEdge 3 { n := 0, c := 0 }).1.conf.cascade.role ≠ 0 ∧
      ((tSync3 m).tdcEdge 3 { n := 0, c := 0 }).1.conf.time.tdc3Sel = 1 ∧ ((tSync3 m).tdcEdge 3 { n := 0, c := 0 }).1.cas.master = m) ∧
    ((tTdc .sleep none true).aos.tdcs.contains 0 = true ∧ (tTdc .sleep none false).aos.tdcs.contains 0 = false) ∧
    (calOk 800 1600 = true ∧ calOk 1 2 = false) ∧
    ((tTdc .sleep none false).tim.tdc 0).testing = none ∧ ((tTdc .sleep (some (0, 0)) false).tim.tdc 0).testing = some (0, 0) ∧
    (∀ e ∈ [-2, 2], -2 ≤ e ∧ e ≤ (2 : Int)) ∧ (∃ e ∈ [3], e < -2 ∨ (2 : Int) < e) ∧
    (State.reset.coreRuns = false ∧ tSleep.checkFits (tSleep.bgw.tdcNext % 4) = false ∧ (tTdc .sleep none true).coreRuns = true ∧
      (tTdc .sleep none true).aos.tdcs.contains ((tTdc .sleep none true).bgw.tdcNext % 4) = true) ∧
    ((tTdc .sleep none false).coreRuns = true ∧ (tTdc .sleep none false).aos.tdcs.contains ((tTdc .sleep none false).bgw.tdcNext % 4) = false ∧
      (tTdc .sleep none false).checkFits ((tTdc .sleep none false).bgw.tdcNext % 4) = true) ∧
    tSleep.acquiring = false ∧ State.reset.coreRuns = false ∧ (tAcq.acquiring = true ∧ tAcq.coreRuns = true) := by decide +kernel

/-! ### Housekeeping, ports, streams and GPIO -/

/-- Housekeeping running with this rest of a scan, RTD channel 0 as `r` and its settings as the image gives them. -/
def tHk (scan : List Nat) (r : Rtd) : State := { tAcq with
  hka := { tAcq.hka with running := true, scan := scan, rtd0 := r }, conf := { tAcq.conf with rtd := [{ en := 1 }] }
  dts := { tAcq.dts with running := true } }

/-- A settled RTD channel that converts. -/
def tRtd : Rtd := { cfg := { en := 1 }, settling := false }

theorem witness_HousekeepingEvents :
    ((tHk [] {}).hka.running = true ∧ (tHk [] {}).hka.scan = []) ∧ tAcq.hka.running = false ∧
    ((tHk [16] {}).hka.running = true ∧ (tHk [16] {}).hka.scan = [16] ∧ (tHk [16] {}).hka.scan ≠ []) ∧
    (((tHk [] {}).hka.rtd 0).cfg.en ≠ 1 ∧ ((tHk [] tRtd).hka.rtd 0).cfg.en = 1) ∧
    (rtdCause ((tHk [] tRtd).hka.rtd 0) ((tHk [] tRtd).hka.rtd 0).brkNow 10000 100000 = 0 ∧ ¬ (10 * 100000 < 9 * excNa 0) ∧
      (tHk [] tRtd).dts.running = true ∧ (tHk [] tRtd).conf.dts.coilRtd = 0) ∧
    rtdCause ((tHk [] tRtd).hka.rtd 0) true 10000 89999 ≠ 0 ∧ 10 * 89999 < 9 * excNa 0 := by decide +kernel

/-- 17 R361, R362: 1.25 V reads 2,048, a negative input 0, 2.5 V the top code. -/
theorem test_hkCode : hkCode (.volts 1250000) = 2048 ∧ hkCode (.volts (-1)) = 0 ∧ hkCode (.volts 2500000) = 4095 := by decide +kernel

/-- Port A in one of its modes, up or down, this entry of its ARP table. -/
def tPort (mode : Nat) (up : Bool) (tries : Nat) : State := { tSleep with
  conf := { tSleep.conf with net := { tSleep.conf.net with modeA := mode } }
  net := { tSleep.net with portA := { tSleep.net.portA with up := up, arp := [{ ip := 0, mac := none, tries := tries, unresolved := false }] } } }

theorem witness_NetworkPorts :
    ((tPort 1 false 0).mode ≠ 0 ∧ (tPort 1 false 0).conf.net.mode 0 ≠ 0 ∧ 0 ≤ 1 ∧ ((tPort 1 false 0).net.port 0).up = false) ∧
    (tPort 0 false 0).conf.net.mode 0 = 0 ∧ 1 < 2 ∧ ((tPort 1 true 0).net.port 0).up = true ∧
    (tRx.vlan = (if (tPort 1 true 0).conf.net.vlanEn = 1 then some (tPort 1 true 0).conf.net.vid else none) ∧
      ({ tRx with vlan := some 1 } : RxMeta).vlan ≠ if (tPort 1 true 0).conf.net.vlanEn = 1 then some (tPort 1 true 0).conf.net.vid else none) ∧
    ((0 : Nat) = ((tPort 1 true 0).received 0 tRx).conf.net.ip ∧ 1 ≠ ((tPort 1 true 0).received 0 tRx).conf.net.ip ∧
      0 = (tPort 1 true 0).conf.net.ip ∧ 1 ≠ (tPort 1 true 0).conf.net.ip) ∧
    (((tPort 1 true 2).net.port 0).entry (nextHop (tPort 1 true 2).conf.net ((tPort 1 true 2).strCfg 15))).map ArpEntry.tries = some 2 ∧
    (((tPort 1 true 3).net.port 0).entry (nextHop (tPort 1 true 3).conf.net ((tPort 1 true 3).strCfg 0))).map ArpEntry.tries = some 3 ∧
    (tSleep.net.port 0).entry (nextHop tSleep.conf.net (tSleep.strCfg 0)) = none := by decide +kernel

/-- The streams running, stream 0 of type `ty` enabled or not, in the state `x`; engine data as given. -/
def tStr (ty en : Nat) (x : Stream) : State := { tAcq with
  conf := { tAcq.conf with streams := { en := en, stype := ty } :: List.replicate 15 {} }
  net := { tAcq.net with running := true, streams := x :: List.replicate 15 {} } }

/-- An event record. -/
def tEvent : Event := {
  type := 0, detail := 0, zone := 0, seq := 0, tsA := 0, tsB := 0, index := 0, level := 0, peak := 0, pos := 0, count := 0, tag := 0, qword := 0 }

/-- A completed row. -/
def tUnit : StreamUnit := { newest := none, begins := 0, unit := 0, ts := 0, qword := 0, bytes := [] }

/-- A QS stream with this row waiting, one block running. -/
def tHeld (u : StreamUnit) : State :=
  let s := tStr 2 1 { units := [u] }
  { s with til := { s.til with blocksRun := 1 } }

/-- As `tStr` for DAS, its first output's timestamp known. -/
def tDas : State := { tStr 1 1 {} with acq := { (tStr 1 1 {}).acq with outTs := [(0, 0)] } }

theorem dasReady_tDas : (unitBoundary tDas 0).dasReady 0 = true := by
  have h : ((unitBoundary tDas 0).strCfg 0).touched = [] := by
    have : ((unitBoundary tDas 0).strCfg 0).ranges = [] := by decide +kernel
    simp [StreamRec.touched, StreamRec.spans, this, mergeRanges, blockPieces, orderBy]
  unfold State.dasReady
  rw [h]; decide +kernel

theorem witness_StreamUnits :
    ((unitBoundary (tStr 1 0 {}) 0).strCfg 0).en = 0 ∧ (unitBoundary (tStr 1 1 {}) 0).acq.outTs = [] ∧
    ((unitBoundary tDas 0).net.running = true ∧ ((unitBoundary tDas 0).strCfg 0).en = 1 ∧ ((unitBoundary tDas 0).strCfg 0).stype = 1) ∧
    (tSleep.net.running = false ∧ (tSleep.stream 0).part = none ∧ (unitBoundary tSleep 0).net.running = false) ∧
    (((unitBoundary (tStr 2 1 {}) 0).strCfg 0).stype = 2 ∧ ((unitBoundary (tStr 2 1 {}) 0).stream 0).units = []) ∧
    (((unitBoundary (tStr 3 1 { units := [tUnit] }) 0).strCfg 0).stype = 3 ∧ ((unitBoundary (tStr 3 1 { units := [tUnit] }) 0).strCfg 0).en = 1 ∧
      ((unitBoundary (tStr 3 1 { units := [tUnit] }) 0).stream 0).units = [tUnit] ∧
      (unitBoundary (tStr 3 1 { units := [tUnit] }) 0).rowMayLeave 3 tUnit = true ∧
      (unitBoundary (tHeld { tUnit with unit := 1 }) 0).rowMayLeave 2 { tUnit with unit := 1 } = false) ∧
    ((tStr 5 1 { part := some (tUnit, none, 0) }).net.running = true ∧ ((tStr 5 1 { part := some (tUnit, none, 0) }).strCfg 0).stype = 5 ∧
      ((tStr 5 1 { part := some (tUnit, none, 0) }).stream 0).part.isSome = true) ∧
    (((unitBoundary (tStr 5 1 {}) 0).stream 0).part = none ∧ (unitBoundary (tStr 5 1 {}) 0).sendsRecords = true ∧
      (unitBoundary (tStr 5 1 {}) 0).suppressed 0 = false ∧ ((unitBoundary (tStr 5 0 {}) 0).strCfg 0).en ≠ 1) ∧
    (((unitBoundary (tStr 7 1 {}) 0).strCfg 0).stype = 7 ∧ ((unitBoundary (tStr 7 1 {}) 0).strCfg 0).en = 1 ∧
      (unitBoundary (tStr 7 1 {}) 0).sendsRecords = true ∧
      (unitBoundary (tStr 7 1 {}) 0).suppressed 0 = false ∧ ((unitBoundary (tStr 7 0 {}) 0).strCfg 0).en ≠ 1) ∧
    (((unitBoundary (tStr 6 1 {}) 0).strCfg 0).stype = 6 ∧ ((unitBoundary (tStr 4 0 {}) 0).strCfg 0).en = 0) ∧
    (((unitBoundary (tStr 4 1 {}) 0).strCfg 0).stype = 4 ∧
      ((handEvents (unitBoundary (tStr 4 1 {}) 0) ((unitBoundary (tStr 4 1 {}) 0).zon.queue.length + 1)).stream 0).events.take
        (fragCap (tStr 4 1 {}).conf / 64) = []) ∧
    ((handEvents (unitBoundary (tStr 4 1 { events := [tEvent] }) 0) 1).stream 0).events.take (fragCap (tStr 4 1 {}).conf / 64) = [tEvent] ∧
    (((unitBoundary (tStr 8 1 {}) 0).strCfg 0).stype = 8 ∧
      min ((unitBoundary (tStr 8 1 {}) 0).stream 0).hkUnread ((fragCap (unitBoundary (tStr 8 1 {}) 0).conf - 16) / 2) = 0) ∧
    min ((unitBoundary (tStr 8 1 { hkUnread := 1 }) 0).stream 0).hkUnread
      ((fragCap (unitBoundary (tStr 8 1 { hkUnread := 1 }) 0).conf - 16) / 2) ≠ 0 ∧
    (tAcq.acquiring = true ∧ tAcq.coreRuns = true) ∧ tSleep.acquiring = false := by decide +kernel

/-- A formed frame. -/
def tFrame : Frame := {
  stype := 1, stream := 0, hflags := 0, fseq := 0, ts := 0, unit := 0, qword := 0, thinK := 0, kepoch := 0, payload := [], frag := 0, frags := 1
  drops := none, ports := [0], cfg := { dstMacLo := 1 }, key := [], own := none }

/-- With port A up and this waiting on it, stream 0 enabled. -/
def tOut (msgs : List PortMsg) (beats frames : List Frame) : State := { tStr 1 1 {} with
  net := { (tStr 1 1 {}).net with portA := { up := true, msgs := msgs, beats := beats, frames := frames } } }

/-- GPIO 0 an output of the PPS. -/
def tPps : State := { tSleep with conf := { tSleep.conf with gpio := 3 :: List.replicate 6 0 ++ [1] } }

theorem outPorts_tOut : ((takeFrame { tOut [] [] [] with free := 2 } 0 { stype := 0, unit := 0, ts := 0, thinK := 0, frags := 1, own := none, newest := none } 0
    [] 0).2.outPorts 0).isEmpty = false := by decide +kernel

theorem witness_StreamSending :
    (tSleep.net.port 0).up = false ∧
    (((tOut [.gratuitousArp] [] []).net.port 0).up = true ∧ ((tOut [.gratuitousArp] [] []).net.port 0).msgs = [.gratuitousArp]) ∧
    (((tOut [] [tFrame] []).net.port 0).msgs = [] ∧
      (((tOut [] [tFrame] []).net.port 0).beats.find? fun f => ((tOut [] [tFrame] []).hopMac f.cfg 0).isSome) = some tFrame) ∧
    ((((tOut [] [] []).net.port 0).beats.find? fun f => ((tOut [] [] []).hopMac f.cfg 0).isSome) = none ∧
      pickFrame ((tOut [] [] []).maySend 0) (headFrames ((tOut [] [] []).net.port 0).frames) = none) ∧
    pickFrame ((tOut [] [] [tFrame]).maySend 0) (headFrames ((tOut [] [] [tFrame]).net.port 0).frames) = some tFrame ∧
    ((tOut [] [] []).net.running = true ∧ ((tOut [] [] []).strCfg 0).en = 1 ∧ ((tOut [] [] []).stream 0).ending = false) ∧
    ((tOut [] [] []).strCfg 1).en ≠ 1 ∧ ((tStr 1 1 {}).outPorts 0).isEmpty = true ∧ ((tOut [] [] []).outPorts 0).isEmpty = false ∧
    (8 ≤ 8 ∧ 7 < 8 ∧ tPps.pads.gpioIn.getLsbD 7 ≠ true ∧ tPps.tim.counting = true ∧ tPps.pwr.configured = true ∧ nth tPps.conf.gpio 7 0 = 1 ∧
      nth tPps.conf.gpio 0 0 ≠ 1) ∧
    (tPps.tim.counting = true ∧ tPps.hasPpsOut = true ∧ tSleep.hasPpsOut = false) := by decide +kernel

/-! ### The cascade and the redundant pair -/

/-- A module of a cascade: role, rank, link up or down, joined, master; both lanes of either direction good. -/
def tCas (role rank : Nat) (link joined master : Bool) : State := { tSleep with
  conf := { tSleep.conf with cascade := { tSleep.conf.cascade with role := role, rank := rank, members := 2 } }
  cas := { tSleep.cas with link := link, joined := joined, master := master, rxDir := { lanes := [true, true] } } }

/-- With lane 0 towards it under its self-test, after faults at these ticks. -/
def tBist (l : List Nat) : State := { tCas 1 0 true true true with
  cas := { (tCas 1 0 true true true).cas with rxDir := { testing := [some 17, none], faults := [l, []] } } }

/-- With member `rank` present. -/
def tMember (s : State) (rank : Nat) (m : Member) : State := { s with cas := { s.cas with members := modAt s.cas.members rank fun _ => m } }

theorem witness_RingLinksAndLosses :
    (tSleep.conf.cascade.role = 0 ∧ ¬ (tSleep.conf.cascade.role ≠ 0)) ∧
    ((tCas 1 1 false false false).conf.cascade.role ≠ 0 ∧ (tCas 1 1 false false false).mode ≠ 0 ∧ (tCas 1 1 false false false).cas.link = false ∧
      3 ≠ 0 ∧ true ∈ [!(tCas 1 1 false false false).aos.lanes.contains 0, !(tCas 1 1 false false false).aos.lanes.contains 1] ∧
      (tCas 1 1 false false false).conf.cascade.rank ≠ 0 ∧ (tCas 1 0 false false false).conf.cascade.rank = 0) ∧
    (({ tCas 1 1 false false false with aos := { tSleep.aos with lanes := [0, 1] } } : State).aos.lanes = [0, 1] ∧
      true ∉ [!([0, 1] : List Nat).contains 0, !([0, 1] : List Nat).contains 1]) ∧
    (1 ≤ 1 ∧ 16 < 17 ∧ nth ((tCas 1 0 true true true).cas.dir 0).lanes 1 false = true ∧ (tCas 1 0 true true true).cas.link = true ∧ ¬ (16 < 16)) ∧
    (nth ((tBist []).cas.dir 0).testing 1 none = none ∧ nth ((tBist []).cas.dir 0).testing 0 none = some 17) ∧
    ((recentFaults (nth ((tBist [0, 0, 0]).cas.dir 0).faults 0 []) (tBist [0, 0, 0]).tim.tick).length = 4 ∧
      (recentFaults (nth ((tBist [0, 0]).cas.dir 0).faults 0 []) (tBist [0, 0]).tim.tick).length < 4) ∧
    (1 ≠ (tCas 1 0 true true true).conf.cascade.rank ∧ (tMember (tCas 1 0 true true true) 1 { present := true }).mode ≠ 0 ∧
      (nth (tMember (tCas 1 0 true true true) 1 { present := true }).cas.members 1 {}).present = true ∧
      (tCas 1 0 true true true).isPair = false) ∧
    (nth (tCas 1 0 true true true).cas.members 15 {}).present = false ∧
    ((tCas 3 0 true true true).isPair = true ∧ 1 = (tCas 3 0 true true true).partnerRank ∧ (tCas 3 0 true true true).cas.partnerLost = false) := by
  decide +kernel

/-- Header of a ring message of rank 0 to all. -/
def tRingM : RingHdr := { tRing with src := 0 }

theorem taken_of {s : State} {h : RingHdr} (a : (s.conf.cascade.role ≠ 0 ∧ s.cas.link = true) ∧ h.crcOk = true ∧
    h.src ≠ s.conf.cascade.rank ∧ (h.dst = s.conf.cascade.rank ∨ h.dst = 255)) : RingTaken s h := a

/-- A heartbeat. -/
def tBeat (rank role : Nat) : BeatBody := {
  rank := rank, role := 3, pairRole := role, joined := true, hotPct := 100, eligible := true, takebackReq := false, fw := 0 }

/-- A request to join. -/
def tJoin (s : State) (fw : Nat) : JoinBody := { serial := 0, fw := fw, rank := 1, role := 1, fingerprint := fingerprint s.conf }

theorem witness_RingMembers :
    (RingTaken (tCas 1 0 true true true) tRing ∧ RingTaken (tCas 1 1 true false false) tRingM ∧ RingTaken (tCas 3 0 true true true) tRing) ∧
    ((tRing.crcOk = true ∧ tRing.src ≠ (tCas 1 0 true true true).conf.cascade.rank ∧
      2 ≠ (tCas 1 0 true true true).conf.cascade.rank ∧ 2 ≠ 255 ∧ tRing.src = (tCas 1 1 true true true).conf.cascade.rank ∧
      ({ tRing with crcOk := false } : RingHdr).crcOk = false ∧ tRing0.dst = (tCas 1 0 true true true).conf.cascade.rank ∧
      tRing.dst ≠ (tCas 1 0 true true true).conf.cascade.rank ∧ (tCas 1 0 true true true).cas.tx.length < 64) ∧
      ringReceived (tCas 1 0 true true true) (.takeReq tRing) = some (tRing, .takeReq)) ∧
    ¬ (tSleep.conf.cascade.role ≠ 0 ∧ tSleep.cas.link = true) ∧ ((tCas 1 0 true true true).conf.cascade.role ≠ 0 ∧ (tCas 1 0 true true true).cas.link = true) ∧
    ((tBeat 0 1).rank = (tCas 1 0 true true true).conf.cascade.rank ∧ 16 ≤ (tBeat 16 1).rank ∧
      (tBeat 15 1).rank ≠ (tCas 1 0 true true true).conf.cascade.rank ∧ (tBeat 15 1).rank < 16) ∧
    ((tCas 1 0 true true true).isPair = false ∧ (tCas 3 0 true true true).isPair = true) ∧
    ((tBeat 1 2).joined = true ∧ (tBeat 1 2).pairRole = 2 ∧ (tBeat 1 1).pairRole ≠ 2 ∧ (nth (tCas 3 0 true true true).cas.members 1 {}).joined = false ∧
      ({ tCas 3 0 true true true with cas := { (tCas 3 0 true true true).cas with pairRole := 1 } } : State).cas.pairRole = 1) ∧
    (((tCas 1 0 true true false).passOn tRing (.joinReq (tJoin (tCas 1 0 true true false) 0))).cas.master = false ∧
      ((tCas 1 0 true true true).passOn tRing (.joinReq (tJoin (tCas 1 0 true true true) 0))).cas.master = true) ∧
    ((tJoin (tCas 1 0 true true true) 1).fw ≠ (tCas 1 0 true true true).fact.fwVersion) ∧
    ((tCas 1 0 true true true).conf.cascade.rank = 0 ∧ (tCas 1 1 true false false).conf.cascade.rank ≠ 0 ∧
      (tCas 1 1 true false false).cas.joined = false ∧ (tCas 1 1 true true false).cas.joined = true) ∧
    (6 ≠ 0 ∧ 6 ≤ 6 ∧ ¬ (7 ≤ 6)) ∧ (tCas 1 1 true false false).cas.refuse = 0 ∧
    ({ (tCas 1 1 true false false).cas with refuse := 6 } : Cas).refuse ≠ 0 :=
  ⟨⟨taken_of (by decide +kernel), taken_of (by decide +kernel), taken_of (by decide +kernel)⟩, ⟨by decide +kernel, rfl⟩, by decide +kernel⟩

/-- The request to join that the master accepts: its own firmware, fingerprint and role, from rank 1, which no member holds. -/
theorem join_accepted : (tJoin (tCas 1 0 true true true) 0).fw = (tCas 1 0 true true true).fact.fwVersion ∧
    (tJoin (tCas 1 0 true true true) 0).fingerprint = fingerprint (tCas 1 0 true true true).conf ∧
    ¬ ((tJoin (tCas 1 0 true true true) 0).rank = 0 ∧ (tCas 1 0 true true true).conf.cascade.rank = 0) ∧
    (nth (tCas 1 0 true true true).cas.members 1 {}).joined = false ∧
    (tJoin (tCas 1 0 true true true) 0).role = (tCas 1 0 true true true).conf.cascade.role :=
  ⟨by simp only [tJoin]; decide, by simp only [tJoin], by decide, by decide, by decide⟩

/-- A follower that slews, `terr` off the master's time. -/
def tSlew (terr : Int) (src : Nat) : State := { tCas 1 1 true true false with
  conf := { (tCas 1 1 true true false).conf with time := { (tCas 1 1 true true false).conf.time with timeSrc := src } }
  cas := { (tCas 1 1 true true false).cas with slewing := true, terr := terr } }

theorem witness_RingTime :
    (RingTaken (tSlew 0 2) tRingM ∧ RingTaken (tCas 1 0 true true true) tRing ∧ RingTaken (tCas 1 0 true true true) { tRing with src := 16 }) ∧
    ((tCas 1 0 true true true).conf.cascade.role ≠ 0 ∧ (tCas 1 0 true true true).cas.link = true ∧ (tCas 1 0 true true true).cas.master = true) ∧
    tSleep.conf.cascade.role = 0 ∧ ((tSlew 0 2).cas.master = false ∧ (tSlew 0 2).conf.time.timeSrc = 2 ∧ (tSlew 0 1).conf.time.timeSrc ≠ 2) ∧
    ((1 : Nat) = (tSlew 0 2).conf.cascade.rank ∧ (0 : Nat) ≠ (tSlew 0 2).conf.cascade.rank) ∧
    ((tSlew (-20001) 2).cas.slewing = true ∧ (tSlew (-20001) 2).cas.terr < -20000 ∧ ¬ ((tSlew 20000 2).cas.terr < -20000 ∨ 20000 < (tSlew 20000 2).cas.terr)) ∧
    (200 < (nth (tMember (tCas 1 0 true true true) 1 { terr := 201 }).cas.members 1 {}).terr ∧
      ¬ (200 < (nth (tMember (tCas 1 0 true true true) 1 { terr := 200 }).cas.members 1 {}).terr)) ∧
    (((tCas 1 0 true true true).passOn tRing (.syncInstant 0)).cas.master = true ∧ tRing.src < 16 ∧
      tRing.src ≠ ((tCas 1 0 true true true).passOn tRing (.syncInstant 0)).conf.cascade.rank ∧
      ((tCas 1 0 true true true).passOn tRing (.syncInstant 0)).cas.syncInst = 0 ∧ roundDiv ((20 * 2 ^ 48 : Nat) * 1000) (2 ^ 48) ≤ 20000 ∧
      20000 < roundDiv ((21 * 2 ^ 48 : Nat) * 1000) (2 ^ 48)) :=
  ⟨⟨taken_of (by decide +kernel), taken_of (by decide +kernel), taken_of (by decide +kernel)⟩, by decide +kernel⟩

/-- The settings of the image in a cascade of role 1. -/
def tConf1 : Conf := { tConf with pair := {}, cascade := { tConf.cascade with role := 1 } }

/-- A member of that cascade, in phase `p`, joined or not, master or not. -/
def tAmend (p : Phase) (joined master : Bool) : State := { tAt p with
  conf := tConf1, cas := { (tAt p).cas with link := true, joined := joined, master := master } }

/-- Bodies of a WINDOW amendment and of a DECIMATION amendment that changes FIR_DF. -/
def tWindow : List Byte := leBytes 4 1
def tDecim : List Byte := tWords [1, 2, 1, 0, 10, 3, 256]

/-- What an amendment is found to be. -/
def tVerdict (s : State) (type : Nat) (body : List Byte) : Option Conf :=
  match amendVerdict s ([{ type := type, inst := 0, body := body }].map GroupRec.raw) with
  | .valid c => some c
  | .refuse _ _ => none

theorem verdict_valid {s : State} {type : Nat} {body : List Byte} (h : (tVerdict s type body).isSome = true) :
    ∃ v, amendVerdict s ([{ type := type, inst := 0, body := body }].map GroupRec.raw) = .valid v := by
  unfold tVerdict at h; split at h <;> simp_all

/-- A proposal of the master with these votes missing. -/
def tProposal (l : List Nat) : State := { tCas 1 0 true true true with
  cas := { (tCas 1 0 true true true).cas with proposal := some { req := 1, tick := 0, sid := 5, seq := 1, recs := [], waiting := l } } }

/-- What the message leaves when it is taken from the ring. -/
def tOn (s : State) (m : RingMsg) : State := s.passOn tRing m

/-- A member that waits for its launch. -/
def tWaiting : State := { tFollow with
  conf := { tFollow.conf with cascade := { tFollow.conf.cascade with role := 1 } }
  prb := { tFollow.prb with epoch := none, arm := .waitLaunch }, cas := { tFollow.cas with link := true } }

/-- What STATE leaves before the schedule is taken. -/
def tStateOn (s : State) (st : StateBody) : State :=
  let p := tOn s (.state st)
  let t : State := { p with cas := { p.cas with stateSeen := some st, master := false } }
  if t.prb.epoch = none then joinNow t else t

theorem witness_RingShared :
    (RingTaken tWaiting tRing ∧ RingTaken (tAmend .sleep true false) tRing ∧ RingTaken (tAmend .acquisition true false) tRing ∧
      RingTaken (tProposal [1]) tRing) ∧
    (∃ v, amendVerdict (tOn (tAmend .sleep true false) (.amendProp 0x15 0 tDecim)) ([{ type := 0x15, inst := 0, body := tDecim }].map GroupRec.raw) = .valid v) ∧
    (∃ r d, amendVerdict (tOn (tAmend .sleep true false) (.amendProp 0x99 0 [])) ([{ type := 0x99, inst := 0, body := [] }].map GroupRec.raw) = .refuse r d) ∧
    (¬ (tSleep.conf.cascade.role ≠ 0) ∧ ((tAmend .sleep true false).conf.cascade.role ≠ 0 ∧ (tAmend .sleep true false).cas.link = true ∧
      (tAmend .sleep true false).cas.joined = true ∧ (tAmend .sleep true false).cas.master = false)) ∧
    ((tStateOn tWaiting tState).acquiring = true ∧ (tStateOn tWaiting tState).prb.epoch = none ∧ (tStateOn tWaiting tState).prb.arm = .waitLaunch ∧
      (tStateOn tWaiting tState).cas.joined = true ∧ (tStateOn (tAmend .sleep true false) tState).acquiring = false) ∧
    ((tOn (tAmend .acquisition true false) (.syncIdx 0)).acquiring = true ∧ (tOn (tAmend .acquisition true false) (.syncIdx 0)).cas.joined = true ∧
      (tOn (tAmend .acquisition true false) (.syncIdx 0)).cas.master = false ∧ (tOn (tAmend .sleep true false) (.syncIdx 0)).acquiring = false) ∧
    ((tOn (tCas 1 0 true true true) (.amendVote 0)).cas.proposal = none ∧
      ((tOn (tProposal [1]) (.amendVote 0)).cas.proposal.map Proposal.waiting) = some [1] ∧ tRing.src ∉ [2] ∧ tRing.src ∈ [1] ∧
      [1].erase tRing.src = [] ∧ [1, 2].erase tRing.src ≠ []) ∧
    ((tCas 1 1 true true false).cas.proposed = [] ∧
      ({ (tCas 1 1 true true false).cas with proposed := [{ type := 0x15, inst := 0, body := tDecim }] } : Cas).proposed ≠ []) :=
  ⟨⟨taken_of (by decide +kernel), taken_of (by decide +kernel), taken_of (by decide +kernel), taken_of (by decide +kernel)⟩,
    verdict_valid (by decide +kernel), ⟨_, _, rfl⟩, by decide +kernel, by decide +kernel, by decide +kernel, by decide +kernel, by decide +kernel⟩

/-- A pair: this module rank 0 of one processed block, its role, the partner as `m`. -/
def tPair (role : Nat) (seeding : Bool) (m : Member) (f : Cas → Cas) : State :=
  let s := tLaunch1
  { s with
    conf := { s.conf with cascade := { s.conf.cascade with role := 3, members := 2 }, pair := { present := true, takeback := 1 } }
    til := { s.til with tokens := [(0, 1)] }
    cas := f { s.cas with link := true, joined := true, pairRole := role, seeding := seeding, hot := [0], members := {} :: m :: List.replicate 14 {} } }

/-- A partner ready to be seeded. -/
def tStandbyMem : Member := { present := true, joined := true, pairRole := 2, eligible := true, hotPct := 100 }

theorem witness_PairSeeding :
    (RingTaken (tPair 2 false {} id) tRing ∧ RingTaken (tPair 2 true {} id) tRing ∧ RingTaken (tPair 1 true tStandbyMem id) tRing) ∧
    ((tOn (tPair 2 false {} id) .seedBegin).isPair = true ∧ (tOn (tPair 2 false {} id) .seedBegin).cas.seeding = false ∧
      (tOn (tPair 2 false {} id) .seedBegin).cas.pairRole = 2 ∧ (tOn (tPair 2 true {} id) .seedBegin).cas.seeding = true) ∧
    ((tPair 1 false tStandbyMem fun c => { c with seedAsk := [0] }).cas.pairRole = 1 ∧
      ((List.range (tPair 1 false tStandbyMem fun c => { c with seedAsk := [0] }).procBlocks).filter fun b =>
        (tPair 1 false tStandbyMem fun c => { c with seedAsk := [0] }).cas.seedAsk.contains b) = [0] ∧
      (tPair 1 false tStandbyMem id).partnerMem.present = true ∧ (tPair 1 false tStandbyMem id).partnerMem.joined = true ∧
      (tPair 1 false tStandbyMem id).partnerMem.pairRole = 2 ∧ (tPair 1 false tStandbyMem id).prb.epoch.isSome = true) ∧
    tSleep.isPair = false ∧
    ((tPair 1 true tStandbyMem fun c => { c with seedR0 := some 0, seedLeft := [0] }).cas.seedR0 = some 0 ∧
      (tPair 1 true tStandbyMem fun c => { c with seedR0 := some 0, seedLeft := [0] }).cas.seedLeft = [0] ∧
      (tPair 1 true tStandbyMem id).conf.probe.slots = 1 ∧ 0 + 1 ≤ smGet 0 (tPair 1 true tStandbyMem id).til.tokens (tokenKey 0 0)) ∧
    (tPair 1 true tStandbyMem id).cas.seedR0 = none ∧
    (0 < (tPair 2 true {} id).procBlocks ∧ (zeros 2064).length = chunkLen (tPair 2 true {} id).fuses.order (tPair 2 true {} id).conf ∧
      (zeros 2063).length ≠ chunkLen (tPair 2 true {} id).fuses.order (tPair 2 true {} id).conf) ∧
    ((tOn (tPair 2 true {} id) .seedEnd).cas.seeding = true ∧ (tOn (tPair 2 false {} id) .seedEnd).cas.seeding = false ∧
      (tOn (tPair 1 true tStandbyMem id) (.seedCommit 0)).cas.pairRole = 1 ∧ (tOn (tPair 2 true {} id) (.seedCommit 0)).cas.pairRole ≠ 1 ∧
      (tPair 1 true tStandbyMem id).conf.pair.reseedS ≠ 0) :=
  ⟨⟨taken_of (by decide +kernel), taken_of (by decide +kernel), taken_of (by decide +kernel)⟩, by decide +kernel⟩

/-- The same pair in arbitration mode `mode`. -/
def tArb (mode role : Nat) (m : Member) (f : Cas → Cas) : State := { tPair role false m f with
  conf := { (tPair role false m f).conf with pair := { (tPair role false m f).conf.pair with arbMode := mode } } }

theorem ready_tArb (mode role : Nat) (m : Member) (f : Cas → Cas) : Ready (tArb mode role m f) tHdr 0x0071 1 tSess :=
  ready_at _ _ _ rfl rfl (by decide) (show (0 : Nat) ≠ 3 by decide)

theorem witness_PairRoles :
    (RingTaken (tArb 1 2 {} id) tRing ∧ RingTaken (tArb 1 1 {} id) tRing) ∧
    ((tArb 1 2 {} id).isPair = true ∧ (tArb 1 2 {} id).cas.pairRole ≠ 1 ∧ (tArb 1 1 {} id).cas.pairRole = 1 ∧ (tArb 1 1 {} id).conf.pair.arbMode = 1 ∧
      (tArb 0 1 {} id).conf.pair.arbMode = 0) ∧ tSleep.isPair = false ∧ tSleep.cas.soaking = false ∧
    ((tArb 1 2 {} fun c => { c with soaking := true }).cas.soaking = true ∧ (tArb 1 2 {} fun c => { c with soaking := true }).soakable = true ∧
      (tArb 0 2 {} fun c => { c with soaking := true }).soakable = true) ∧
    (Ready (tArb 1 1 tStandbyMem id) tHdr 0x0071 1 tSess ∧ 2 < 3 ∧ 1 < 2 ∧ ((tArb 1 1 tStandbyMem id).entered tHdr).isPair = true ∧
      ((tArb 1 1 tStandbyMem id).entered tHdr).cas.seeding = false ∧ ((tArb 1 1 tStandbyMem id).entered tHdr).cas.switchPending = false ∧
      ((tArb 1 1 tStandbyMem id).entered tHdr).cas.pairRole = 1 ∧ ((tArb 1 1 tStandbyMem id).entered tHdr).partnerMem.present = true ∧
      ((tArb 1 1 tStandbyMem id).entered tHdr).partnerMem.eligible = true ∧ 100 ≤ ((tArb 1 1 tStandbyMem id).entered tHdr).partnerMem.hotPct ∧
      ((tArb 1 1 tStandbyMem id).entered tHdr).conf.pair.arbMode = 1 ∧ ((tArb 0 1 tStandbyMem id).entered tHdr).conf.pair.arbMode ≠ 1) ∧
    (Ready (tArb 1 1 {} id) tHdr 0x0071 1 tSess ∧ ((tArb 1 1 {} id).entered tHdr).partnerMem.present = false) ∧
    (Ready tSleep tHdr 0x0071 1 tSess ∧ (tSleep.entered tHdr).isPair = false) ∧
    (Ready (tArb 1 1 {} fun c => { c with switchPending := true }) tHdr 0x0071 1 tSess ∧
      ((tArb 1 1 {} fun c => { c with switchPending := true }).entered tHdr).cas.switchPending = true) ∧
    (Ready (tArb 1 2 {} id) tHdr 0x0071 1 tSess ∧
      ((tArb 1 2 {} id).entered tHdr).conf.pair.preferred = ((tArb 1 2 {} id).entered tHdr).conf.cascade.rank ∧
      ((tArb 1 2 {} id).entered tHdr).cas.pairRole = 2 ∧ ((tArb 1 2 {} id).entered tHdr).eligible = true ∧
      100 ≤ ((tArb 1 2 {} id).entered tHdr).hotPct ∧ ((tArb 1 1 {} id).entered tHdr).cas.pairRole ≠ 2) :=
  ⟨⟨taken_of (by decide +kernel), taken_of (by decide +kernel)⟩, by decide +kernel, by decide, by decide, by decide +kernel,
    ⟨ready_tArb _ _ _ _, by decide +kernel⟩, ⟨ready_tArb _ _ _ _, by decide +kernel⟩,
    ⟨ready_sleep _ _ (by decide), by decide⟩, ⟨ready_tArb _ _ _ _, by decide +kernel⟩, ready_tArb _ _ _ _, by decide +kernel⟩

/-! ### Sessions, credentials, keys and the lifecycle -/

/-- In sleep with these sessions. -/
def tWith (l : List Session) : State := { tSleep with sec := { tSleep.sec with sess := l } }

/-- The session with SEQ 64 accepted and these SEQ in its window. -/
def tSeen (w : List Cached) : State := tWith [{ tSess with hMax := 64, window := w }]

/-- A header with another SEQ. -/
def tSeq (n : Nat) : Hdr := { tHdr with seq := n }

theorem witness_ReplayWindow :
    (∃ c h code role f, ∀ s : State, exec c s = s.done (s.command1 h code role f) ∧ c = .acqStop tHdr) ∧
    ((tSeen []).session 5 = some { tSess with hMax := 64 } ∧ (tSeen []).arrives tHdr.via = some (tSeen []) ∧ (tSeen []).answers = true) ∧
    ((tSeq 0).seq = 0 ∧ (tSeq 1).seq ≠ 0 ∧ 0 + 63 < 64 ∧ 64 ≤ (tSeq 1).seq + 63 ∧ (tSeq 64).seq ≤ 64) ∧
    (([{ seq := 1, resp := some (plain .ok), copies := 0 }] : List Cached).find? fun d => d.seq == (tSeq 1).seq) =
      some { seq := 1, resp := some (plain .ok), copies := 0 } ∧
    (([{ seq := 64, resp := none, copies := 0 }] : List Cached).find? fun d => d.seq == (tSeq 64).seq) =
      some { seq := 64, resp := none, copies := 0 } ∧
    (64 < (tSeq 65).seq ∧ 1 ≤ tSess.role ∧ (tSeen []).fuses.lifecycle ≠ 3) ∧
    exec (.hello tVia 0 (zeros 32)) tSleep = .next (tAfter (.hello tVia 0 (zeros 32)) tSleep) :=
  ⟨⟨.acqStop tHdr, tHdr, _, _, _, fun _ => ⟨rfl, rfl⟩⟩, by decide, by decide, by decide, by decide, by decide, exec_of_tNext (by decide +kernel)⟩

/-- A half-open session; local or under credential slot 0. -/
def tHalf (loc : Bool) : Session := { tSess with
  sid := 6, slot := 1, isOpen := false, localSess := loc, credId := if loc then 0 else 9, credSlot := if loc then none else some 0, nh := zeros 32 }

/-- A datagram on port A, to this UDP port. -/
def tUdp (dst : Nat) : Via := { tVia with tr := .udpA, dstUdp := dst }

theorem witness_Handshake :
    (portOf tVia.tr = none ∧ tSleep.arrives tVia = some tSleep ∧ portOf (tUdp 0).tr = some 0) ∧
    (((tPort 1 true 0).net.port 0).up = true ∧
      (tUdp 0).rx.vlan = (if (tPort 1 true 0).conf.net.vlanEn = 1 then some (tPort 1 true 0).conf.net.vid else none) ∧
      (tUdp 0).frag = false ∧ (tUdp 0).dstIp = (tPort 1 true 0).conf.net.ip ∧
      (tUdp (tPort 1 true 0).conf.net.mgmtUdp).dstUdp = (tPort 1 true 0).conf.net.mgmtUdp ∧
      (tUdp ((tPort 1 true 0).conf.net.mgmtUdp + 1)).dstUdp ≠ (tPort 1 true 0).conf.net.mgmtUdp ∧ (tSleep.net.port 0).up = false) ∧
    tSleep.arrives (tUdp 0) = none ∧ ¬ ((zeros 31).length = 32) ∧
    (tSleep.answers = true ∧ 65535 < 65536 ∧ (zeros 32).length = 32) ∧
    ((tWith [tHalf true]).sec.sess.find? fun x => !x.isOpen && x.credId == 0 && x.nh == zeros 32) = some (tHalf true) ∧
    (4 ≤ (tWith [tSess, tSess, tSess, tSess]).sec.sess.length ∧ (tWith [tSess, tSess, tSess]).sec.sess.length < 4) ∧
    (State.reset.answers = false) ∧ (tSleep.sec.sess.find? fun x => !x.isOpen && x.sid == 6) = none ∧
    ((tWith [tHalf true]).sec.sess.find? fun x => !x.isOpen && x.sid == 6) = some (tHalf true) ∧
    (({ sid := 6, hp := [], msg := { transport := .spi, dst := 0, msg := .refuse 6 .denied } } : ProofReply).sid = 6) ∧
    ((tWith [tHalf true]).proofKey ((tHalf true).from tVia) = some (zeros 32) ∧ (tWith [tHalf false]).proofKey ((tHalf false).from tVia) = none) ∧
    (nth tSleep.sec.locked 0 false = false ∧ nth [true] 0 false = true) ∧ tSleep.sec.spiTx = [] ∧ (∃ x ∈ (tWith [tHalf true]).sec.sess, x.isOpen = false ∧ x.sid = 6) ∧
    (∀ x ∈ tSleep.sec.sess, x.isOpen = false → x.sid ≠ 6) ∧ tSleep.session 6 = none ∧ tSleep.session 5 = some tSess ∧
    Ready tSleep tHdr 0x007F 0 tSess :=
  ⟨by decide, by decide, by decide, by decide, by decide, by decide, by decide, by decide, by decide, by decide, by decide, by decide, by decide,
    by decide, by decide, by decide, by decide, by decide, ready_sleep _ _ (by decide)⟩

/-- An admin credential. -/
def tCred : Cred := { credId := 9, role := 2, salt := [], iter := 10000, kc := zeros 32 }

/-- In sleep and this lifecycle state, the admin in slot 7, a salt asked for in the session for slot 7. -/
def tKeyed (life : Nat) : State := { tWith [{ tSess with salts := [(7, zeros 16)] }] with
  flash := { tSleep.flash with creds := List.replicate 7 none ++ [some tCred] }
  fuses := { tSleep.fuses with lifecycle := life, keys := [some (zeros 32), some (zeros 32), none] } }

theorem ready_tKeyed (life code : Nat) (h : life ≠ 3) : Ready (tKeyed life) tHdr code 2 { tSess with salts := [(7, zeros 16)] } :=
  ⟨rfl, rfl, rfl, by decide, by decide, .inl h⟩

theorem witness_Credentials :
    (Ready (tKeyed 1) tHdr 0x0060 2 { tSess with salts := [(7, zeros 16)] } ∧
      ((tKeyed 1).entered tHdr).fuses.lifecycle = 1 ∧
      ((tKeyed 1).entered tHdr).flash.admins = [7]) ∧
    (8 ≤ 8 ∧ 7 < 8 ∧ 0 < 9 ∧ 9 < 65536 ∧ 2 ≤ 2 ∧ 10000 ≤ 10000 ∧ 10000000 ≤ 10000000 ∧ (zeros 32).length = 32 ∧
      (∀ i, ((tKeyed 1).entered tHdr).flash.credSlot 9 = some i → i = 7)) ∧
    ((({ tSess with salts := [(7, zeros 16)] } : Session).entered (tKeyed 1) tHdr).salts.find? fun a => a.1 == 7) = some (7, zeros 16) ∧
    ((({ tSess with salts := [(7, zeros 16)] } : Session).entered (tKeyed 1) tHdr).salts.find? fun a => a.1 == 6) = none ∧
    (1 ≠ 2 ∧ (Ready (tKeyed 0) tHdr 0x0060 2 { tSess with salts := [(7, zeros 16)] } ∧
      ¬ (((tKeyed 0).entered tHdr).fuses.lifecycle = 1 ∨
        ((tKeyed 0).entered tHdr).fuses.lifecycle = 2))) :=
  ⟨⟨ready_tKeyed _ _ (by decide), by decide +kernel⟩,
    ⟨by decide, by decide, by decide, by decide, by decide, by decide, by decide, by decide, fun i h => by
      have : ((tKeyed 1).entered tHdr).flash.credSlot 9 = some 7 := by decide +kernel
      exact Option.some.inj (h.symm.trans this)⟩,
    by decide, by decide, by decide, ready_tKeyed _ _ (by decide), by decide⟩

/-- As `tKeyed`, a lifecycle transition pending and a restart running. -/
def tLife : State := { tKeyed 0 with sec := { (tKeyed 0).sec with lifePend := some 3, restarting := true } }

theorem witness_KeysAndLifecycle :
    (Ready (tKeyed 1) tHdr 0x0063 2 { tSess with salts := [(7, zeros 16)] } ∧ 2 < 3 ∧ ¬ (3 < 3) ∧ (zeros 32).length = 32 ∧
      ((tKeyed 1).entered tHdr).fuses.lifecycle < 2 ∧
      nth ((tKeyed 1).entered tHdr).fuses.keys 2 none = none ∧
      nth ((tKeyed 1).entered tHdr).fuses.keys 0 none ≠ none) ∧
    ((nth ((tKeyed 1).entered tHdr).fuses.keys 0 none).isSome = true ∧
      nth ((tKeyed 1).entered tHdr).fuses.revoked 0 false = false ∧
      (zeros 65).length = 65 ∧ (zeros 64).length = 64 ∧ ecdsaOk (zeros 65) [] (zeros 64) = false) ∧
    (1 ≤ 3 ∧ ¬ (4 ≤ 3) ∧ (0xA5A5A5A5 : Nat) = (((tKeyed 0).entered tHdr).fact.serial % 2 ^ 32) ^^^ 0xA5A5A5A5 ∧
      ((tKeyed 0).entered tHdr).sec.lifePend.getD 0 = 0 ∧
      ((tKeyed 0).entered tHdr).flash.admins ≠ [] ∧
      (∃ k ∈ ((tKeyed 0).entered tHdr).fuses.keys, k.isSome = true) ∧
      ((tKeyed 0).entered tHdr).cfg.image = none) ∧
    (tSleep.sec.lifePend = none ∧ tLife.sec.lifePend = some 3 ∧ tSleep.sec.restarting = false ∧ tLife.sec.restarting = true) :=
  ⟨⟨ready_tKeyed _ _ (by decide), by decide +kernel⟩, by decide +kernel, by decide +kernel, by decide⟩

/-- In acquisition with a stream master key, an epoch asked for or not. -/
def tEpoch (p : Bool) : State := { tAcq with sec := { tAcq.sec with ksm := some (zeros 32), rekeyPend := p, kepoch := 255 } }

theorem witness_AttestAndStreamKeys :
    (Ready tSleep tHdr 0x0050 0 tSess ∧ (zeros 31).length ≠ 32 ∧ (zeros 32).length = 32 ∧ 1024 < 1025 ∧ 65536 ≤ 65536 ∧ 1024 ≤ 1024 ∧ 65535 < 65536) ∧
    (Ready (tEpoch false) tHdr 0x0053 1 tSess ∧ ((tEpoch false).entered tHdr).ksmOf 255 = some (zeros 32) ∧ 15 < 16 ∧ 16 ≤ 16 ∧
      ((tEpoch false).entered tHdr).ksmOf 254 = none ∧ ((tEpoch false).entered tHdr).acquiring = true ∧
      ((tEpoch false).entered tHdr).sec.rekeyPend = false) ∧
    (Ready tSleep tHdr 0x0053 1 tSess ∧ (tSleep.entered tHdr).acquiring = false) ∧
    (Ready (tEpoch true) tHdr 0x0053 1 tSess ∧ ((tEpoch true).entered tHdr).sec.rekeyPend = true) :=
  ⟨⟨ready_sleep _ _ (by decide), by decide⟩, ⟨ready_at _ _ _ rfl rfl (by decide) (by decide), by decide⟩, ⟨ready_sleep _ _ (by decide), by decide⟩,
    ready_at _ _ _ rfl rfl (by decide) (by decide), by decide⟩

/-! ### Amendments, activation and background work -/

theorem ready_tAmend (p : Phase) (j m : Bool) (a : (tAmend p j m).answers = true) : Ready (tAmend p j m) tHdr 0x0003 1 tSess :=
  ready_at _ _ _ rfl a (by decide) (show (0 : Nat) ≠ 3 by decide)

/-- The state in which the amendment of a new group is judged. -/
def tNew (s : State) : State := ((s.entered tHdr).newReq.2).modSession 5 fun y => { y with group := none }

theorem witness_AmendCommand :
    (Ready tSleep tHdr 0x0003 1 tSess ∧ tSess.group = none ∧ 1 ≠ 0 ∧ fitsGroup [] 0x13 tWindow = true) ∧
    fitsGroup [{ type := 0x13, inst := 0, body := [] }] 0x15 [] = false ∧
    ((tNew { tSleep with cfg := { tSleep.cfg with activeSlot := 2 } }).cfg.activeSlot = 2 ∧ (tNew tSleep).cfg.activeSlot ≠ 2) ∧
    (Ready (tAt .image) tHdr 0x0003 1 tSess ∧ (tNew (tAt .image)).mode = 0 ∧ (tNew tSleep).mode ≠ 0) ∧
    (∃ r d, amendVerdict (tNew tSleep) ([{ type := 0x99, inst := 0, body := [] }].map GroupRec.raw) = .refuse r d) ∧
    (Ready (tAmend .sleep true true) tHdr 0x0003 1 tSess ∧
      (∃ v, amendVerdict (tNew (tAmend .sleep true true)) ([{ type := 0x13, inst := 0, body := tWindow }].map GroupRec.raw) = .valid v) ∧
      (∃ v, amendVerdict (tNew (tAmend .sleep true true)) ([{ type := 0x15, inst := 0, body := tDecim }].map GroupRec.raw) = .valid v) ∧
      (tVerdict (tNew (tAmend .sleep true true)) 0x13 tWindow).map fingerBytes = some (fingerBytes ((tNew (tAmend .sleep true true)).pendConf true)) ∧
      (tVerdict (tNew (tAmend .sleep true true)) 0x15 tDecim).map fingerBytes ≠ some (fingerBytes ((tNew (tAmend .sleep true true)).pendConf true)) ∧
      (tNew (tAmend .sleep true true)).cas.joined = true ∧ (tNew (tAmend .sleep true true)).cas.master = true ∧
      (tNew (tAmend .sleep true true)).cas.proposal = none ∧ (tNew (tAmend .sleep true true)).joinedRanks = []) ∧
    (tNew (tMember (tAmend .sleep true true) 1 { present := true, joined := true })).joinedRanks = [1] ∧
    (Ready (tAmend .sleep true false) tHdr 0x0003 1 tSess ∧ (tNew (tAmend .sleep true false)).cas.master = false) ∧
    (Ready tSleep tHdr 0x0004 0 tSess ∧ ((tSleep.entered tHdr).sec.reqs.find? fun q => q.id == 1) = none ∧
      ((tNew tSleep).sec.reqs.find? fun q => q.id == 1).isSome = true) :=
  ⟨⟨ready_sleep _ _ (by decide), by decide +kernel⟩, by decide, by decide, ⟨ready_tAt _ _ _ (by decide) (by decide), by decide⟩, ⟨_, _, rfl⟩,
    ⟨ready_tAmend _ _ _ rfl, verdict_valid (by decide +kernel), verdict_valid (by decide +kernel), by decide +kernel, by decide +kernel, by decide +kernel,
      by decide +kernel, by decide +kernel, by decide +kernel⟩, by decide +kernel, ⟨ready_tAmend _ _ _ rfl, by decide +kernel⟩,
    ready_sleep _ _ (by decide), by decide⟩

/-- The staged image checked, the settings in force those it holds; in role `role`, its partner ready or not. -/
def tActive (role : Nat) (ready : Bool) : State := { tStaged .checked with
  conf := tConf
  cas := { tSleep.cas with pairRole := role, members := {} :: (if ready then tStandbyMem else {}) :: List.replicate 14 {} } }

theorem ready_tActive (r : Nat) (b : Bool) : Ready (tActive r b) tHdr 0x0043 2 tSess :=
  ready_at _ _ _ rfl rfl (by decide) (show (0 : Nat) ≠ 3 by decide)

/-- A firmware slot staged and checked. -/
def tFw : State := { tStaged .checked with cfg := { (tStaged .checked).cfg with stageTarget := 3 } }

/-- An empty image slot staged and checked. -/
def tNone : State := { tStaged .checked with flash := tSleep.flash }

theorem witness_Activation :
    (Ready (tActive 1 true) tHdr 0x0043 2 tSess ∧ 2 < 3 ∧ 2 ≤ 2) ∧
    (Ready (tStaged .opened) tHdr 0x0043 2 tSess ∧ (tStaged .opened).cfg.stage ≠ .checked ∧ (tActive 1 true).cfg.stage = .checked) ∧
    validate (tActive 1 true).vctx ((tActive 1 true).flash.img 1) = .ok { head := tImgHead, conf := tConf } ∧
    (∃ e, validate tNone.vctx (tNone.flash.img 1) = .error e) ∧
    ((tActive 1 true).isPair = true ∧ tConf.cascade.role = 3 ∧ fingerprint tConf = fingerprint (tActive 1 true).conf) ∧
    (tStaged .checked).isPair = false ∧ (tActive 2 true).cas.pairRole ≠ 1 ∧
    ((tActive 1 false).cas.pairRole = 1 ∧ (match switchAway (tActive 1 false) 0 with | .error _ => true | .ok _ => false) = true) ∧
    ((match switchAway (tActive 1 true) 0 with | .error _ => false | .ok _ => true) = true) ∧
    (Ready tFw tHdr 0x0043 2 tSess ∧ 2 ≤ tFw.cfg.stageTarget ∧ tFw.cfg.stage = .checked ∧ 1 ≠ 2) := by
  refine ⟨?a, ?b, ?c, ?d, ?e, ?f, ?g, ?h, ?i, ?j⟩
  case a => exact ⟨ready_tActive _ _, by decide⟩
  case b => exact ⟨ready_tStaged _ _ _ (by decide), by decide, by decide⟩
  case c =>
    rw [show (tActive 1 true).vctx = State.reset.vctx by decide +kernel,
      show (tActive 1 true).flash.img 1 = tImage by decide +kernel]
    exact validate_tImage
  case d => exact ⟨_, validate_empty _⟩
  case e => exact ⟨by decide +kernel, by decide +kernel, by rw [show (tActive 1 true).conf = tConf from by simp only [tActive]]⟩
  case f => decide
  case g => decide
  case h => decide +kernel
  case i => decide +kernel
  case j => exact ⟨ready_at _ _ _ rfl rfl (by decide) (show (0 : Nat) ≠ 3 by decide), by decide, by decide, by decide⟩

/-- With this place of the DRAM pass and these addresses skipped, history of one GiB; channel 0 in self-refresh or not. -/
def tScrub (pos : Nat) (skipped : List Nat) (asleep : Bool) : State := { tSleep with
  conf := { tSleep.conf with acq := { tSleep.conf.acq with histGib := 1 } }, bgw := { tSleep.bgw with dramPos := pos, dramSkipped := skipped }
  mem := { tSleep.mem with chans := List.replicate 8 { selfRef := asleep } } }

/-- With this many entries queued for the fault log, and entries dropped or not. -/
def tQueue (n : Nat) (d : Option (Nat × Nat)) : State := { tSleep with bgw := { tSleep.bgw with queue := List.replicate n tEntry, dropped := d, bucket := 0 } }

theorem witness_BackgroundWork :
    (tSleep.tim.counting = true ∧ tSleep.sec.restarting = false) ∧ State.reset.tim.counting = false ∧ tSleep.bgw.sramPos = 0 ∧
    (0 = 0 ∧ ¬ (63 = 0 ∧ 0 = 0 ∧ 0 = 0)) ∧ ((tScrub 0 [] false).mapEnd = 1610612736 ∧ State.reset.mapEnd ≠ 0) ∧
    ((({ tScrub 8 [0] false with bgw := (tScrub 8 [0] false).bgw } : State).bgw.dramSkipped.find? fun q => !(tScrub 8 [0] false).asleepAt q) = some 0) ∧
    ((tScrub 1610612736 [] false).bgw.dramSkipped.find? fun q => !(tScrub 1610612736 [] false).asleepAt q) = none ∧
    (tScrub 8 [] true).asleepAt 8 = true ∧ (tScrub 8 [] false).asleepAt 8 = false ∧ 8 < (tScrub 8 [] false).mapEnd ∧
    (64 ≤ 64 ∧ 63 < 64 ∧ ((tSleep.aos.sram).filter fun e => e.1 == 63).length < 4 ∧
      ¬ (((List.replicate 4 (63, 0)).filter fun e => e.1 == 63).length < 4)) ∧
    (tQueue 0 none).bgw.dropped = none ∧ (tQueue 255 (some (1, 0))).bgw.dropped = some (1, 0) ∧ (tQueue 255 (some (1, 0))).bgw.queue.length < 256 := by
  decide +kernel

theorem witness_NormRule : -2 ^ 47 ≤ (-2 ^ 47 : Int) ∧ (-2 ^ 47 : Int) < 2 ^ 47 ∧ -2 ^ 47 ≤ (2 ^ 47 - 1 : Int) ∧ norm48 (-2 ^ 47) = 0 ∧
    norm48 (2 ^ 47 - 1) = 0 ∧ (0 : Nat) < 47 ∧ -2 ^ 15 ≤ (-2 ^ 15 : Int) ∧ (2 ^ 15 - 1 : Int) < 2 ^ 15 ∧ norm16 0 = 15 := by decide
end

section
/-! SUPPORT. What a step does while no command waits (01 R17; 13 R278; log 1). -/

namespace Sys2Proof.Machine

/-! ### Segments that close -/

/-- A source without a segment has nothing to complete. -/
theorem closeSegment_of_no_segment {s : State} {n : Nat} (h : (s.acq.src n).seg = none) (t : Nat) : closeSegment s n t = s := by
  simp only [closeSegment, h]

/-- While no source holds a segment, the end of a cycle completes none. -/
theorem closeSegments_of_no_segment {s : State} (h : ∀ n, (s.acq.src n).seg = none) (t : Nat) : closeSegments s t = s := by
  simp only [closeSegments, closeSegment_of_no_segment (h _)]

/-! ### The step on an empty queue -/

/-- No command waits, so the module idles for the rest of the cycle. -/
theorem step_of_no_command {s : State} (h : s.pending = []) : step s = idle s := by
  simp only [step, h]

/-- While the tick counter runs, the cycle in progress ends and completes the segments that ended before it. -/
theorem idle_of_counting {s : State} (h : s.tim.counting = true) :
    idle s = .next (closeSegments { s with tim := { s.tim with tick := afterCycle s.tim.tick % 2 ^ 64 } } (afterCycle s.tim.tick)) := by
  simp only [idle, h, if_true]

/-- While the tick counter stands still, idling changes nothing. -/
theorem idle_of_not_counting {s : State} (h : s.tim.counting = false) : idle s = .next s := by
  simp only [idle, h, Bool.false_eq_true, if_false]

/-- Settles O2: a step on an empty queue is `idle`, in its two cases of the tick counter; the new tick index touches no source of
segments, so without a segment nothing is left to complete. -/
theorem idleStepCountsTicks : Obligations.IdleStepCountsTicks := by
  intro s hempty next t
  have hstep : step s = idle s := step_of_no_command hempty
  refine ⟨fun hcounting => ?counting, fun hstill => ?still⟩
  case counting =>
    have hclose : step s = .next (closeSegments t next) := hstep.trans (idle_of_counting hcounting)
    refine ⟨hclose, fun hnone => ?_⟩
    rw [hclose, closeSegments_of_no_segment (s := t) hnone]
  case still => exact hstep.trans (idle_of_not_counting hstill)

end Sys2Proof.Machine
end

section
/-! SUPPORT. The state after reset meets the rules of the laser chain, the lifecycle and the DRAM contents (02 R51; 20 R432, R435). -/

namespace Sys2Proof.Machine

/-- A dark laser chain that is not armed meets the rules, whatever the interlock, the image and the phase are, where no lifecycle
transition is pending backwards and the DRAM contents are canonical. -/
theorem Guard.ok_of_dark {g : Guard} (hld : g.ldEn = false) (hamp : g.ampEn = false) (hgate : g.gate = false)
    (hdts : g.gateDts = false) (harm : g.arm = .off) (hlife : ∀ l, g.lifePend = some l → g.fuses.lifecycle < l ∧ l ≤ 3)
    (hbound : g.fuses.lifecycle ≤ 3) (hdata : Memory.wf g.data = true) : g.Ok where
  idle _ _ := harm
  ld h := by simp [hld] at h
  amp h := by simp [hamp] at h
  gate h := by simp [hgate, hdts] at h
  lit _ h := by simp [harm] at h
  bright _ h := by simp [harm] at h
  live h := by simp [harm] at h
  life := hlife
  bound := hbound
  canon := hdata

/-- After reset the chain is dark and off, no lifecycle transition is pending, and no byte of DRAM is written. -/
theorem reset_safe : State.reset.safe :=
  Guard.ok_of_dark rfl rfl rfl rfl rfl (fun _ h => nomatch h) (Nat.zero_le 3) Memory.wf_empty

/-- Settles O6: the rules hold of the dark module, and its pads and queue are those the reset state names. -/
theorem resetMeetsRules : Obligations.ResetMeetsRules :=
  ⟨reset_safe, rfl, rfl, rfl, rfl, rfl⟩

end Sys2Proof.Machine
end

section
/-! SUPPORT. Every command, and so every step, keeps the rules of the laser chain, the lifecycle and the DRAM contents (02 R51 to R55;
14 R295; 18 R382). -/

namespace Sys2Proof.Machine

/-- A command that leaves what the rules speak of alone. -/
theorem done_of_guard {s u t : State} (e : s.done u = .next t) (h : u.guard = s.guard) : Keeps s t :=
  done_keeps (.of_guard h) e

/-- A command after which the end of the stop procedure and a pending activation are looked at. -/
theorem done_settled {s u t : State} (e : s.done u.settled = .next t) (k : Keeps s u) : Keeps s t :=
  done_keeps (k.trans (settled_keeps u)) e

/-- A host command whose effect keeps the rules. -/
theorem done_command1 {s t : State} {h : Hdr} {code role : Nat} {f : State → Session → State × Response}
    (e : s.done (s.command1 h code role f) = .next t) (k : ∀ s x, Keeps s (f s x).1) : Keeps s t :=
  done_keeps (State.command1_keeps s h code role f k) e

/-- A message of the ring whose reception leaves what the rules speak of alone. -/
theorem done_ringIn {s t : State} {h : RingHdr} {m : RingMsg} {f : State → State} (e : s.done (s.ringIn h m f) = .next t)
    (k : ∀ s, (f s).guard = s.guard) : Keeps s t :=
  done_of_guard e (State.ringIn_guard s h m f k)

theorem laserArmUnlessGolden_keeps (s : State) :
    Keeps s (if s.pwr.phase = .golden then (s, plain .denied) else laserArm s).1 := by
  split
  · exact Keeps.refl s
  · exact laserArm_keeps s

theorem closeUnder_if_guard (c : Bool) (slot : Nat) (s : State) :
    ((if c = true then closeUnder slot else id) s).guard = s.guard := by
  cases c
  · rfl
  · exact closeUnder_guard slot s

/-- A DRAM request completes only at an address that exists (14 R295). -/
theorem dramRequest_keeps {req : DramReq} {ecc : EccResult} {fill : Nat} {s t : State} (e : execDramRequest req ecc fill s = .next t) :
    Keeps s t := by
  unfold execDramRequest at e
  split at e
  · cases e
  · exact done_keeps (dramArrive_keeps _ _ _ _) e

/-- Seeding begins by a message of the active, or at its own start (21 R472). -/
theorem seedBegin_keeps {rh : Option RingHdr} {s t : State} (e : execSeedBegin rh s = .next t) : Keeps s t := by
  cases rh with
  | none => exact done_of_guard e (seedStart_guard s)
  | some h => exact done_ringIn e seedBegun_guard

/-- Every command keeps the rules and the fuses: each by the lemma of its operation. -/
theorem exec_keeps {c : Instr} {s t : State} (e : exec c s = .next t) : Keeps s t := by
  cases c with
  -- status map, session commands READ and WRITE (R400, R494 to R500)
  | read => exact done_command1 e fun _ _ => .of_guard (readCmd_guard ..)
  | write => exact done_command1 e fun _ _ => writeCmd_keeps _ _ _ _ _
  | rcFieldRead => exact done_command1 e fun _ _ => .of_guard (readCmd_guard ..)
  | latchedGroupRead => exact done_command1 e fun _ _ => .of_guard (readCmd_guard ..)
  | w1cWrite => exact done_command1 e fun _ _ => writeCmd_keeps _ _ _ _ _
  | intEnableWrite => exact done_command1 e fun _ _ => writeCmd_keeps _ _ _ _ _
  | hkRdWrite => exact done_command1 e fun _ _ => writeCmd_keeps _ _ _ _ _
  | logSelWrite => exact done_command1 e fun _ _ => writeCmd_keeps _ _ _ _ _
  | gpioOutWrite => exact done_command1 e fun _ _ => writeCmd_keeps _ _ _ _ _
  | pwrPadfuseWrite => exact done_command1 e fun _ _ => padfuseWrite_keeps _ _ _
  | blkrstReceiver => exact done_command1 e fun _ _ => .of_guard (blkrstWrite_guard ..)
  | blkrstTiller => exact done_command1 e fun _ _ => .of_guard (blkrstWrite_guard ..)
  | blkrstZone => exact done_command1 e fun _ _ => .of_guard (blkrstWrite_guard ..)
  | blkrstHousekeeping => exact done_command1 e fun _ _ => .of_guard (blkrstWrite_guard ..)
  | blkrstDone => exact done_of_guard e (blkrstDone_guard ..)
  -- session commands (R400)
  | amend => exact done_of_guard e (State.command_guard _ _ _ _ _ fun _ _ => amendPart_guard ..)
  | amendStatus => exact done_command1 e fun _ _ => Keeps.refl _
  | acqStart => exact done_command1 e fun _ _ => acqStartCmd_keeps _
  | acqStop => exact done_command1 e fun _ _ => acqStopCmd_keeps _
  | sleep => exact done_command1 e fun _ _ => sleepCmd_keeps _
  | standby => exact done_command1 e fun _ _ => .of_guard (standbyCmd_guard ..)
  | standbyEntry => exact done_keeps (standbyEntry_keeps _) e
  | laserArm => exact done_command1 e fun _ _ => laserArmUnlessGolden_keeps _
  | sync => exact done_command1 e fun _ _ => .of_guard (syncCmd_guard ..)
  | retrain => exact done_command1 e fun _ _ => .of_guard (retrainCmd_guard ..)
  | qsRef => exact done_command1 e fun _ _ => .of_guard (qsRefCmd_guard ..)
  | bankSwap => exact done_command1 e fun _ _ => .of_guard (bankSwapCmd_guard ..)
  | record => exact done_command1 e fun _ _ => .of_guard (recordCmd_guard ..)
  | recList => exact done_command1 e fun _ _ => .of_guard (recListCmd_guard ..)
  | recLock => exact done_command1 e fun _ _ => .of_guard (recLockCmd_guard ..)
  | recUnlock => exact done_command1 e fun _ _ => .of_guard (recLockCmd_guard ..)
  | recDelete => exact done_command1 e fun _ _ => .of_guard (recDeleteCmd_guard ..)
  | recSend => exact done_command1 e fun _ _ => .of_guard (recSendCmd_guard ..)
  | rawArm => exact done_command1 e fun _ _ => .of_guard (rawArmCmd_guard ..)
  | rawRelease => exact done_command1 e fun _ _ => .of_guard (rawReleaseCmd_guard ..)
  | timeSet => exact done_command1 e fun _ _ => .of_guard (timeSetCmd_guard ..)
  | stageBegin => exact done_command1 e fun _ _ => .of_guard (stageBegin_guard ..)
  | stageEraseDone => exact done_of_guard e (stageErased_guard ..)
  | stageWrite => exact done_command1 e fun _ _ => .of_guard (stageWrite_guard ..)
  | stageCheck => exact done_command1 e fun _ _ => .of_guard (stageCheck_guard ..)
  | activate => exact done_keeps (State.commandThen_keeps _ _ _ _ _ (fun _ _ => activateCmd_keeps _ _) fun _ _ _ => followUp_keeps _ _) e
  | attest => exact done_command1 e fun _ _ => .of_guard (attestCmd_guard ..)
  | certRead => exact done_command1 e fun _ _ => .of_guard (certRead_guard ..)
  | streamKey => exact done_command1 e fun _ _ => .of_guard (streamKeyCmd_guard ..)
  | streamRekey => exact done_command1 e fun _ _ => .of_guard (streamRekey_guard ..)
  | credSalt => exact done_command1 e fun _ _ => .of_guard (credSalt_guard ..)
  | credSet => exact done_of_guard e (State.commandThen_guard _ _ _ _ _ (fun _ _ => credSet_guard ..) fun _ _ _ => closeUnder_if_guard ..)
  | credClear => exact done_of_guard e (State.commandThen_guard _ _ _ _ _ (fun _ _ => credClear_guard ..) fun _ _ _ => closeUnder_if_guard ..)
  | keyFuse => exact done_command1 e fun _ _ => keyFuse_keeps _ _ _
  | keyRevoke => exact done_command1 e fun _ _ => keyRevoke_keeps _ _ _ _ _
  | lifecycle => exact done_command1 e fun _ _ => lifecycleCmd_keeps _ _ _
  | lifecycleFuseWrite => exact done_keeps (lifecycleWrite_keeps _) e
  | mgmtRestart => exact done_of_guard e (State.commandThen_guard _ _ _ _ _ (fun _ _ => rfl) fun _ _ => mgmtRestart_guard)
  | mgmtResume => exact done_of_guard e (mgmtResume_guard ..)
  | pairSwitch => exact done_command1 e fun _ _ => .of_guard (pairSwitch_guard ..)
  | close => exact done_of_guard e (State.commandThen_guard _ _ _ _ _ (fun _ _ => rfl) fun _ _ _ => State.closeSession_guard ..)
  -- handshake and sessions (R391 to R399)
  | hello => exact done_of_guard e (hello_guard ..)
  | proof => exact done_of_guard e (proofIn_guard ..)
  | mgmtTagFail => exact done_of_guard e (tagFail_guard ..)
  | spiResponseFetch => exact done_of_guard e (spiFetch_guard ..)
  | proofTimeout => exact done_of_guard e (proofTimeout_guard ..)
  | credentialLockEnd => exact done_of_guard e (lockEnd_guard ..)
  | sessionTimeout => exact done_of_guard e (sessionTimeoutEv_guard ..)
  -- power, reset and start-up (R425 to R447)
  | mainPowerOn => exact done_keeps (mainPowerOn_keeps _) e
  | vaoMonitorAssert => exact done_keeps (vaoAssert_keeps _) e
  | vaoMonitorRelease => exact done_of_guard e (vaoRelease_guard ..)
  | vrstAssert => exact done_keeps (vrstAssert_keeps _ _ _ _) e
  | vrstRelease => exact done_keeps (vrstRelease_keeps _) e
  | feedLost => exact done_of_guard e (feedLost_guard ..)
  | feedRestored => exact done_of_guard e (feedRestored_guard ..)
  | vwarnAssert => exact done_of_guard e (vwarnAssert_guard ..)
  | vwarnRelease => exact done_of_guard e (vwarnRelease_guard ..)
  | rstNLow => exact done_keeps (rstLow_keeps _) e
  | rstNRelease => exact done_of_guard e (rstRelease_guard ..)
  | wakeInEdge => exact done_keeps (wakeEdge_keeps _ _ _) e
  | wakeTimerExpiry => exact done_keeps (wakeTimer_keeps _ _) e
  | railsGood => exact done_keeps (railsGood_keeps _) e
  | systemPllLock => exact done_keeps (pllLock_keeps _ _) e
  | mgmtCoreStart => exact done_keeps (coreStart_keeps _ _) e
  | imageValidated => exact done_keeps (imageStep_keeps _) e
  | dramCheckDone => exact done_keeps (dramCheck_keeps _ _ _) e
  | startupStep6Done => exact done_keeps (step6Done_keeps _ _) e
  -- laser chain and launch schedule (R39 to R61)
  | ilkNLow => exact done_keeps (ilkLow_keeps _) e
  | ilkQualified => exact done_keeps (ilkQualify_keeps _) e
  | ldAmpDelayEnd => exact done_keeps (ampOn_keeps _) e
  | ampSettleEnd => exact done_keeps (ampSettleEnd_keeps _) e
  | floorSegmentEnd => exact done_of_guard e (floorSegment_guard ..)
  | initialCalDone => exact done_of_guard e (initialCalDone_guard ..)
  | launchPosition => exact done_settled e (launchPosition_keeps _ _)
  | tracePeriodBoundary => exact done_settled e (boundary_keeps _)
  | shadowTablesReady => exact done_of_guard e (tablesReady_guard ..)
  | launchMonEdge => exact done_of_guard e (launchMonEdge_guard ..)
  | lmonWindowEnd => exact done_of_guard e (lmonWindowEnd_guard ..)
  -- receiver and converters (R71 to R101)
  | rangeFrameEnd => exact done_of_guard e (frameEnd_guard ..)
  | rangeSwitch => exact done_of_guard e (rangeSwitch_guard ..)
  | loPowerUpdate => exact done_of_guard e (loUpdate_guard ..)
  | rotationBoundary => exact done_of_guard e (rotation_guard ..)
  | calCommit => exact done_of_guard e (calCommit_guard ..)
  | sliceSelfTestDone => exact done_of_guard e (sliceTestEnd_guard ..)
  | monitorWindowEnd => exact done_of_guard e (monitorEnd_guard ..)
  -- tillers (R113 to R121)
  | tillerTake => exact done_settled e (.of_guard (tillerTake_guard ..))
  | sheafCommit => exact done_settled e (.of_guard ((dropShots_guard _).trans (commitSheaf_guard ..)))
  | sheafAbort => exact done_settled e (.of_guard (abortSheaf_guard ..))
  | sheafOverrun => exact done_settled e (.of_guard (abortSheaf_guard ..))
  | tillerKatDone => exact done_settled e (.of_guard (katDone_guard ..))
  | winnowRelease => exact done_settled e (.of_guard (winnowRelease_guard ..))
  | releaseDeadline => exact done_settled e (.of_guard (releaseDeadline_guard ..))
  | sheafAbandon => exact done_settled e (.of_guard (abandon_guard ..))
  -- decimation, Raman, zones, records (R193 to R289)
  | syncPadEdge => exact done_of_guard e (syncPad_guard ..)
  | dtsAverageEnd => exact done_of_guard e (dtsAverageEnd_guard ..)
  | dtsPartnerTimeout => exact done_of_guard e (dtsTimeout_guard ..)
  | zoneIntervalDecision => exact done_of_guard e (zoneInterval_guard ..)
  | trigOutPulseEnd => exact done_of_guard e (trigOutEnd_guard ..)
  | trigInEdge => exact done_of_guard e (trigIn_guard ..)
  | recordRowCopy => exact done_of_guard e (rowCopy_guard ..)
  | holdOffEnd => exact done_of_guard e (holdEnd_guard ..)
  | rawFrameWrite => exact done_of_guard e (rawFrame_guard ..)
  -- DRAM controller (R302 to R312)
  | dramRequest => exact dramRequest_keeps e
  | requestPromotion => exact done_keeps (promote_keeps _ _ _) e
  | refreshDue => exact done_of_guard e (refreshDue_guard ..)
  | mr4Read => exact done_of_guard e (mr4Read_guard ..)
  | selfRefreshEntry => exact done_of_guard e (enterSelfRef_guard ..)
  | selfRefreshExit => exact done_keeps (leaveSelfRef_keeps _ _) e
  | rowTestDone => exact done_keeps (rowTestEnd_keeps _ _ _ _ _ _) e
  -- time base and TDC (R342 to R356)
  | refQualified => exact done_of_guard e (setRef_guard ..)
  | refDisqualified => exact done_of_guard e (setRef_guard ..)
  | ppsEdge => exact done_of_guard e (pps_guard ..)
  | ppsLost => exact done_of_guard e (ppsLoss_guard ..)
  | todSentence => exact done_of_guard e (todReceive_guard ..)
  | rateSegmentStart => exact done_of_guard e (rateStart_guard ..)
  | todTxSend => exact done_of_guard e (todSend_guard ..)
  | tdc3Edge => exact done_of_guard e (tdc3_guard ..)
  | tdcCalDone => exact done_of_guard e (tdcCal_guard ..)
  | tdcSelfTestDone => exact done_of_guard e (tdcSelfTest_guard ..)
  -- housekeeping (R363 to R377)
  | hkScanStart => exact done_of_guard e (hkScan_guard ..)
  | hkConversion => exact done_of_guard e (hkConvert_guard ..)
  | rtdConversionEnd => exact done_of_guard e (rtdEnd_guard ..)
  | rtdBreak => exact done_of_guard e (rtdSeeBreak_guard ..)
  -- ports and streams (R317 to R338)
  | linkUp => exact done_of_guard e (portUp_guard ..)
  | linkDown => exact done_settled e (.of_guard (portDown_guard ..))
  | arpFrame => exact done_of_guard e (arpIn_guard ..)
  | arpRequestTimer => exact done_settled e (.of_guard (arpTimer_guard ..))
  | icmpEcho => exact done_of_guard e (icmpIn_guard ..)
  | rxFrameDiscard => exact done_of_guard e (rxDiscard_guard ..)
  | dasUnitForm => exact done_of_guard e (dasForm_guard ..)
  | rowUnitForm => exact done_of_guard e (rowForm_guard ..)
  | eventFrameForm => exact done_of_guard e (eventForm_guard ..)
  | hkBatchForm => exact done_of_guard e (hkForm_guard ..)
  | telemetry => exact done_of_guard e (telemetryRun_guard ..)
  | heartbeatFrame => exact done_settled e (.of_guard (heartbeat_guard ..))
  | frameTransmit => exact done_settled e (.of_guard (transmit_guard ..))
  -- FAULT_N, survey, GPIO (R443 to R447, R410, R505)
  | faultPulseEnd => exact done_of_guard e rfl
  | surveyAcqEnd => exact done_keeps (surveyAcqEnd_keeps _) e
  | surveyDrainEnd => exact done_keeps (surveyDrainEnd_keeps _) e
  | gpioEdge => exact done_of_guard e (gpioChange_guard ..)
  | gpioPpsPulse => exact done_of_guard e (ppsPulse_guard ..)
  | gpioPpsPulseEnd => exact done_of_guard e (ppsPulseEnd_guard ..)
  -- Dzirak ring and pair (R449 to R474)
  | dzirakLinkUp => exact done_of_guard e (linkComesUp_guard ..)
  | laneCrcExcess => exact done_of_guard e (laneExcess_guard ..)
  | laneBistDone => exact done_of_guard e (bistDone_guard ..)
  | heartbeat => exact done_ringIn e fun _ => beatReceived_guard ..
  | heartbeatSend => exact done_settled e (.of_guard (beatSend_guard ..))
  | memberLost => exact done_of_guard e (memberLost_guard ..)
  | joinReq => exact done_ringIn e fun _ => joinAsked_guard ..
  | joinAck => exact done_ringIn e fun _ => joinAcked_guard ..
  | joinRefuse => exact done_ringIn e fun _ => joinRefused_guard ..
  | joinRetry => exact done_of_guard e (joinAgain_guard ..)
  | timeSend => exact done_of_guard e (timeSend_guard ..)
  | time => exact done_ringIn e fun _ => timeTake_guard ..
  | slew => exact done_ringIn e fun _ => slewTake_guard ..
  | slewTimeout => exact done_of_guard e (slewOver_guard ..)
  | state => exact done_ringIn e fun _ => stateTake_guard ..
  | syncIdx => exact done_ringIn e fun _ => syncIdxTake_guard ..
  | amendProp => exact done_ringIn e fun _ => propTake_guard ..
  | amendVote => exact done_ringIn e fun _ => voteTake_guard ..
  | amendVoteTimeout => exact done_of_guard e (voteTimeout_guard ..)
  | amendCommit => exact done_ringIn e fun _ => commitTake_guard ..
  | seedBegin => exact seedBegin_keeps e
  | seedChunkReady => exact done_of_guard e (chunkSend_guard ..)
  | seedChunk => exact done_ringIn e fun _ => chunkTake_guard ..
  | seedCommit => exact done_ringIn e fun _ => seedCommitted_guard ..
  | seedEnd => exact done_ringIn e fun _ => seedEnded_guard ..
  | reseedTimer => exact done_of_guard e (reseed_guard ..)
  | release => exact done_ringIn e fun _ => releaseTake_guard ..
  | takeReq => exact done_ringIn e fun _ => takeAsked_guard ..
  | dtsTrace => exact done_ringIn e fun _ => dtsPartner_guard ..
  | arbGrantChange => exact done_settled e (.of_guard (grantChange_guard ..))
  | arbHbLost => exact done_of_guard e (arbLost_guard ..)
  | soakEnd => exact done_of_guard e (soakOver_guard ..)
  -- background work (R478 to R490)
  | sramScrub => exact done_of_guard e (sramScrub_guard ..)
  | dramScrub => exact done_keeps (dramScrub_keeps _ _) e
  | tiaTrim => exact done_of_guard e (tiaTrim_guard ..)
  | tdcCheck => exact done_of_guard e (tdcCheck_guard ..)
  | sramRowTestDone => exact done_of_guard e (sramRowTest_guard ..)
  | flash => exact done_of_guard e (flashRun_guard ..)
  | floorMeasurementStart => exact done_of_guard e (floorStart_guard ..)
  | syncEdgeInstant => exact done_ringIn e fun _ => syncInstant_guard ..

/-- A cycle without a command ends segments and moves the tick index, which the rules do not speak of. -/
theorem idle_keeps {s t : State} (e : idle s = .next t) : Keeps s t := by
  cases hc : s.tim.counting with
  | false =>
    cases (idle_of_not_counting hc).symm.trans e
    exact Keeps.refl s
  | true =>
    cases (idle_of_counting hc).symm.trans e
    exact Keeps.of_guard (closeSegments_guard _ _)

/-- Every step keeps the rules and the fuses: taking a command off the queue does, and so does what runs then. -/
theorem step_keeps {s t : State} (e : step s = .next t) : Keeps s t := by
  unfold step at e
  cases hq : s.pending with
  | nil =>
    rw [hq] at e
    exact idle_keeps e
  | cons c rest =>
    rw [hq] at e
    have hpop : Keeps s { s with pending := rest } := Keeps.of_guard rfl
    exact hpop.trans (exec_keeps e)

/-- Settles O7: a step keeps the rules, as every operation it is made of does. -/
theorem rulesKeptByEveryStep : Obligations.RulesKeptByEveryStep := by
  intro s t hsafe hstep
  obtain ⟨hrules, -⟩ := step_keeps hstep hsafe
  exact hrules

end Sys2Proof.Machine
end

section
/-! SUPPORT. The interlock and the arming sequence (02 R41, R51 to R55, R520). -/

namespace Sys2Proof.Machine

/-! ### The interlock (02 R52, R53) -/

/-- While ILK_N is not qualified a low changes the pad level alone. -/
theorem ilkLow_of_unqualified {s : State} (h : s.prb.ilkOk = false) : ilkLow s = { s with pads := { s.pads with ilkN := false } } := by
  simp [ilkLow, h]

/-- What the arming becomes at a trip: nothing armed stays off, and without emission the timing goes on. -/
theorem armTripped_eq (s : State) : armTripped s =
    if s.emits = false ∨ s.prb.arm = .off then s.prb.arm else if s.conf.laser.autoResume = 1 then .waitIlk else .tripped := by
  unfold armTripped
  cases s.emits with
  | false => simp
  | true => cases s.prb.arm <;> simp

/-- A trip: the pads fall, the arming is as `armTripped` says, and the trip is logged with the last launch. -/
theorem ilkLow_of_qualified {s : State} (h : s.prb.ilkOk = true) : ilkLow s =
    ({ s with
        pads := { s.pads.dark with ilkN := false }
        rxf := s.rxf.suspend
        prb := { s.prb with
          ilkOk := false, ilkTripped := true, launching := false, arm := armTripped s, rearm := s.prb.epoch.isSome
          int := s.prb.int.raise 0 } } : State).log 0x0201 0 0 (leBytes 8 s.prb.lastLaunch) := by
  simp [ilkLow, h]

/-- ILK_N qualified: the state before an arming that waits goes on. -/
def State.ilkGood (s : State) : State := { s with
  pads := { s.pads with ilkN := true }
  prb := { s.prb with ilkOk := true, ilkTripped := false, int := s.prb.int.raiseIf s.prb.ilkTripped 1 } }

/-- A qualified interlock, and one before the first configured state, does not qualify again. -/
theorem ilkQualify_of_not_due {s : State} (h : s.prb.ilkOk = true ∨ s.mode = 0) : ilkQualify s = s := by
  rcases h with h | h <;> simp [ilkQualify, State.isConfigured, h]

/-- From the first configured state on ILK_N qualifies, and an arming that waits goes on. -/
theorem ilkQualify_of_due {s : State} (h : s.prb.ilkOk = false) (hm : s.mode ≠ 0) :
    ilkQualify s = if s.prb.arm = .waitIlk then armStart s.ilkGood s.prb.rearm else s.ilkGood := by
  simp [ilkQualify, State.isConfigured, State.ilkGood, h, hm]

/-- Arming with ILK_N qualified goes to its step 2, with LD_EN high where emission is permitted; the floor is measured again. -/
theorem armStart_of_qualified {s : State} (h : s.prb.ilkOk = true) (again : Bool) : armStart s again = { s with
    pads := { s.pads with ldEn := s.emits || s.pads.ldEn }
    rxf := { s.rxf with floorValid := false }
    prb := { s.prb with arm := .ampDelay, rearm := again } } := by
  have hemits : ({ s with rxf := { s.rxf with floorValid := false } } : State).emits = s.emits := rfl
  unfold armStart
  cases he : s.emits <;> simp [hemits, he, h]

/-! ### The arming sequence (02 R41, R54, R520) -/

theorem ampOn_of_delay {s : State} (h : s.prb.arm = .ampDelay) : ampOn s =
    { s with prb := { s.prb with arm := .settle, settleFrom := s.tim.tick }, pads := { s.pads with ampEn := s.emits } } := by
  simp [ampOn, h]

theorem ampOn_of_not_delay {s : State} (h : s.prb.arm ≠ .ampDelay) : ampOn s = s := by simp [ampOn, h]

theorem ampSettleEnd_of_settle {s : State} (h : s.prb.arm = .settle) : ampSettleEnd s = setEpoch (settleEnd s) := by
  simp [ampSettleEnd, h]

theorem ampSettleEnd_of_not_settle {s : State} (h : s.prb.arm ≠ .settle) : ampSettleEnd s = s := by simp [ampSettleEnd, h]

/-- The arming past its step 3: it waits for the first launch, or is off where emission is not permitted. -/
def State.pastSettle (s : State) : State := { s with prb := { s.prb with arm := if s.emits then .waitLaunch else .off } }

/-- With an epoch, or no STATE of a master seen, the end of AMP_SETTLE changes the arming alone. -/
theorem settleEnd_of_own_schedule {s : State} (h : s.prb.arm = .settle) (he : s.prb.epoch.isSome ∨ s.cas.stateSeen = none) :
    settleEnd s = s.pastSettle := by
  unfold settleEnd State.pastSettle
  rcases he with he | he <;> simp [h, he]

theorem setEpoch_of_set {s : State} (h : s.prb.epoch.isSome) : setEpoch s = s := by simp [setEpoch, h]

/-- The ticks of the next multiple of 16. -/
theorem alignUp_16 (t : Nat) : alignUp t 16 = (t + 15) / 16 * 16 := by simp [alignUp, ceilDiv]

/-- Outside a joined cascade the first epoch is the next multiple of 16, and the schedule starts there at index 0. -/
theorem setEpoch_of_unset {s : State} (h : s.prb.epoch = none) (hc : s.conf.cascade.role = 0 ∨ s.cas.joined = false) :
    setEpoch s = { s with prb := { s.prb with
      epoch := some ((s.tim.tick + 15) / 16 * 16), m := 0, nextR := 0, j := 0, boundaryDone := false
      segs := [{ r0 := 0, m0 := 0, s := s.conf.probe.slots }] } } := by
  rw [← alignUp_16]
  rcases hc with hc | hc <;> simp [setEpoch, h, hc]

/-! ### LASER_ARM (02 R55) -/

theorem laserArm_of_dark {s : State} (h : s.emits = false) : laserArm s = (s, plain .denied) := by simp [laserArm, h]

theorem laserArm_of_tripped {s : State} (h : s.emits = true) (ht : s.prb.arm = .tripped) (ha : s.acquiring = true) :
    laserArm s = (armStart s s.prb.epoch.isSome, plain .deferred) := by simp [laserArm, h, ht, ha]

theorem laserArm_of_not_tripped {s : State} (h : s.emits = true) (ht : ¬ (s.prb.arm = .tripped ∧ s.acquiring = true)) :
    laserArm s = (s, plain .ok) := by
  unfold laserArm
  rw [if_neg (by simp [h]), if_neg ht]

/-- MODE 2 is the phase of acquisition. -/
theorem State.acquiring_iff (s : State) : s.acquiring = true ↔ s.pwr.phase = .acquisition := by
  unfold State.acquiring State.mode
  cases s.pwr.phase <;> decide

/-- The operation of LASER_ARM with the golden image running, and else. -/
def laserArmCmd (s : State) : State × Response := if s.pwr.phase = .golden then (s, plain .denied) else laserArm s

/-- LASER_ARM is a command that answers at once. -/
theorem exec_laserArm (h : Hdr) (s : State) : exec (.laserArm h) s = s.done (s.command1 h 0x0014 1 fun s _ => laserArmCmd s) := rfl

@[simp] theorem State.entered_emits (s : State) (h : Hdr) : (s.entered h).emits = s.emits := by simp [State.emits]

@[simp] theorem State.entered_acquiring (s : State) (h : Hdr) : (s.entered h).acquiring = s.acquiring := by
  simp [State.acquiring, State.mode]

section
variable {s : State} {h : Hdr} {x : Session}

theorem laserArm_leaves_denied (hr : Ready s h 0x0014 1 x) (hd : s.pwr.phase = .golden ∨ s.emits = false) :
    Leaves (.laserArm h) s ((s.entered h).answer h.sid h.seq (plain .denied)) := by
  refine command1_leaves hr (fun s _ => laserArmCmd s) (exec_laserArm h s) ?_
  by_cases hg : s.pwr.phase = .golden
  · simp [laserArmCmd, hg]
  · have he : (s.entered h).emits = false := by simpa using hd.resolve_left hg
    simp [laserArmCmd, hg, laserArm_of_dark he]

theorem laserArm_leaves_deferred (hr : Ready s h 0x0014 1 x) (hp : s.pwr.phase = .acquisition) (he : s.emits = true)
    (ht : s.prb.arm = .tripped) :
    Leaves (.laserArm h) s ((armStart (s.entered h) s.prb.epoch.isSome).answer h.sid h.seq (plain .deferred)) := by
  refine command1_leaves hr (fun s _ => laserArmCmd s) (exec_laserArm h s) ?_
  have ha : (s.entered h).acquiring = true := (State.acquiring_iff _).mpr (by simpa using hp)
  have harm := laserArm_of_tripped (s := s.entered h) (by simpa using he) (by simpa using ht) ha
  simpa [laserArmCmd, hp] using harm

theorem laserArm_leaves_ok (hr : Ready s h 0x0014 1 x) (hg : s.pwr.phase ≠ .golden) (he : s.emits = true)
    (hn : s.pwr.phase ≠ .acquisition ∨ s.prb.arm ≠ .tripped) :
    Leaves (.laserArm h) s ((s.entered h).answer h.sid h.seq (plain .ok)) := by
  refine command1_leaves hr (fun s _ => laserArmCmd s) (exec_laserArm h s) ?_
  have ht : ¬ ((s.entered h).prb.arm = .tripped ∧ (s.entered h).acquiring = true) := by
    rintro ⟨ht, ha⟩
    exact hn.elim (· (by simpa using (State.acquiring_iff _).mp ha)) (· (by simpa using ht))
  simpa [laserArmCmd, hg] using laserArm_of_not_tripped (s := s.entered h) (by simpa using he) ht

end

/-! ### The statement -/

/-- Settles O22: each event by the equation of its operation in its case; LASER_ARM by its three answers. -/
theorem laserArming : Obligations.LaserArming := by
  refine ⟨fun s => ⟨fun hq => ?trip, rfl, rfl, rfl, rfl, fun hq => ?low, fun hn => ?idle, fun hq hm => ⟨fun ha => ?good, fun ha => ?start⟩,
    fun ha => ?delay, fun ha => ?noDelay, fun ha he hc hst => ?first, fun ha he => ?again, fun ha => ?settle, fun ha => ?noSettle⟩,
    fun s h x hr => ⟨laserArm_leaves_denied hr, laserArm_leaves_deferred hr, laserArm_leaves_ok hr⟩⟩
  case trip => exact leaves_of_eq (by rw [ilkLow_of_qualified hq, armTripped_eq]) rfl
  case low => exact leaves_of_eq (ilkLow_of_unqualified hq) rfl
  case idle => exact leaves_of_eq (ilkQualify_of_not_due hn) rfl
  case good => exact leaves_of_eq ((ilkQualify_of_due hq hm).trans (if_neg ha)) rfl
  case start =>
    have hstart : ilkQualify s = armStart s.ilkGood s.prb.rearm := (ilkQualify_of_due hq hm).trans (if_pos ha)
    exact leaves_of_eq (hstart.trans (armStart_of_qualified rfl _)) rfl
  case delay => exact leaves_of_eq (ampOn_of_delay ha) rfl
  case noDelay => exact leaves_of_eq (ampOn_of_not_delay ha) rfl
  case first =>
    have harm : ampSettleEnd s = setEpoch s.pastSettle := by
      rw [ampSettleEnd_of_settle ha, settleEnd_of_own_schedule ha (.inr hst)]
    exact leaves_of_eq (harm.trans (setEpoch_of_unset he hc)) rfl
  case again =>
    have harm : ampSettleEnd s = setEpoch s.pastSettle := by
      rw [ampSettleEnd_of_settle ha, settleEnd_of_own_schedule ha (.inl he)]
    exact leaves_of_eq (harm.trans (setEpoch_of_set he)) rfl
  case settle => exact leaves_of_eq (ampSettleEnd_of_settle ha) rfl
  case noSettle => exact leaves_of_eq (ampSettleEnd_of_not_settle ha) rfl

end Sys2Proof.Machine
end

section
/-! SUPPORT. The launch monitor and the shadow tables (02 R46, R59; 16 R355). -/

namespace Sys2Proof.Machine

/-! ### A valid measurement (02 R46) -/

/-- The drift a list of measurements shows against LMON_REF. -/
def State.driftOf (s : State) (l : List Nat) : Int := lmonMean l - s.conf.probe.lmonRef

/-- The last 16 measurements with `d` among them. -/
def State.lastWith (s : State) (d : Nat) : List Nat := (d :: s.prb.lmonSet).take 16

/-- What every valid measurement sets: D, no run of misses, the window closed. -/
def Prb.measured (p : Prb) (d : Nat) : Prb := { p with lmonD := d, lmonMissRun := 0, lmonOpen := false }

/-- The run of good measurements of a frozen correction after `d`: longer by it, or ended where it is out of range. -/
def State.goodWith (s : State) (d : Nat) : List Nat :=
  if within ((d : Int) - s.conf.probe.lmonRef) lmonLimit then d :: s.prb.lmonGood else []

theorem State.goodWith_of_near {s : State} {d : Nat} (h : within ((d : Int) - s.conf.probe.lmonRef) lmonLimit = true) :
    s.goodWith d = d :: s.prb.lmonGood := if_pos h

theorem State.goodWith_of_far {s : State} {d : Nat} (h : within ((d : Int) - s.conf.probe.lmonRef) lmonLimit = false) :
    s.goodWith d = [] := if_neg (by simp [h])

/-- PRB after a measurement while unfrozen: it joins the last 16 and gives the drift, or freezes the correction with LMON_RANGE. -/
def State.measuredUnfrozen (s : State) (d : Nat) : Prb :=
  if within (s.driftOf (s.lastWith d)) lmonLimit then
    { s.prb.measured d with lmonSet := s.lastWith d, lmonDrift := s.driftOf (s.lastWith d) }
  else { s.prb.measured d with lmonFrozen := true, lmonGood := [], int := s.prb.int.raise 6 }

/-- PRB after a measurement while frozen: the 16th good one in a row resumes with these as the last 16; before it the run is kept. -/
def State.measuredFrozen (s : State) (d : Nat) : Prb :=
  if 16 ≤ (s.goodWith d).length then
    { s.prb.measured d with
      lmonFrozen := false, lmonGood := [], lmonSet := (s.goodWith d).take 16, lmonDrift := s.driftOf ((s.goodWith d).take 16) }
  else { s.prb.measured d with lmonGood := s.goodWith d }

theorem lmonMeasure_of_unfrozen {s : State} (hf : s.prb.lmonFrozen = false) (d : Nat) :
    lmonMeasure s d = { s with prb := s.measuredUnfrozen d } := by
  unfold lmonMeasure State.measuredUnfrozen State.driftOf State.lastWith
  dsimp only
  rw [if_neg (c := s.prb.lmonFrozen = true) (by simp [hf])]
  split <;> rfl

theorem lmonMeasure_of_frozen {s : State} (hf : s.prb.lmonFrozen = true) (d : Nat) :
    lmonMeasure s d = { s with prb := s.measuredFrozen d } := by
  unfold lmonMeasure State.measuredFrozen
  dsimp only
  rw [if_pos (c := s.prb.lmonFrozen = true) hf]
  change (if 16 ≤ (s.goodWith d).length then _ else _) = _
  split <;> rfl

/-- Every valid measurement is the period's D, ends a run of misses and closes the window. -/
theorem lmonMeasure_always (s : State) (d : Nat) :
    (lmonMeasure s d).prb.lmonD = d ∧ (lmonMeasure s d).prb.lmonMissRun = 0 ∧ (lmonMeasure s d).prb.lmonOpen = false := by
  cases hf : s.prb.lmonFrozen with
  | false =>
    rw [lmonMeasure_of_unfrozen hf]
    unfold State.measuredUnfrozen
    split <;> exact ⟨rfl, rfl, rfl⟩
  | true =>
    rw [lmonMeasure_of_frozen hf]
    unfold State.measuredFrozen
    split <;> exact ⟨rfl, rfl, rfl⟩

/-! ### The edge, the window's end, the shadow tables (02 R46, R59) -/

theorem launchMonEdge_of_closed {s : State} (h : s.prb.lmonOpen = false) (m : TdcIn) : launchMonEdge s m = s := by
  simp [launchMonEdge, h]

theorem lmonWindowEnd_of_closed {s : State} (h : s.prb.lmonOpen = false) : lmonWindowEnd s = s := by
  simp [lmonWindowEnd, h]

/-- D of an edge measured with coarse count c and vernier fraction f, for a launch at tick x (02 R46; log 12). -/
def lmonDelay (x c : Nat) (f : Int × Nat) : Int :=
  if f.2 = 0 then 0 else roundDiv (((c : Int) * 4000 + (16 - (x % 16 : Nat)) * 250) * f.2 - f.1) f.2

/-- What an edge that the channel took as `e` does to an open window. -/
def State.edgeInWindow (s : State) : TdcEdge → State
  | .measured _ f c =>
    if c < 2 ^ 28 ∧ 0 ≤ lmonDelay s.prb.lmonTick c f ∧ lmonDelay s.prb.lmonTick c f ≤ 4095 * 250 then
      lmonMeasure s (lmonDelay s.prb.lmonTick c f).toNat
    else s
  | .coarse _ =>
    if s.tim.tick ≤ s.prb.lmonTick + 4095 then
      { s with prb := { s.prb with lmonOpen := false, lmonMissRun := 0, lmonGood := [] } }
    else s
  | .skipped => s

/-- An edge in an open window goes to TDC channel 0 first. -/
theorem launchMonEdge_of_open {s : State} (ho : s.prb.lmonOpen = true) (m : TdcIn) :
    launchMonEdge s m = (s.tdcEdge 0 m).1.edgeInWindow (s.tdcEdge 0 m).2 := by
  unfold launchMonEdge
  rw [if_neg (by simp [ho])]
  dsimp only
  cases (s.tdcEdge 0 m).2 <;> rfl

/-- The end of the window is a miss; the 16th in a row freezes the correction. -/
theorem lmonWindowEnd_of_open {s : State} (ho : s.prb.lmonOpen = true) :
    lmonWindowEnd s = { s.expire (s.prb.lmonTick + 4095) with prb := { s.prb with
      lmonOpen := false, lmonMissRun := s.prb.lmonMissRun + 1, lmonMisses := satAdd 16 s.prb.lmonMisses 1, lmonGood := []
      lmonFrozen := s.prb.lmonFrozen || s.prb.lmonMissRun + 1 == 16, int := s.prb.int.raiseIf (s.prb.lmonMissRun + 1 == 16) 5 } } := by
  unfold lmonWindowEnd
  rw [if_neg (by simp [ho])]
  rfl

theorem tablesReady_of_waiting {s : State} {a : PendAmend} (hp : s.prb.pend = some a) (hr : a.ready = false) :
    tablesReady s = { s with
      prb := { s.prb with pend := some { a with ready := true } }
      coh := { s.coh with refBuilds := satAdd 16 s.coh.refBuilds 1, int := s.coh.int.raise 0 } } := by
  simp [tablesReady, hp, hr]

theorem tablesReady_of_ready {s : State} {a : PendAmend} (hp : s.prb.pend = some a) (hr : a.ready = true) : tablesReady s = s := by
  simp [tablesReady, hp, hr]

theorem tablesReady_of_none {s : State} (hp : s.prb.pend = none) : tablesReady s = s := by
  simp [tablesReady, hp]

/-! ### The statement -/

/-- What LAUNCH_MON_EDGE leaves of an open window, by what the channel took the edge as. -/
theorem launchMonEdge_leaves {s : State} (ho : s.prb.lmonOpen = true) {m : TdcIn} {e : TdcEdge} (he : (s.tdcEdge 0 m).2 = e) :
    Leaves (.launchMonEdge m) s ((s.tdcEdge 0 m).1.edgeInWindow e) :=
  leaves_of_eq (he ▸ launchMonEdge_of_open ho m) rfl

/-- Settles O24: each event by the equation of its operation in its case, and a measurement by its five cases. -/
theorem launchMonitor : Obligations.LaunchMonitor := by
  refine fun s => ⟨fun hc m => ?closed, fun ho m => ⟨fun t f c he => ?measured, fun t he => ?coarse, fun he => ?skipped⟩, fun ho => ?miss,
    fun d => ?measure, fun a hp hr => ?build, fun a hp hr => ?built, fun hp => ?noPend⟩
  case closed => exact ⟨leaves_of_eq (launchMonEdge_of_closed hc m) rfl, leaves_of_eq (lmonWindowEnd_of_closed hc) rfl⟩
  case measured =>
    have hedge := launchMonEdge_leaves ho he
    refine ⟨fun hc hlow hhigh => ?_, fun hout => ?_⟩
    · rwa [State.edgeInWindow, if_pos ⟨hc, hlow, hhigh⟩] at hedge
    · rwa [State.edgeInWindow, if_neg fun ⟨hc, hlow, hhigh⟩ => hout.elim hc.not_ge (·.elim hlow.not_gt hhigh.not_gt)] at hedge
  case coarse => exact launchMonEdge_leaves ho he
  case skipped => exact launchMonEdge_leaves ho he
  case miss => exact leaves_of_eq (lmonWindowEnd_of_open ho) rfl
  case measure =>
    obtain ⟨hd, hmiss, hopen⟩ := lmonMeasure_always s d
    refine ⟨hd, hmiss, hopen, fun hf => ⟨fun hw => ?inRange, fun hw => ?outOfRange⟩, fun hf hw => ⟨fun hn => ?few, fun hn => ?enough⟩,
      fun hf hw => ?bad⟩
    case inRange =>
      have hprb : s.measuredUnfrozen d = _ := if_pos hw
      rw [lmonMeasure_of_unfrozen hf, hprb]
      exact ⟨hf, rfl, rfl⟩
    case outOfRange =>
      have hprb : s.measuredUnfrozen d = _ := if_neg (Bool.eq_false_iff.mp hw)
      rw [lmonMeasure_of_unfrozen hf, hprb]
      exact ⟨rfl, rfl, rfl, rfl⟩
    case few =>
      rw [lmonMeasure_of_frozen hf, State.measuredFrozen, State.goodWith_of_near hw, if_neg (Nat.not_le.mpr hn)]
      exact ⟨hf, rfl⟩
    case enough =>
      rw [lmonMeasure_of_frozen hf, State.measuredFrozen, State.goodWith_of_near hw, if_pos hn]
      exact ⟨rfl, rfl⟩
    case bad =>
      rw [lmonMeasure_of_frozen hf, State.measuredFrozen, State.goodWith_of_far hw, if_neg (by decide)]
      exact ⟨hf, rfl⟩
  case build => exact leaves_of_eq (tablesReady_of_waiting hp hr) rfl
  case built => exact leaves_of_eq (tablesReady_of_ready hp hr) rfl
  case noPend => exact leaves_of_eq (tablesReady_of_none hp) rfl

end Sys2Proof.Machine
end

section
/-! SUPPORT. The launch schedule: launch positions and trace-period boundaries (02 R39, R41, R54, R56; 20 R429). -/

namespace Sys2Proof.Machine

/-! ### What dealing and the Raman trace leave alone -/

/-- Dealing waiting shots changes the tiller array alone. -/
theorem dealShots_parts (s : State) (l : List (Nat × Nat)) : dealShots s l = { s with til := (dealShots s l).til } := by
  induction l generalizing s with
  | nil => rfl
  | cons a l ih =>
    simp only [dealShots]
    split
    · split
      · rw [ih]
      · exact ih s
    · rfl

/-- A dispatch pass changes the tiller array alone. -/
theorem dispatchPass_parts (s : State) (t : Nat) : dispatchPass s t = { s with til := (dispatchPass s t).til } :=
  dealShots_parts { s with til := { s.til with pass := t } } s.til.waiting

/-- A Raman trace changes the Raman channel alone. -/
theorem dtsTrace_parts (s : State) (m r g0 : Nat) (raman : List (Nat × Nat)) :
    dtsTrace s m r g0 raman = { s with dts := (dtsTrace s m r g0 raman).dts } := by
  unfold dtsTrace
  dsimp only
  split <;> rfl

/-! ### A launch (02 R39, R41, R54, R56) -/

/-- Light at a launch position arms a chain that waits for it, and leaves any other arming. -/
theorem lightOn_arm (s : State) (r m j t : Nat) :
    (lightOn s r m j t).prb.arm = if s.prb.arm = .waitLaunch then .armed else s.prb.arm := by
  unfold lightOn
  by_cases h : s.prb.arm = .waitLaunch
  · rw [if_neg (not_not.mpr h), if_pos h]
    dsimp only
    split
    · exact congrArg Guard.arm (rxfLaunchBegin_guard _ t)
    · exact congrArg Guard.arm ((restartTraining_guard _ r m j _).trans (rxfLaunchBegin_guard _ t))
  · rw [if_pos h, if_neg h]

/-- The state at launch position (r, m, j) of tick t once light has been passed up to it. -/
def State.litAt (s : State) (r m j t : Nat) : State := lightOn (dispatchPass (s.advance t) t) r m j t

/-- Time and dispatch leave the arming to the launch itself. -/
theorem State.litAt_arm (s : State) (r m j t : Nat) :
    (s.litAt r m j t).prb.arm = if s.prb.arm = .waitLaunch then .armed else s.prb.arm := by
  have harm : (dispatchPass (s.advance t) t).prb.arm = s.prb.arm :=
    congrArg Guard.arm ((dispatchPass_guard _ t).trans (State.advance_guard s t))
  rw [State.litAt, lightOn_arm, harm]

/-- The schedule after the launch of index r at position j of trace period m. -/
theorem launchAt_schedule (s : State) (r m j t : Nat) (raman : List (Nat × Nat)) :
    let v := s.litAt r m j t
    let w := launchAt s r m j t raman
    w.prb.rawIdx = r ∧ w.prb.nextR = r + 1 ∧
      w.prb.m = (if decide (v.conf.probe.slots ≤ j + 1) then m + 1 else m) ∧
      w.prb.j = (if decide (v.conf.probe.slots ≤ j + 1) then 0 else j + 1) ∧
      w.prb.boundaryDone = (!decide (v.conf.probe.slots ≤ j + 1)) ∧ w.prb.arm = v.prb.arm ∧ w.prb.epoch = v.prb.epoch := by
  unfold launchAt
  dsimp only
  split
  · rw [dtsTrace_parts]
    exact ⟨rfl, rfl, rfl, rfl, rfl, rfl, rfl⟩
  · exact ⟨rfl, rfl, rfl, rfl, rfl, rfl, rfl⟩

/-- A launch pulses GATE and lets the chirp out exactly where the chain is armed and the module drives. -/
theorem launchAt_pads (s : State) (r m j t : Nat) (raman : List (Nat × Nat)) :
    let v := s.litAt r m j t
    let w := launchAt s r m j t raman
    w.pads.gate = (v.prb.arm == .armed && v.drives) ∧ w.pads.muted = !w.pads.gate ∧ w.pads.chirp.isSome = w.pads.gate := by
  have hchirp : ∀ {α : Type} (c : Bool) (x : α), (if c then some x else none).isSome = c := by
    intro α c x
    cases c <;> rfl
  unfold launchAt
  dsimp only
  split
  · rw [dtsTrace_parts]
    exact ⟨rfl, rfl, hchirp _ _⟩
  · exact ⟨rfl, rfl, hchirp _ _⟩

/-! ### LAUNCH_POSITION (02 R39) -/

/-- The state in which the launch position is looked at: the boundary that lies on it crossed. -/
def State.crossed (s : State) : State := if s.prb.j = 0 then boundary s else s

/-- The schedule runs: an epoch is set, the boundary crossed, and launches have not ended. -/
def State.runs (u : State) : Prop :=
  u.prb.epoch.isSome ∧ u.prb.boundaryDone = true ∧ u.pwr.stopped = false ∧ (u.pwr.phase = .acquisition ∨ u.pwr.phase = .stopping)

/-- The test of the model is that the schedule does not run. -/
theorem State.not_runs_iff (u : State) :
    (u.prb.epoch.isNone || !u.prb.boundaryDone || u.pwr.stopped || (u.pwr.phase != .acquisition && u.pwr.phase != .stopping)) = true ↔
      ¬ u.runs := by
  unfold State.runs
  cases u.prb.epoch with
  | none => simp
  | some e =>
    simp only [Option.isNone_some, Option.isSome_some, Bool.false_or, true_and]
    grind

theorem launchPosition_of_not_runs {s : State} (h : ¬ s.crossed.runs) (raman : List (Nat × Nat)) :
    launchPosition s raman = s.crossed := if_pos ((State.not_runs_iff _).mpr h)

theorem launchPosition_of_runs {s : State} (h : s.crossed.runs) (raman : List (Nat × Nat)) :
    launchPosition s raman = launchAt s.crossed s.crossed.prb.nextR s.crossed.prb.m s.crossed.prb.j
      (s.crossed.launchTick s.crossed.prb.nextR) raman :=
  if_neg (mt (State.not_runs_iff _).mp (not_not.mpr h))

/-! ### TRACE_PERIOD_BOUNDARY (02 R39, R54; 20 R429; 21 R460) -/

/-- Before the epoch, once the boundary is crossed, after launches ended and outside acquisition and stopping a boundary does nothing. -/
theorem boundary_of_not_due {s : State} (h : s.prb.epoch = none ∨ s.prb.boundaryDone = true ∨ s.pwr.stopped = true ∨
    (s.pwr.phase ≠ .acquisition ∧ s.pwr.phase ≠ .stopping)) : boundary s = s := by
  unfold boundary
  cases he : s.prb.epoch with
  | none => rfl
  | some e =>
    refine if_pos ?_
    simpa [he, or_assoc] using h

/-- The state at the boundary that comes next: its tick reached, a member that can join joined. -/
def State.atBoundary (s : State) : State := joinNow (s.advance (s.boundaryTick s.prb.m))

theorem State.atBoundary_phase (s : State) : s.atBoundary.pwr.phase = s.pwr.phase :=
  congrArg Guard.phase ((joinNow_guard _).trans (State.advance_guard s _))

/-- What the boundary at tick t does in a state that has reached it: launches end, move to the master's schedule, or go on. -/
def State.crossAt (u : State) (t : Nat) : State :=
  if u.pwr.phase = .stopping then endLaunches u t
  else match u.epochDiffers with
    | some st => epochRealign u st
    | none => boundaryGo u t (boundaryIdx u.planSegs u.prb.m) u.prb.m

theorem State.crossAt_of_stopping {u : State} (h : u.pwr.phase = .stopping) (t : Nat) : u.crossAt t = endLaunches u t := if_pos h

theorem State.crossAt_of_differs {u : State} {st : StateBody} (h : u.pwr.phase ≠ .stopping) (hd : u.epochDiffers = some st) (t : Nat) :
    u.crossAt t = epochRealign u st := by rw [State.crossAt, if_neg h, hd]

theorem State.crossAt_of_same {u : State} (h : u.pwr.phase ≠ .stopping) (hd : u.epochDiffers = none) (t : Nat) :
    u.crossAt t = boundaryGo u t (boundaryIdx u.planSegs u.prb.m) u.prb.m := by rw [State.crossAt, if_neg h, hd]

/-- A boundary is due once an epoch is set, until it is crossed, while launches have not ended. -/
theorem boundary_of_due {s : State} (he : s.prb.epoch.isSome) (hb : s.prb.boundaryDone = false) (hs : s.pwr.stopped = false)
    (hp : s.pwr.phase = .acquisition ∨ s.pwr.phase = .stopping) :
    boundary s = s.atBoundary.crossAt (s.boundaryTick s.prb.m) := by
  obtain ⟨e, he⟩ := Option.isSome_iff_exists.mp he
  have hdue : ¬ (s.prb.boundaryDone || s.pwr.stopped || (s.pwr.phase != .acquisition && s.pwr.phase != .stopping)) = true := by
    rcases hp with hp | hp <;> simp [hb, hs, hp]
  unfold boundary
  rw [he]
  exact if_neg hdue

/-- The boundary of trace period m at tick t with first launch r while launches go on: its effects one after the other. -/
theorem boundaryGo_eq (u : State) (t r m : Nat) : boundaryGo u t r m =
    (let v := installSeeds (dtsBoundaryClose { u with prb := { u.prb with boundaryDone := true, nextR := r } } m) r
    let role := roleBoundary v r
    let re := realignBoundary role.1 r
    let am := amendBoundary (commitBoundary (thinBoundary re.1 r m) t m) t r m
    let due := restartsDue (clearLost am.1) t
    let v := restartTraining due.1 r m 0 (am.2 ++ due.2 ++ role.2 ++ if re.2 then [(none, false)] else [])
    qsStartAll (rejoin (sendState (zonGridSync (syncBoundary (lmonShift (beyondBoundary v)) r)) m))) := by
  unfold boundaryGo
  dsimp only

/-- At the end of launches the pads are dark, the arming is off and launches are stopped. -/
theorem endLaunches_ends (s : State) (t : Nat) : (endLaunches s t).pads = s.pads.dark ∧ (endLaunches s t).prb.arm = .off ∧
    (endLaunches s t).prb.launching = false ∧ (endLaunches s t).pwr.stopped = true := by
  have hpads : (dispatchPass s t).pads = s.pads := by rw [dispatchPass_parts]
  exact ⟨congrArg Pads.dark hpads, rfl, rfl, rfl⟩

/-! ### The statement -/

/-- What LAUNCH_POSITION leaves of a schedule that runs. -/
theorem launchPosition_leaves {s : State} (hr : s.crossed.runs) (raman : List (Nat × Nat)) :
    let u := s.crossed
    let v := u.litAt u.prb.nextR u.prb.m u.prb.j (u.launchTick u.prb.nextR)
    ∃ w : State, Leaves (.launchPosition raman) s w.settled ∧ w.prb.rawIdx = u.prb.nextR ∧ w.prb.nextR = u.prb.nextR + 1 ∧
      (v.conf.probe.slots ≤ u.prb.j + 1 → w.prb.m = u.prb.m + 1 ∧ w.prb.j = 0 ∧ w.prb.boundaryDone = false) ∧
      (u.prb.j + 1 < v.conf.probe.slots → w.prb.m = u.prb.m ∧ w.prb.j = u.prb.j + 1 ∧ w.prb.boundaryDone = true) ∧
      (u.prb.arm = .waitLaunch → w.prb.arm = .armed) ∧ (u.prb.arm ≠ .waitLaunch → w.prb.arm = u.prb.arm) ∧
      w.pads.gate = (v.prb.arm == .armed && v.drives) ∧ w.pads.muted = !w.pads.gate ∧
      w.pads.chirp.isSome = w.pads.gate ∧ w.prb.epoch = v.prb.epoch := by
  intro u v
  obtain ⟨hraw, hnext, hm, hj, hdone, harm, hepoch⟩ := launchAt_schedule u u.prb.nextR u.prb.m u.prb.j (u.launchTick u.prb.nextR) raman
  obtain ⟨hgate, hmuted, hchirp⟩ := launchAt_pads u u.prb.nextR u.prb.m u.prb.j (u.launchTick u.prb.nextR) raman
  rw [State.litAt_arm] at harm
  refine ⟨_, leaves_of_eq (congrArg State.settled (launchPosition_of_runs hr raman)) rfl, hraw, hnext, fun hlast => ?_, fun hmore => ?_,
    fun hw => harm.trans (if_pos hw), fun hw => harm.trans (if_neg hw), hgate, hmuted, hchirp, hepoch⟩
  · rw [decide_eq_true hlast] at hm hj hdone
    exact ⟨hm, hj, hdone⟩
  · rw [decide_eq_false (Nat.not_le.mpr hmore)] at hm hj hdone
    exact ⟨hm, hj, hdone⟩

/-- Settles O23: LAUNCH_POSITION by whether the schedule runs, TRACE_PERIOD_BOUNDARY by the cases of `boundary`. -/
theorem launchSchedule : Obligations.LaunchSchedule := by
  refine fun s => ⟨fun raman => ⟨fun hn => ?still, fun hr => ?launch⟩, fun hn => ?notDue,
    fun he hb hs => ⟨fun hp => ?ends, fun hp st hst => ?realigns, fun hp hst => ?goes⟩⟩
  case still => exact leaves_of_eq (congrArg State.settled (launchPosition_of_not_runs hn raman)) rfl
  case launch => exact launchPosition_leaves hr raman
  case notDue => exact leaves_of_eq (congrArg State.settled (boundary_of_not_due hn)) rfl
  case ends =>
    have hto := State.crossAt_of_stopping (s.atBoundary_phase.trans hp) (s.boundaryTick s.prb.m)
    exact ⟨leaves_of_eq (congrArg State.settled ((boundary_of_due he hb hs (.inr hp)).trans hto)) rfl, endLaunches_ends _ _⟩
  case realigns =>
    have hgo : s.atBoundary.pwr.phase ≠ .stopping := by rw [State.atBoundary_phase, hp]; decide
    have hto := State.crossAt_of_differs hgo hst (s.boundaryTick s.prb.m)
    exact leaves_of_eq (congrArg State.settled ((boundary_of_due he hb hs (.inl hp)).trans hto)) rfl
  case goes =>
    have hgo : s.atBoundary.pwr.phase ≠ .stopping := by rw [State.atBoundary_phase, hp]; decide
    have hto := (State.crossAt_of_same hgo hst (s.boundaryTick s.prb.m)).trans (boundaryGo_eq _ _ _ _)
    exact leaves_of_eq (congrArg State.settled ((boundary_of_due he hb hs (.inl hp)).trans hto)) rfl

end Sys2Proof.Machine
end

section
/-! SUPPORT. The receiver front end: frame ends, range switches, LO updates and floor segments (03 R71 to R81). -/

namespace Sys2Proof.Machine

/-! ### Frame ends (03 R74 to R76) -/

/-- The number of the frame that ends: the next one, or the first that ends at the present tick or later. -/
def State.frameEnding (s : State) : Nat := max (s.rxf.frame + 1) ((s.tim.tick + 255) / 256)

/-- A frame that ends now is judged: auto mode is in force and auto-ranging not frozen (03 R76). -/
@[reducible] def State.judges (s : State) : Prop := s.autoRange = true ∧ s.rangeFrozen = false

/-- The run of low frames with the one that ends (03 R74); a frame that is not judged starts it again (log 75). -/
def State.lowRunWith (s : State) (peak : Nat) : Nat := if s.judges ∧ peak ≤ 52 then min 16 (s.rxf.lowRun + 1) else 0

/-- A request with switch tick `t` is not blocked (03 R75): no switch waits, and the previous one lies 4,096 ticks back. -/
@[reducible] def Rxf.switchFree (x : Rxf) (t : Nat) : Prop :=
  x.pendSwitch = none ∧ (x.switched = true → x.switchTick + 4096 ≤ t)

/-- The switch that waits after a frame end at which `ask` is asked for with switch tick `t` (03 R74, R75). -/
def State.switchAsked (s : State) (ask : Option Nat) (t : Nat) : Option (Nat × Nat × Bool) :=
  if s.judges ∧ s.rxf.switchFree t ∧ ask.isSome then ask.map fun r => (t, r, true) else s.rxf.pendSwitch

theorem State.judges_iff (s : State) : (s.autoRange && !s.rangeFrozen) = true ↔ s.judges := by simp

theorem Rxf.switchFree_iff (x : Rxf) (t : Nat) :
    (x.pendSwitch.isNone && (!x.switched || decide (x.switchTick + 4096 ≤ t))) = true ↔ x.switchFree t := by
  cases hsw : x.switched <;> simp [Rxf.switchFree, hsw]

/-- The model's run of low frames: a frame not judged is told apart first, then its peak. -/
theorem State.lowRunWith_eq (s : State) (peak : Nat) :
    (if !(s.autoRange && !s.rangeFrozen) then 0 else if peak ≤ 52 then min 16 (s.rxf.lowRun + 1) else 0) = s.lowRunWith peak := by
  unfold State.lowRunWith
  by_cases hj : s.judges
  · rw [s.judges_iff.mpr hj]
    simp only [Bool.not_true, Bool.false_eq_true, if_false, and_iff_right hj]
  · simp [hj, Bool.eq_false_iff.mpr (mt s.judges_iff.mp hj)]

/-- The model's waiting switch: the request counts only of a frame that is judged and with nothing in its way. -/
theorem State.switchAsked_eq (s : State) (ask : Option Nat) (t : Nat) :
    (match if (s.autoRange && !s.rangeFrozen) &&
        (s.rxf.pendSwitch.isNone && (!s.rxf.switched || decide (s.rxf.switchTick + 4096 ≤ t))) then ask else none with
      | some r => some (t, r, true)
      | none => s.rxf.pendSwitch) = s.switchAsked ask t := by
  have hcond := Bool.and_eq_true_iff.trans (and_congr s.judges_iff (s.rxf.switchFree_iff t))
  unfold State.switchAsked
  by_cases hc : s.judges ∧ s.rxf.switchFree t
  · rw [if_pos (hcond.mpr hc)]
    obtain ⟨hj, hf⟩ := hc
    cases ask with
    | none => simp
    | some r => exact (if_pos ⟨hj, hf, rfl⟩).symm
  · rw [if_neg (mt hcond.mp hc), if_neg fun ⟨hj, hf, _⟩ => hc ⟨hj, hf⟩]

theorem frameEnd_of_still {s : State} (h : s.adc.running = false) (peak clips : Nat) : frameEnd s peak clips = s := by
  simp [frameEnd, h]

/-- A frame end while the converters run: the frame and its clips counted, the run of low frames and the waiting switch renewed. -/
theorem frameEnd_of_running {s : State} (h : s.adc.running = true) (peak clips : Nat) :
    frameEnd s peak clips = { s.advance (256 * s.frameEnding) with
      rxf := { s.rxf with
        frame := s.frameEnding, lowRun := s.lowRunWith peak, clips := satAdd 32 s.rxf.clips clips
        int := s.rxf.int.raiseIf (clips != 0) 1
        pendSwitch := s.switchAsked (frameRequest s.rxf.range peak clips (s.lowRunWith peak)) (256 * s.frameEnding + 32) } } := by
  rw [← s.switchAsked_eq, ← s.lowRunWith_eq]
  unfold frameEnd
  rw [if_neg (not_not.mpr h)]
  rfl

/-! ### Range switches (03 R71) -/

theorem rangeSwitch_of_none {s : State} (h : s.rxf.pendSwitch = none) : rangeSwitch s = s := by simp only [rangeSwitch, h]

theorem rangeSwitch_of_waiting {s : State} {t r : Nat} {a : Bool} (h : s.rxf.pendSwitch = some (t, r, a)) :
    rangeSwitch s = { s.advance t with
      rxf := { s.rxf.setRange t r true with
        switchTick := t, switched := true, pendSwitch := none
        switches := satAdd 16 s.rxf.switches 1, int := s.rxf.int.raise 0 } } := by
  simp only [rangeSwitch, h]
  rfl

/-! ### LO power (03 R79, R80) -/

/-- The receiver once the millisecond next in order has ended, before its LO power is judged. -/
def Rxf.nextLoMs (x : Rxf) : Rxf := { x with loSum := 0, loCount := 0, loMs := x.loMs + 1 }

/-- The LO power of the millisecond that ends: the converted mean of its readings, or the previous value (03 R79). -/
def Rxf.loValue (x : Rxf) : Int :=
  if x.loCount = 0 then x.loPwr else clampInt (-32767) 32767 (Config.loPower x.loSum x.loCount)

theorem loJudge_loPwr (x : Rxf) (loMin v : Int) : (loJudge x loMin v).loPwr = v := rfl

theorem loUpdate_of_unscanned {s : State} (h : s.rxf.loFrom = none) : loUpdate s = s := by simp only [loUpdate, h]

/-- Once scanning has begun a millisecond ends, and its LO power is judged unless none has been known so far. -/
theorem loUpdate_of_scanned {s : State} (h : s.rxf.loFrom.isSome) :
    loUpdate s = { s.advance (msTicks * (s.rxf.loMs + 1)) with
      rxf := if s.rxf.loCount = 0 ∧ s.rxf.loPwr = -32768 then s.rxf.nextLoMs
        else loJudge s.rxf.nextLoMs s.conf.receiver.loMin s.rxf.loValue } := by
  unfold loUpdate
  split
  next hnone => simp [hnone] at h
  next => rfl

/-! ### The receiver floor (03 R81) -/

/-- The segments of a floor measurement begin at the next multiples of 4,096 of their nominal ticks (log 76). -/
theorem State.floorTick_eq (s : State) (k : Nat) :
    s.floorTick k = (s.prb.settleFrom + (s.conf.laser.ampSettle - 1) * msTicks + k * 1000000 + 4095) / 4096 * 4096 := by
  rw [State.floorTick, alignUp, ceilDiv, Nat.add_sub_assoc (by decide)]

theorem floorStart_of_settle {s : State} (h : s.prb.arm = .settle) :
    floorStart s = { s.advance (s.floorTick 0) with
      rxf := { s.rxf.setRange (s.floorTick 0) 0 false with floorSeg := some 0, floorValid := false, pendSwitch := none } } := by
  unfold floorStart
  rw [if_neg (not_not.mpr h)]
  rfl

theorem floorStart_of_not_settle {s : State} (h : s.prb.arm ≠ .settle) : floorStart s = s := if_pos h

/-- The floors with the one of segment `k`, from its dark samples. -/
def State.floorsWith (s : State) (k : Nat) (dark : List Sample) : List Nat :=
  modAt s.rxf.floors k fun _ => meanPower (floorPowers s (s.floorTick k) dark)

theorem floorSegment_of_none {s : State} (h : s.rxf.floorSeg = none) (dark : List Sample) : floorSegment s dark = s := by
  simp only [floorSegment, h]

/-- A segment before the last hands over to the next range. -/
theorem floorSegment_of_more {s : State} {k : Nat} (h : s.rxf.floorSeg = some k) (hk : k < 3) (dark : List Sample) :
    floorSegment s dark = { s.advance (s.floorTick (k + 1)) with
      rxf := { s.rxf.setRange (s.floorTick (k + 1)) (k + 1) false with
        floors := s.floorsWith k dark, floorSeg := some (k + 1) } } := by
  simp only [floorSegment, h, if_pos hk]
  rfl

/-- The last segment makes the floors valid. -/
theorem floorSegment_of_last {s : State} {k : Nat} (h : s.rxf.floorSeg = some k) (hk : 3 ≤ k) (dark : List Sample) :
    floorSegment s dark = { s with rxf := { s.rxf with
      floors := s.floorsWith k dark, floorSeg := none, floorValid := true } } := by
  simp only [floorSegment, h, if_neg (Nat.not_lt.mpr hk)]
  rfl

/-! ### The statement -/

/-- Settles O25: each event by the equation of its operation in its case. -/
theorem receiver : Obligations.Receiver := by
  refine fun s => ⟨fun peak clips hrun => ?frame, fun peak clips hstill => ?noFrame, fun t r a hw => ?switch, fun hn => ?noSwitch,
    fun hu => ?unscanned, fun hscan => ⟨fun hknown => ?judged, loJudge_loPwr _ _ _, fun hun => ?unknown⟩, s.floorTick_eq,
    fun ha => ?settling, fun ha => ?notSettling, fun dark k hseg => ⟨fun hk => ?more, fun hk => ?last⟩, fun dark hseg => ?noSegment⟩
  case frame => exact leaves_of_eq (frameEnd_of_running hrun peak clips) rfl
  case noFrame => exact leaves_of_eq (frameEnd_of_still hstill peak clips) rfl
  case switch => exact leaves_of_eq (rangeSwitch_of_waiting hw) rfl
  case noSwitch => exact leaves_of_eq (rangeSwitch_of_none hn) rfl
  case unscanned => exact leaves_of_eq (loUpdate_of_unscanned hu) rfl
  case judged =>
    have hto := loUpdate_of_scanned hscan
    rw [if_neg hknown] at hto
    exact leaves_of_eq hto rfl
  case unknown =>
    have hto := loUpdate_of_scanned hscan
    rw [if_pos (not_not.mp hun)] at hto
    exact leaves_of_eq hto rfl
  case settling => exact leaves_of_eq (floorStart_of_settle ha) rfl
  case notSettling => exact leaves_of_eq (floorStart_of_not_settle ha) rfl
  case more => exact leaves_of_eq (floorSegment_of_more hseg hk dark) rfl
  case last => exact leaves_of_eq (floorSegment_of_last hseg hk dark) rfl
  case noSegment => exact leaves_of_eq (floorSegment_of_none hseg dark) rfl

end Sys2Proof.Machine
end

section
/-! SUPPORT. The main converters: calibration, self-test, rotation and live monitor (04 R92 to R102). -/

namespace Sys2Proof.Machine

/-! ### Initial calibration (04 R99) -/

/-- The calibration of every slice ends once in a run. -/
theorem initialCalDone_of_due {s : State} (hr : s.adc.running = true) (hi : s.adc.initDone = false) (meas : List CalMeas) :
    initialCalDone s meas =
      (let t := meas.zipIdx.foldl (fun s e => initialCal s (e.2 / 9) (e.2 % 9) e.1) s
       { t with adc := { t.adc with initDone := true, int := t.adc.int.raise 0 } }) := by
  unfold initialCalDone
  rw [if_neg (by simp [hr, hi])]

theorem initialCalDone_of_not_due {s : State} (h : s.adc.running = false ∨ s.adc.initDone = true) (meas : List CalMeas) :
    initialCalDone s meas = s := if_pos (h.imp_left fun hr => by simp [hr])

/-! ### The commit point of the out slice (04 R95 to R97) -/

/-- What the commit point of slice `i` of lane `n` changes, by the first check that fails: the new trims are loaded, or the rejection is
counted and the self-test begins. -/
def State.calJudged (s : State) (n i : Nat) (m : CalMeas) : Option (Nat × Int) → State
  | none => s.modLane n fun l =>
      { (l.modSlice i fun x => { x with next := some (m.off1, m.gain1, calTaps m (s.laneDelay n)), rejRun := 0 }) with
        cals := satAdd 16 l.cals 1 }
  | some f =>
      let t := s.modLane n fun l =>
        { (l.modSlice i fun x => { x with rejRun := x.rejRun + 1, testing := some f }) with rejects := satAdd 16 l.rejects 1 }
      { t with adc := { t.adc with int := t.adc.int.raise 1 } }

/-- After the initial calibration a lane with an out slice does what the checks of R95 say of that slice. -/
theorem calCommit_of_out {s : State} {n i : Nat} (hr : s.adc.running = true) (hi : s.adc.initDone = true)
    (ho : (s.lane n).out = some i) (m : CalMeas) :
    let x := nth (s.lane n).slices i {}
    calCommit s n m = s.calJudged n i m (calCheck rotationLimits (x.off, x.gain, x.taps) m (s.laneDelay n)) := by
  unfold calCommit
  rw [if_neg (not_not.mpr ⟨hr, hi⟩)]
  simp only [ho]
  split <;> simp only [State.calJudged, *]

theorem calCommit_of_idle {s : State} {n : Nat} (h : s.adc.running = false ∨ s.adc.initDone = false ∨ (s.lane n).out = none)
    (m : CalMeas) : calCommit s n m = s := by
  unfold calCommit
  rcases h with hr | hi | ho
  · exact if_pos (by simp [hr])
  · exact if_pos (by simp [hi])
  · simp only [ho, ite_self]

/-! ### The end of a slice self-test (04 R97) -/

/-- A slice under test stays in the lane (04 R97): every code within one step, and fewer than three rejections in a row. -/
@[reducible] def Slice.passes (x : Slice) (devs : SelfTestCodes) : Prop := (∀ d ∈ devs, -1 ≤ d ∧ d ≤ 1) ∧ x.rejRun < 3

theorem Slice.passes_iff (x : Slice) (devs : SelfTestCodes) :
    ((devs.all fun d => within d 1) && decide (x.rejRun < 3)) = true ↔ x.passes devs := by
  simp only [Bool.and_eq_true, List.all_eq_true, within, decide_eq_true_eq]

section
variable {s : State} {n i : Nat}

theorem sliceTestEnd_of_untested (h : (nth (s.lane n).slices i {}).testing = none) (devs : SelfTestCodes) :
    sliceTestEnd s n i devs = s := by simp only [sliceTestEnd, h]

/-- A slice that passes goes back with a transient entry. -/
theorem sliceTestEnd_of_passes {f : Nat × Int} {devs : SelfTestCodes} (h : (nth (s.lane n).slices i {}).testing = some f)
    (hp : (nth (s.lane n).slices i {}).passes devs) :
    sliceTestEnd s n i devs = (s.modLane n fun l => l.modSlice i fun y => { y with testing := none }).transient 0x0301 (9 * n + i)
      (leBytes 4 f.1 ++ leBytes 4 (ofInt 32 f.2)) := by
  simp only [sliceTestEnd, h, if_pos ((Slice.passes_iff _ devs).mpr hp), sliceData]

/-- One that does not pass is retired. -/
theorem sliceTestEnd_of_fails {f : Nat × Int} {devs : SelfTestCodes} (h : (nth (s.lane n).slices i {}).testing = some f)
    (hp : ¬ (nth (s.lane n).slices i {}).passes devs) : sliceTestEnd s n i devs = retireSlice s n i f s.tim.tick := by
  simp only [sliceTestEnd, h, if_neg (mt (Slice.passes_iff _ devs).mp hp)]

end

/-! ### Rotation boundaries (04 R92, R102) -/

/-- The tick of the next rotation boundary: one period after the one before, or at a later multiple. -/
def State.rotationTick (s : State) : Nat := max (alignUp s.tim.tick (2 ^ 24)) (s.adc.lastRot + 2 ^ 24)

/-- A lane of polarisation `k` has been lost since the last boundary. -/
def State.losing (s : State) (k : Nat) : Bool := ((s.adc.lanes.drop (2 * k)).take 2).any fun l => l.losing.isSome

/-- The boundary at tick `b` reached and counted, every lane moved on. -/
def State.rotated (s : State) (b : Nat) : State := { s.advance b with
  adc := { s.adc with
    lastRot := b, rotCount := wrapAdd 32 s.adc.rotCount 1
    lanes := s.adc.lanes.map fun l => if s.adc.initDone then { l.rotate b with losing := none } else l } }

/-- The polarisations named lost at tick `b`: X first, then Y. -/
def State.losePols (s : State) (b : Nat) (x y : Bool) : State :=
  let t := if x then losePol s 0 b else s
  if y then losePol t 1 b else t

/-- After the lanes' step each polarisation with a lost lane is lost. -/
theorem rotation_of_running {s : State} (h : s.adc.running = true) :
    rotation s = (s.rotated s.rotationTick).losePols s.rotationTick (s.losing 0) (s.losing 1) := if_neg (not_not.mpr h)

/-- What a rotation boundary leaves, by the polarisations that have a lost lane. -/
theorem rotationBoundary_leaves {s : State} (h : s.adc.running = true) {x y : Bool} (hx : s.losing 0 = x) (hy : s.losing 1 = y) :
    Leaves .rotationBoundary s ((s.rotated s.rotationTick).losePols s.rotationTick x y) := by
  subst hx hy
  exact leaves_of_eq (rotation_of_running h) rfl

theorem rotation_of_still {s : State} (h : s.adc.running = false) : rotation s = s := if_pos (by simp [h])

/-! ### Monitor windows (04 R100) -/

/-- In acquisition the window's end judges every lane. -/
theorem monitorEnd_of_acquiring {s : State} (hr : s.adc.running = true) (ha : s.acquiring = true) (stats : List PhaseStat) :
    monitorEnd s stats =
      (let w := max (alignUp s.tim.tick (2 ^ 20)) (s.adc.lastWin + 2 ^ 20)
       (List.range 4).foldl (fun t n => judgeLane t n w ((stats.drop (8 * n)).take 8))
         { s.advance w with adc := { s.adc with lastWin := w } }) :=
  if_neg (by simp [hr, ha])

theorem monitorEnd_of_idle {s : State} (h : s.adc.running = false ∨ ¬ s.acquiring = true) (stats : List PhaseStat) :
    monitorEnd s stats = s := if_pos (h.imp_left fun hr => by simp [hr])

/-! ### The statement -/

/-- Settles O26: each event by the equation of its operation in its case. -/
theorem converters : Obligations.Converters := by
  refine fun s => ⟨fun meas hr hi => ?initial, fun meas h => ?noInitial,
    fun n m hr hi i ho => ⟨fun hc => ?loads, fun f hc => ?rejects⟩, fun n m h => ?noCommit,
    fun n i devs => ⟨fun ht => ?untested, fun f ht => ⟨fun hp => ?passes, fun hp => ?fails⟩⟩,
    fun hr => ⟨fun hx hy => ?keepsBoth, fun hx hy => ?losesX, fun hx hy => ?losesY, fun hx hy => ?losesBoth⟩, fun hr => ?still,
    fun stats => ⟨fun hr hp => ?judges, fun h => ?noWindow⟩⟩
  case initial => exact leaves_of_eq (initialCalDone_of_due hr hi meas) rfl
  case noInitial => exact leaves_of_eq (initialCalDone_of_not_due h meas) rfl
  case loads => exact leaves_of_eq ((calCommit_of_out hr hi ho m).trans (congrArg (s.calJudged n i m) hc)) rfl
  case rejects => exact leaves_of_eq ((calCommit_of_out hr hi ho m).trans (congrArg (s.calJudged n i m) hc)) rfl
  case noCommit => exact leaves_of_eq (calCommit_of_idle h m) rfl
  case untested => exact leaves_of_eq (sliceTestEnd_of_untested ht devs) rfl
  case passes => exact leaves_of_eq (sliceTestEnd_of_passes ht hp) rfl
  case fails => exact leaves_of_eq (sliceTestEnd_of_fails ht hp) rfl
  case keepsBoth => exact rotationBoundary_leaves hr hx hy
  case losesX => exact rotationBoundary_leaves hr hx hy
  case losesY => exact rotationBoundary_leaves hr hx hy
  case losesBoth => exact rotationBoundary_leaves hr hx hy
  case still => exact leaves_of_eq (rotation_of_still hr) rfl
  case judges => exact leaves_of_eq (monitorEnd_of_acquiring hr (s.acquiring_iff.mpr hp) stats) rfl
  case noWindow => exact leaves_of_eq (monitorEnd_of_idle (h.imp_right (mt s.acquiring_iff.mp)) stats) rfl

end Sys2Proof.Machine
end

section
/-! SUPPORT. The tiller array: what a tiller takes, what its commit delivers, what an abort and the targeted test leave (05 R113 to R118,
R126; 22 R482, R484, R486). -/

namespace Sys2Proof.Machine

/-! ### What passing over leaves alone (05 R116) -/

@[simp] theorem Til.passOver_queue (x : Til) (q : List Sheaf) (n : Nat) : (x.passOver q).queue n = x.queue n := rfl

@[simp] theorem Til.passOver_takeable (x : Til) (q : List Sheaf) : (x.passOver q).takeable = x.takeable := rfl

@[simp] theorem Til.passOver_victim (x : Til) (q : List Sheaf) (n : Nat) : (x.passOver q).victim n = x.victim n := rfl

/-- The shots of `q` that are passed over counted, also where nothing is taken in the end (the model's choice, log 45). -/
def State.passOver (s : State) (q : List Sheaf) : State := { s with til := s.til.passOver q }

/-! ### TILLER_TAKE (05 R113, R114, R116; 22 R482) -/

/-- Tiller i looks for work: it exists, is idle, and the array runs (05 R113). -/
structure State.LooksForWork (s : State) (i : Nat) : Prop where
  inArray : i < 384
  idle : s.tiller i = .idle
  running : s.til.running = true

theorem State.LooksForWork.not_still {s : State} {i : Nat} (h : s.LooksForWork i) :
    ¬ (384 ≤ i ∨ s.tiller i ≠ .idle ∨ s.til.running = false) := by
  rintro (hi | hidle | hrun)
  · exact Nat.not_le.mpr h.inArray hi
  · exact hidle h.idle
  · exact Bool.false_ne_true (hrun.symm.trans h.running)

/-- Tiller i found no sheaf to run: with the empty queue `q` it starts its glean sheaf where that is due (22 R482;
log 45). -/
def State.gleanOrRest (s : State) (i : Nat) (q : List Sheaf) : State := if s.gleanDue i ∧ q = [] then startGlean s i else s

theorem State.gleanOrRest_of_due {s : State} {i : Nat} {q : List Sheaf} (hd : s.gleanDue i = true) (hq : q = []) :
    s.gleanOrRest i q = startGlean s i := if_pos ⟨hd, hq⟩

theorem State.gleanOrRest_of_not_due {s : State} {i : Nat} {q : List Sheaf} (h : s.gleanDue i = false ∨ q ≠ []) :
    s.gleanOrRest i q = s := if_neg fun ⟨hd, hq⟩ => h.elim (fun hn => by simp [hn] at hd) fun hn => hn hq

/-- Tiller i steals sheaf `h` of queue `m` (05 R114). -/
def State.steal (s : State) (i m : Nat) (h : Sheaf) : State :=
  startSheaf { s with til := { s.til with steals := wrapAdd 32 s.til.steals 1 } } i m h

theorem tillerTake_of_not_looking {s : State} {i : Nat} (h : 384 ≤ i ∨ s.tiller i ≠ .idle ∨ s.til.running = false) :
    tillerTake s i = s := if_pos h

section
variable {s : State} {i : Nat} (hw : s.LooksForWork i)
include hw

/-- A block sheaf goes before everything else. -/
theorem tillerTake_of_block {h : Sheaf} (hb : (s.til.queue (i / 16)).find? Sheaf.isBlock = some h) :
    tillerTake s i = startSheaf s i (i / 16) h := by
  rw [tillerTake, if_neg hw.not_still]
  simp only [hb]

variable (hb : (s.til.queue (i / 16)).find? Sheaf.isBlock = none)
include hb

/-- Without a block sheaf the queue's shots are looked at in order. -/
theorem tillerTake_of_shot {h : Sheaf} (ht : (s.til.queue (i / 16)).find? s.til.takeable = some h) :
    tillerTake s i = startSheaf (s.passOver (s.til.queue (i / 16))) i (i / 16) h := by
  rw [tillerTake, if_neg hw.not_still]
  simp only [hb, Til.passOver_takeable, ht]
  rfl

variable (ht : (s.til.queue (i / 16)).find? s.til.takeable = none)
include ht

/-- With nothing to take at home the victim's queue is looked at from its tail. -/
theorem tillerTake_of_victim {m : Nat} {h : Sheaf} (hv : s.til.victim (i / 16) = some m)
    (hh : (s.til.queue m).reverse.find? s.til.takeable = some h) :
    tillerTake s i = ((s.passOver (s.til.queue (i / 16))).passOver (s.til.queue m).reverse).steal i m h := by
  rw [tillerTake, if_neg hw.not_still]
  simp only [hb, Til.passOver_takeable, ht, Til.passOver_victim, hv, Til.passOver_queue, hh]
  rfl

/-- The victim may hold no shot sheaf that is due. -/
theorem tillerTake_of_blocked_victim {m : Nat} (hv : s.til.victim (i / 16) = some m)
    (hh : (s.til.queue m).reverse.find? s.til.takeable = none) :
    tillerTake s i =
      ((s.passOver (s.til.queue (i / 16))).passOver (s.til.queue m).reverse).gleanOrRest i (s.til.queue (i / 16)) := by
  rw [tillerTake, if_neg hw.not_still]
  simp only [hb, Til.passOver_takeable, ht, Til.passOver_victim, hv, Til.passOver_queue, hh]
  rfl

theorem tillerTake_of_no_victim (hv : s.til.victim (i / 16) = none) :
    tillerTake s i = (s.passOver (s.til.queue (i / 16))).gleanOrRest i (s.til.queue (i / 16)) := by
  rw [tillerTake, if_neg hw.not_still]
  simp only [hb, Til.passOver_takeable, ht, Til.passOver_victim, hv]
  rfl

end

theorem tillerTake_leaves {s u : State} {i : Nat} (h : tillerTake s i = u) : Leaves (.tillerTake i) s u.settled :=
  leaves_of_eq (congrArg State.settled h) rfl

/-- A tiller that found no sheaf to run gleans where that is due and its queue is empty, and otherwise changes nothing more. -/
theorem tillerTake_leaves_gleanOrRest {s u : State} {i : Nat} {q : List Sheaf} (h : tillerTake s i = u.gleanOrRest i q) :
    (u.gleanDue i = true → q = [] → Leaves (.tillerTake i) s (startGlean u i).settled) ∧
    (u.gleanDue i = false ∨ q ≠ [] → Leaves (.tillerTake i) s u.settled) :=
  ⟨fun hd hq => tillerTake_leaves (h.trans (State.gleanOrRest_of_due hd hq)),
    fun hn => tillerTake_leaves (h.trans (State.gleanOrRest_of_not_due hn))⟩

/-! ### SHEAF_COMMIT (05 R117; 22 R482) -/

/-- A glean sheaf that matched is counted; gleans go on while another tiller runs one (22 R482). -/
def State.gleanCounted (s : State) : State := { s with bgw := { s.bgw with
  gleans := wrapAdd 32 s.bgw.gleans 1
  tasks := modAt s.bgw.tasks 4 fun x => { x with
    running := s.til.tillers.any fun e => match e.2 with | .running (.glean _) => true | _ => false } } }

section
variable {s : State} {i : Nat}

/-- A shot sheaf delivers its row. -/
theorem commitSheaf_of_shot {r b : Nat} {sh : Shot} (ht : s.tiller i = .running (.shot r b)) (hs : s.til.shot r = some sh)
    (inp : SheafIn) : commitSheaf s i inp = commitShot (s.setTiller i .idle) sh b inp := by simp only [commitSheaf, ht, hs]

/-- A shot sheaf whose shot is no longer kept leaves its tiller idle. -/
theorem commitSheaf_of_lost_shot {r b : Nat} (ht : s.tiller i = .running (.shot r b)) (hs : s.til.shot r = none) (inp : SheafIn) :
    commitSheaf s i inp = s.setTiller i .idle := by simp only [commitSheaf, ht, hs]

/-- A block sheaf delivers its batch. -/
theorem commitSheaf_of_block {b : Nat} {batch : List Row} (ht : s.tiller i = .running (.block b batch)) (inp : SheafIn) :
    commitSheaf s i inp = commitBlock (s.setTiller i .idle) b batch inp := by simp only [commitSheaf, ht]

theorem commitSheaf_of_glean {g : Nat} (ht : s.tiller i = .running (.glean g)) (inp : SheafIn) :
    commitSheaf s i inp = (s.setTiller i .idle).gleanCounted := by
  simp only [commitSheaf, ht]
  rfl

/-- A tiller that runs nothing commits nothing. -/
theorem commitSheaf_of_not_running (h : ∀ x, s.tiller i ≠ .running x) (inp : SheafIn) : commitSheaf s i inp = s := by
  cases ht : s.tiller i with
  | running x => exact absurd ht (h x)
  | idle | test | retired => simp only [commitSheaf, ht]

end

theorem sheafCommit_leaves {s u : State} {i : Nat} {inp : SheafIn} (h : commitSheaf s i inp = u) :
    Leaves (.sheafCommit i inp) s (dropShots u).settled :=
  leaves_of_eq (congrArg (fun t => (dropShots t).settled) h) rfl

/-! ### What tillers do -/

/-- Settles O27: TILLER_TAKE by what the queues hold, in the order of R113; SHEAF_COMMIT by the sheaf the tiller runs. -/
theorem tillerWork : Obligations.TillerWork := by
  refine fun s i => ⟨fun hn => ?notLooking, fun hi hidle hrun => ?take,
    fun inp => ⟨fun r b sh ht hs => ?shot, fun r b ht hs => ?lostShot, fun b batch ht => ?block, fun g ht => ?glean, fun hn => ?nothing⟩⟩
  case notLooking => exact tillerTake_leaves (tillerTake_of_not_looking hn)
  case take =>
    have hw : s.LooksForWork i := ⟨hi, hidle, hrun⟩
    refine ⟨fun h hb => ?takesBlock, fun hb => ⟨fun h ht => ?takesShot, fun ht =>
      ⟨fun m hv => ⟨fun h hh => ?steals, fun hh => ?tailBlocked⟩, fun hv => ?noVictim⟩⟩⟩
    case takesBlock => exact tillerTake_leaves (tillerTake_of_block hw hb)
    case takesShot => exact tillerTake_leaves (tillerTake_of_shot hw hb ht)
    case steals => exact tillerTake_leaves (tillerTake_of_victim hw hb ht hv hh)
    case tailBlocked => exact tillerTake_leaves_gleanOrRest (tillerTake_of_blocked_victim hw hb ht hv hh)
    case noVictim => exact tillerTake_leaves_gleanOrRest (tillerTake_of_no_victim hw hb ht hv)
  case shot => exact sheafCommit_leaves (commitSheaf_of_shot ht hs inp)
  case lostShot => exact sheafCommit_leaves (commitSheaf_of_lost_shot ht hs inp)
  case block => exact sheafCommit_leaves (commitSheaf_of_block ht inp)
  case glean => exact sheafCommit_leaves (commitSheaf_of_glean ht inp)
  case nothing => exact sheafCommit_leaves (commitSheaf_of_not_running hn inp)

/-! ### SHEAF_ABORT and SHEAF_OVERRUN (05 R118) -/

/-- Sheaf `h` put back at the head of queue `n`, where it needs no free entry (log 82), and the abort counted. -/
def State.putBack (s : State) (n : Nat) (h : Sheaf) : State :=
  let x := s.til.putIn n (h :: s.til.queue n)
  { s with til := { x with aborts := satAdd 16 x.aborts 1 } }

section
variable {s : State} {i : Nat}

/-- A shot sheaf goes back to the spikelet of the tiller that ran it, also when it was stolen (log 45). -/
theorem abortSheaf_of_shot {r b : Nat} (ht : s.tiller i = .running (.shot r b)) (cause : Nat) :
    abortSheaf s i cause = (s.putBack (i / 16) (.shot r b)).setTiller i (.test cause (Sheaf.ident (.shot r b))) := by
  simp only [abortSheaf, ht, State.putBack]

/-- A block sheaf goes back to its home spikelet. -/
theorem abortSheaf_of_block {b : Nat} {batch : List Row} (ht : s.tiller i = .running (.block b batch)) (cause : Nat) :
    abortSheaf s i cause =
      (s.putBack (s.homeOf b) (.block b batch)).setTiller i (.test cause (Sheaf.ident (.block b batch))) := by
  simp only [abortSheaf, ht, State.putBack]

/-- A glean sheaf is dropped, and its abort is not counted (the model's choice, log 82). -/
theorem abortSheaf_of_glean {g : Nat} (ht : s.tiller i = .running (.glean g)) (cause : Nat) :
    abortSheaf s i cause = s.setTiller i (.test cause (Sheaf.ident (.glean g))) := by simp only [abortSheaf, ht]

theorem abortSheaf_of_not_running (h : ∀ x, s.tiller i ≠ .running x) (cause : Nat) : abortSheaf s i cause = s := by
  cases ht : s.tiller i with
  | running x => exact absurd ht (h x)
  | idle | test | retired => simp only [abortSheaf, ht]

end

/-- SHEAF_ABORT with its cause and SHEAF_OVERRUN with cause 2 abort the sheaf alike. -/
theorem abort_leaves {s u : State} {i cause k : Nat} {c : Instr}
    (hc : (c = .sheafAbort i cause ∧ k = cause) ∨ (c = .sheafOverrun i ∧ k = 2)) (h : abortSheaf s i k = u) : Leaves c s u.settled := by
  rcases hc with ⟨rfl, rfl⟩ | ⟨rfl, rfl⟩
  · exact leaves_of_eq (congrArg State.settled h) rfl
  · exact leaves_of_eq (congrArg State.settled h) rfl

/-! ### TILLER_KAT_DONE (05 R118, R126; 22 R484, R486) -/

/-- The ticks of the transient faults of tiller i within the window, with the one that ends now (22 R486). -/
def State.faultsNow (s : State) (i : Nat) : List Nat := recentFaults (smGet [] s.til.faultTimes i) s.tim.tick

/-- Those ticks kept. -/
def State.faultNoted (s : State) (i : Nat) : State :=
  { s with til := { s.til with faultTimes := smSet [] s.til.faultTimes i (s.faultsNow i) } }

/-- Tiller i is idle again and its transient fault is counted. -/
def State.tillerCleared (s : State) (i : Nat) : State :=
  let u := s.setTiller i .idle
  { u with til := { u.til with transient := satAdd 16 u.til.transient 1, int := u.til.int.raise 1 } }

section
variable {s : State} {i k : Nat} {ident : List Byte}

/-- A failed test retires the tiller with the abort's cause. -/
theorem katDone_of_fail (ht : s.tiller i = .test k ident) :
    katDone s i false = (retireTiller s i).lasting 0x0401 i (leBytes 4 k ++ ident) := by
  simp only [katDone, ht, Bool.false_eq_true, if_false]

/-- The fourth fault within the window retires it with cause 4, though the test passed. -/
theorem katDone_of_fourth (ht : s.tiller i = .test k ident) (h4 : 4 ≤ (s.faultsNow i).length) :
    katDone s i true = (retireTiller (s.faultNoted i) i).lasting 0x0401 i (leBytes 4 4 ++ ident) := by
  simp only [katDone, ht, if_true]
  exact if_pos h4

/-- Before the fourth, a pass puts it back with a transient entry. -/
theorem katDone_of_pass (ht : s.tiller i = .test k ident) (h4 : (s.faultsNow i).length < 4) :
    katDone s i true = ((s.faultNoted i).tillerCleared i).transient 0x0401 i (leBytes 4 k ++ ident) := by
  simp only [katDone, ht, if_true]
  exact if_neg (Nat.not_le.mpr h4)

theorem katDone_of_not_test (h : ∀ k ident, s.tiller i ≠ .test k ident) (pass : Bool) : katDone s i pass = s := by
  cases ht : s.tiller i with
  | test k ident => exact absurd ht (h k ident)
  | idle | running | retired => simp only [katDone, ht]

end

theorem tillerKatDone_leaves {s u : State} {i : Nat} {pass : Bool} (h : katDone s i pass = u) :
    Leaves (.tillerKatDone i pass) s u.settled := leaves_of_eq (congrArg State.settled h) rfl

/-! ### Faults of tillers -/

/-- Settles O28: an abort by the kind of sheaf that ran, the end of a targeted test by its result and the faults within the window. -/
theorem tillerFaults : Obligations.TillerFaults := by
  refine ⟨fun s i cause c k hc => ⟨fun h hr => ?running, fun hn => ?notRunning⟩,
    fun s i => ⟨fun k ident ht => ⟨?fails, fun h4 => ?fourth, fun h4 => ?passes⟩, fun pass hn => ?noTest, rfl⟩⟩
  case running =>
    cases h with
    | shot r b => exact ⟨fun hg => absurd hg Bool.false_ne_true, fun _ => abort_leaves hc (abortSheaf_of_shot hr k)⟩
    | block b batch => exact ⟨fun hg => absurd hg Bool.false_ne_true, fun _ => abort_leaves hc (abortSheaf_of_block hr k)⟩
    | glean g => exact ⟨fun _ => abort_leaves hc (abortSheaf_of_glean hr k), fun hg => absurd hg.symm Bool.false_ne_true⟩
  case notRunning => exact abort_leaves hc (abortSheaf_of_not_running hn k)
  case fails => exact tillerKatDone_leaves (katDone_of_fail ht)
  case fourth => exact tillerKatDone_leaves (katDone_of_fourth ht h4)
  case passes => exact tillerKatDone_leaves (katDone_of_pass ht h4)
  case noTest => exact tillerKatDone_leaves (katDone_of_not_test hn pass)

end Sys2Proof.Machine
end

section
/-! SUPPORT. NORM as the greatest n whose range holds the value, and that range read off the bits (06 R143). -/

namespace Sys2Proof.Machine

/-! ### The ranges of R143 -/

/-- a lies from −2^e to 2^e − 1, the range of R143 with e = 47 − n. -/
abbrev FitsPow (e : Nat) (a : Int) : Prop := -2 ^ e ≤ a ∧ a ≤ 2 ^ e - 1

section
variable {a : Int} {d e n w : Nat}

theorem FitsPow.mono (hde : d ≤ e) (h : FitsPow d a) : FitsPow e a := by
  obtain ⟨hlo, hhi⟩ := h
  have hpow : (2 : Int) ^ d ≤ 2 ^ e := pow_le_pow_right₀ (by decide) hde
  exact ⟨by omega, by omega⟩

theorem fitsPow_ofNat (e m : Nat) : FitsPow e (Int.ofNat m) ↔ m < 2 ^ e := by
  have hcast : ((2 ^ e : Nat) : Int) = 2 ^ e := Nat.cast_pow 2 e
  simp only [FitsPow, Int.ofNat_eq_natCast]
  omega

/-- The other sign: −(m + 1) fits exactly where m does, the range being symmetric under complement. -/
theorem fitsPow_negSucc (e m : Nat) : FitsPow e (Int.negSucc m) ↔ m < 2 ^ e := by
  have hcast : ((2 ^ e : Nat) : Int) = 2 ^ e := Nat.cast_pow 2 e
  simp only [FitsPow, Int.negSucc_eq]
  omega

/-! ### NORM is the greatest n whose range holds the value -/

theorem normFrom_eq_findGreatest (a : Int) (f : Nat) : normFrom a f = Nat.findGreatest (fun n => FitsPow (47 - n) a) f := by
  induction f with
  | zero => rfl
  | succ f ih => simp only [normFrom, Nat.findGreatest_succ, ih, FitsPow, Nat.cast_pow, Nat.cast_ofNat]

theorem norm48_eq_findGreatest (a : Int) : norm48 a = Nat.findGreatest (fun n => FitsPow (47 - n) a) 47 :=
  normFrom_eq_findGreatest a 47

theorem norm48_le (a : Int) : norm48 a ≤ 47 := by
  rw [norm48_eq_findGreatest]
  exact Nat.findGreatest_le 47

theorem fitsPow_norm48 (h : FitsPow 47 a) : FitsPow (47 - norm48 a) a := by
  rw [norm48_eq_findGreatest]
  exact Nat.findGreatest_spec (P := fun n => FitsPow (47 - n) a) (Nat.zero_le 47) h

theorem le_norm48 (hn : n ≤ 47) (h : FitsPow (47 - n) a) : n ≤ norm48 a := by
  rw [norm48_eq_findGreatest]
  exact Nat.le_findGreatest hn h

/-- The ranges an int48 lies in are those from 47 − NORM up. -/
theorem norm48_sub_le_iff_fitsPow (h : FitsPow 47 a) (he : e ≤ 47) : 47 - norm48 a ≤ e ↔ FitsPow e a := by
  refine ⟨fun hle => (fitsPow_norm48 h).mono hle, fun hfits => ?_⟩
  have hnorm : 47 - e ≤ norm48 a := le_norm48 (Nat.sub_le 47 e) (by rwa [Nat.sub_sub_self he])
  omega

/-! ### The range read off the bits -/

theorem lt_two_pow_iff_testBit_eq_false {m : Nat} (hm : m < 2 ^ w) :
    m < 2 ^ e ↔ ∀ k, e ≤ k → k < w → m.testBit k = false := by
  refine ⟨fun h k hek _ => Nat.testBit_lt_two_pow (h.trans_le (Nat.pow_le_pow_right two_pos hek)), fun h => ?_⟩
  refine Nat.lt_pow_two_of_testBit m fun k hek => ?_
  rcases Nat.lt_or_ge k w with hkw | hwk
  · exact h k hek hkw
  · exact Nat.testBit_lt_two_pow (hm.trans_le (Nat.pow_le_pow_right two_pos hwk))

theorem msb_ofInt_of_fitsPow (h : FitsPow w a) : (BitVec.ofInt (w + 1) a).msb = decide (a < 0) := by
  obtain ⟨hlo, hhi⟩ := h
  rw [BitVec.msb_eq_toInt, BitVec.toInt_ofInt_eq_self w.succ_pos hlo (Int.lt_of_le_sub_one hhi)]

theorem getLsbD_ofInt_ofNat {k : Nat} (m : Nat) (hk : k < w) : (BitVec.ofInt w (Int.ofNat m)).getLsbD k = m.testBit k := by
  rw [Int.ofNat_eq_natCast, BitVec.ofInt_natCast, BitVec.getLsbD_ofNat, decide_eq_true hk, Bool.true_and]

theorem getLsbD_ofInt_negSucc {k : Nat} (m : Nat) (hk : k < w) : (BitVec.ofInt w (Int.negSucc m)).getLsbD k = !m.testBit k := by
  rw [BitVec.ofInt_negSucc_eq_not_ofNat, BitVec.getLsbD_not, BitVec.getLsbD_ofNat, decide_eq_true hk, Bool.true_and, Bool.true_and]

/-- A word of w + 1 bits lies in the range of exponent e exactly when its bits from e up repeat the sign bit: a value from 0 up is its own
bits, one below 0 the complement of the bits of −1 − a. -/
theorem fitsPow_iff_bits_eq_msb (h : FitsPow w a) :
    FitsPow e a ↔ ∀ k, e ≤ k → k < w → (BitVec.ofInt (w + 1) a).getLsbD k = (BitVec.ofInt (w + 1) a).msb := by
  rw [msb_ofInt_of_fitsPow h]
  cases a with
  | ofNat m =>
    have hnonneg : ¬ Int.ofNat m < 0 := Int.not_lt.mpr (Int.natCast_nonneg m)
    rw [fitsPow_ofNat, lt_two_pow_iff_testBit_eq_false ((fitsPow_ofNat w m).mp h)]
    refine forall₃_congr fun k _ hkw => ?_
    rw [getLsbD_ofInt_ofNat m (Nat.lt_succ_of_lt hkw), decide_eq_false hnonneg]
  | negSucc m =>
    rw [fitsPow_negSucc, lt_two_pow_iff_testBit_eq_false ((fitsPow_negSucc w m).mp h)]
    refine forall₃_congr fun k _ hkw => ?_
    rw [getLsbD_ofInt_negSucc m (Nat.lt_succ_of_lt hkw), decide_eq_true (Int.negSucc_lt_zero m), Bool.not_eq_true']

end

/-! ### NORM and NORM16 -/

/-- Settles O60: NORM as the greatest n whose range holds the value, and the range as the repeats of the sign bit. -/
theorem normRule : Obligations.NormRule := by
  refine ⟨fun a hlo hhi => ?norm, by decide, by decide, fun v hlo hhi => ?norm16⟩
  case norm =>
    have hfits : FitsPow 47 a := ⟨hlo, Int.le_sub_one_of_lt hhi⟩
    obtain ⟨hnlo, hnhi⟩ := fitsPow_norm48 hfits
    refine ⟨norm48_le a, hnlo, hnhi, fun n hlt hn hfit => ?_, fun n hn => ?_⟩
    · exact Nat.not_lt.mpr (le_norm48 hn hfit) hlt
    · exact (norm48_sub_le_iff_fitsPow hfits hn.le).trans (fitsPow_iff_bits_eq_msb hfits)
  case norm16 =>
    have h32 : 32 ≤ norm48 v := le_norm48 (by decide) ⟨hlo, Int.le_sub_one_of_lt hhi⟩
    have h47 := norm48_le v
    simp only [norm16]
    omega

end Sys2Proof.Machine
end

section
/-! SUPPORT. The commands RETRAIN and QS_REF (08 R179; 10 R229; 18 R400). -/

namespace Sys2Proof.Machine

/-! ### The blocks a command lists -/

/-- The list names a block outside the plan's. -/
def State.NamesStray (s : State) (blocks : List Nat) : Prop := ∃ b ∈ blocks, s.conf.probe.nblocks ≤ b

theorem State.namesStray_iff_any (s : State) (blocks : List Nat) :
    s.NamesStray blocks ↔ (blocks.any fun b => decide (s.conf.probe.nblocks ≤ b)) = true := by
  simp [State.NamesStray]

/-- The blocks a list stands for: none listed are all blocks. -/
def blocksNamed (blocks : List Nat) : Option (List Nat) := if blocks = [] then none else some blocks

/-! ### RETRAIN (08 R179; log 13) -/

section
variable {s : State} {blocks : List Nat}

theorem retrainCmd_of_stray (h : s.NamesStray blocks) : retrainCmd s blocks = (s, plain .invalid) :=
  if_pos ((s.namesStray_iff_any blocks).mp h)

/-- In acquisition the restart waits for the first boundary at least 2 ms away, and the answer is the expected end of the training. -/
theorem retrainCmd_of_acquiring (h : ¬ s.NamesStray blocks) (ha : s.acquiring = true) :
    retrainCmd s blocks = (s.askRestart (blocksNamed blocks) false (s.tim.tick + 2 * msTicks),
      withData .deferred (leBytes 4 (s.trainEndOf (s.boundaryIdxFrom (s.tim.tick + 2 * msTicks))
        (s.boundaryFrom (s.tim.tick + 2 * msTicks)) 0))) := by
  rw [s.namesStray_iff_any] at h
  exact (if_neg h).trans (if_pos ha)

theorem retrainCmd_of_not_acquiring (h : ¬ s.NamesStray blocks) (ha : s.acquiring = false) :
    retrainCmd s blocks = (s, withData .deferred (leBytes 4 s.conf.phase.ntrain)) := by
  rw [s.namesStray_iff_any] at h
  exact (if_neg h).trans (if_neg (Bool.eq_false_iff.mp ha))

end

/-! ### QS_REF (10 R229) -/

/-- A pending QS_REF ends SUPERSEDED with its interrupt. -/
def State.supersedeQsRef (s : State) : State :=
  match s.qss.cmd with
  | some c => ({ s with qss := { s.qss with int := s.qss.int.raise 5 } } : State).setReq c.req .superseded 0
  | none => s

/-- A QS_REF of these blocks pending under a request number of its own. -/
def State.holdQsRef (s : State) (mode : Nat) (blocks : List Nat) : State :=
  { s.newReq.2 with qss := { s.newReq.2.qss with cmd := some {
      req := s.newReq.1, mode := mode, blocks := blocksNamed blocks, done := [], tick := s.newReq.2.tim.tick } } }

section
variable {s : State} {mode : Nat} {blocks : List Nat}

theorem qsRefCmd_of_refused (h : 1 < mode ∨ s.NamesStray blocks) : qsRefCmd s mode blocks = (s, plain .invalid) := by
  rw [s.namesStray_iff_any] at h
  exact if_pos h

/-- An accepted QS_REF takes the place of the pending one and answers with its request number. -/
theorem qsRefCmd_of_accepted (hm : mode ≤ 1) (hb : ¬ s.NamesStray blocks) : qsRefCmd s mode blocks =
    (s.supersedeQsRef.holdQsRef mode blocks, withData .deferred (leBytes 4 s.supersedeQsRef.newReq.1)) := by
  rw [s.namesStray_iff_any] at hb
  exact if_neg (not_or.mpr ⟨Nat.not_lt.mpr hm, hb⟩)

end

/-! ### The statement -/

/-- RETRAIN is a command that answers at once. -/
theorem exec_retrain (h : Hdr) (blocks : List Nat) (s : State) :
    exec (.retrain h blocks) s = s.done (s.command1 h 0x0016 1 fun s _ => retrainCmd s blocks) := rfl

/-- QS_REF is a command that answers at once. -/
theorem exec_qsRef (h : Hdr) (mode : Nat) (blocks : List Nat) (s : State) :
    exec (.qsRef h mode blocks) s = s.done (s.command1 h 0x0017 1 fun s _ => qsRefCmd s mode blocks) := rfl

section
variable {s u : State} {h : Hdr} {x : Session} {blocks : List Nat} {r : Response}

/-- A ready RETRAIN leaves what its operation leaves of the state entered, with the operation's answer. -/
theorem retrain_leaves (hr : Ready s h 0x0016 1 x) (he : retrainCmd (s.entered h) blocks = (u, r)) :
    Leaves (.retrain h blocks) s (u.answer h.sid h.seq r) :=
  command1_leaves hr (fun s _ => retrainCmd s blocks) (exec_retrain h blocks s) he

/-- A ready QS_REF leaves what its operation leaves of the state entered, with the operation's answer. -/
theorem qsRef_leaves {mode : Nat} (hr : Ready s h 0x0017 1 x) (he : qsRefCmd (s.entered h) mode blocks = (u, r)) :
    Leaves (.qsRef h mode blocks) s (u.answer h.sid h.seq r) :=
  command1_leaves hr (fun s _ => qsRefCmd s mode blocks) (exec_qsRef h mode blocks s) he

end

/-- Settles O31: each command by the equation of its operation, refused for a block outside the plan's, or taken. -/
theorem trainingCommands : Obligations.TrainingCommands := by
  refine fun s h x blocks => ⟨fun hr => ⟨fun hw => ?stray, fun hw ha => ?restart, fun hw ha => ?outside⟩,
    fun hr mode => ⟨fun hw => ?refused, fun hm hw => ?taken⟩⟩
  case stray => exact retrain_leaves hr (retrainCmd_of_stray hw)
  case restart => exact retrain_leaves hr (retrainCmd_of_acquiring hw ha)
  case outside => exact retrain_leaves hr (retrainCmd_of_not_acquiring hw ha)
  case refused => exact qsRef_leaves hr (qsRefCmd_of_refused hw)
  case taken => exact qsRef_leaves hr (qsRefCmd_of_accepted hm hw)

end Sys2Proof.Machine
end

section
/-! SUPPORT. SYNC by pad and by command (09 R193 to R195; 18 R400; 21 R461). -/

namespace Sys2Proof.Machine

/-! ### The enabled source and the cascade member (09 R193; 21 R461) -/

theorem State.syncByPad_iff (s : State) : s.syncByPad = true ↔ s.conf.dec.syncSrc = 1 ∨ s.conf.dec.syncSrc = 3 := by
  simp [State.syncByPad]

theorem State.syncByCmd_iff (s : State) : s.syncByCmd = true ↔ s.conf.dec.syncSrc = 2 ∨ s.conf.dec.syncSrc = 3 := by
  simp [State.syncByCmd]

/-- The module is configured for a cascade and has joined it. -/
def State.IsMember (s : State) : Prop := s.conf.cascade.role ≠ 0 ∧ s.cas.joined = true

/-! ### The index taken (09 R195; 21 R461) -/

/-- A different index that was pending is replaced and counted; the same index taken again is not. -/
theorem takeSync_eq (s : State) (ns : Nat) : takeSync s ns = { s with dec := { s.dec with
    syncPend := some ns
    replaced := if s.dec.syncPend.isSome ∧ s.dec.syncPend ≠ some ns then satAdd 16 s.dec.replaced 1 else s.dec.replaced } } := by
  unfold takeSync
  cases hp : s.dec.syncPend with
  | none => simp
  | some n => by_cases hn : n = ns <;> simp [hn]

/-- The master of a joined cascade sends the index it takes to the members. -/
theorem chooseSync_of_master {s : State} (hj : s.cas.joined = true) (hm : s.cas.master = true) (ns : Nat) :
    chooseSync s ns = (takeSync s ns).sendRing (.syncIdx ns) := if_pos ⟨hj, hm⟩

/-! ### SYNC_P/N (09 R193, R194; 21 R461) -/

section
variable {s : State}

theorem syncPad_of_ignored (h : (s.conf.dec.syncSrc ≠ 1 ∧ s.conf.dec.syncSrc ≠ 3) ∨ s.acquiring = false) :
    syncPad s = ignoreSync s := by
  refine if_pos (h.imp (fun hsrc => ?_) fun ha => by rw [ha]; rfl)
  rw [Bool.not_eq_true', Bool.eq_false_iff, Ne, s.syncByPad_iff, not_or]
  exact hsrc

/-- An edge the source and the mode admit takes effect by the module's place in the cascade. -/
theorem syncPad_of_admitted (hsrc : s.conf.dec.syncSrc = 1 ∨ s.conf.dec.syncSrc = 3) (ha : s.acquiring = true) :
    syncPad s = if s.conf.cascade.role ≠ 0 ∧ s.cas.joined = true then
        if s.cas.master = true then chooseSync s (s.syncAfter (2 * msTicks)) else s
      else takeSync s (s.syncAfter msTicks) :=
  if_neg (by rw [s.syncByPad_iff.mpr hsrc, ha]; decide)

variable (hsrc : s.conf.dec.syncSrc = 1 ∨ s.conf.dec.syncSrc = 3) (ha : s.acquiring = true)
include hsrc ha

theorem syncPad_of_not_member (hn : ¬ s.IsMember) : syncPad s = takeSync s (s.syncAfter msTicks) :=
  (syncPad_of_admitted hsrc ha).trans (if_neg hn)

theorem syncPad_of_master (hj : s.IsMember) (hm : s.cas.master = true) :
    syncPad s = (takeSync s (s.syncAfter (2 * msTicks))).sendRing (.syncIdx (s.syncAfter (2 * msTicks))) :=
  calc syncPad s
    _ = _ := syncPad_of_admitted hsrc ha
    _ = _ := if_pos hj
    _ = chooseSync s (s.syncAfter (2 * msTicks)) := if_pos hm
    _ = _ := chooseSync_of_master hj.2 hm _

theorem syncPad_of_follower (hj : s.IsMember) (hm : s.cas.master = false) : syncPad s = s :=
  (syncPad_of_admitted hsrc ha).trans ((if_pos hj).trans (if_neg (Bool.eq_false_iff.mp hm)))

end

/-! ### The SYNC command (09 R193, R194; 18 R400; 21 R461) -/

/-- A joined member of a cascade that is not its master. -/
def State.IsFollower (s : State) : Prop := s.conf.cascade.role ≠ 0 ∧ s.cas.joined = true ∧ s.cas.master = false

section
variable {s : State}

theorem syncCmd_of_source_off (h : ¬ (s.conf.dec.syncSrc = 2 ∨ s.conf.dec.syncSrc = 3)) :
    syncCmd s = (ignoreSync s, plain .denied) := by
  rw [← s.syncByCmd_iff] at h
  exact if_pos (by simpa using h)

/-- A command the source admits is judged by the module's place in the cascade, then by the mode. -/
theorem syncCmd_of_source_on (h : s.conf.dec.syncSrc = 2 ∨ s.conf.dec.syncSrc = 3) :
    syncCmd s = if s.conf.cascade.role ≠ 0 ∧ s.cas.joined = true ∧ (!s.cas.master) = true then (s, plain .conflict)
      else if (!s.acquiring) = true then (ignoreSync s, plain .busy)
      else (chooseSync s (s.syncAfter msTicks), withData .deferred (leBytes 8 (s.syncAfter msTicks))) :=
  if_neg (by rw [s.syncByCmd_iff.mpr h]; decide)

variable (hsrc : s.conf.dec.syncSrc = 2 ∨ s.conf.dec.syncSrc = 3)
include hsrc

theorem syncCmd_of_follower (hf : s.IsFollower) : syncCmd s = (s, plain .conflict) := by
  obtain ⟨hrole, hj, hm⟩ := hf
  exact (syncCmd_of_source_on hsrc).trans (if_pos ⟨hrole, hj, by rw [hm]; rfl⟩)

theorem syncCmd_of_not_follower (hf : ¬ s.IsFollower) :
    syncCmd s = if (!s.acquiring) = true then (ignoreSync s, plain .busy)
      else (chooseSync s (s.syncAfter msTicks), withData .deferred (leBytes 8 (s.syncAfter msTicks))) :=
  (syncCmd_of_source_on hsrc).trans (if_neg fun ⟨hrole, hj, hm⟩ => hf ⟨hrole, hj, Bool.not_eq_true' _ |>.mp hm⟩)

theorem syncCmd_of_not_acquiring (hf : ¬ s.IsFollower) (ha : s.acquiring = false) :
    syncCmd s = (ignoreSync s, plain .busy) :=
  (syncCmd_of_not_follower hsrc hf).trans (if_pos (by rw [ha]; rfl))

theorem syncCmd_of_acquiring (hf : ¬ s.IsFollower) (ha : s.acquiring = true) :
    syncCmd s = (chooseSync s (s.syncAfter msTicks), withData .deferred (leBytes 8 (s.syncAfter msTicks))) :=
  (syncCmd_of_not_follower hsrc hf).trans (if_neg (by rw [ha]; decide))

end

/-! ### SYNC from its sources -/

theorem syncPadEdge_leaves {s u : State} (h : syncPad s = u) : Leaves .syncPadEdge s u := leaves_of_eq h rfl

/-- SYNC is a command that answers at once. -/
theorem exec_sync (h : Hdr) (s : State) : exec (.sync h) s = s.done (s.command1 h 0x0015 1 fun s _ => syncCmd s) := rfl

/-- A ready SYNC leaves what its operation leaves of the state entered, with the operation's answer. -/
theorem sync_leaves {s u : State} {h : Hdr} {x : Session} {r : Response} (hr : Ready s h 0x0015 1 x)
    (he : syncCmd (s.entered h) = (u, r)) : Leaves (.sync h) s (u.answer h.sid h.seq r) :=
  command1_leaves hr (fun s _ => syncCmd s) (exec_sync h s) he

/-- Settles O30: the pad by source, mode and place in the cascade; the command by the order in which its refusals are judged. -/
theorem syncSources : Obligations.SyncSources := by
  refine ⟨fun s => ⟨fun hi => ?padIgnored, fun hsrc ha => ⟨fun hn => ?padAlone, fun hj hm => ?padMaster, fun hj hm => ?padFollower⟩,
      fun ns => ?taken⟩,
    fun s h x hr => ⟨fun hsrc => ?denied, fun hsrc hf => ?conflict, fun hsrc hf ha => ?busy, fun hsrc hf ha => ?deferred⟩⟩
  case padIgnored => exact syncPadEdge_leaves (syncPad_of_ignored hi)
  case padAlone => exact syncPadEdge_leaves (syncPad_of_not_member hsrc ha hn)
  case padMaster => exact syncPadEdge_leaves (syncPad_of_master hsrc ha hj hm)
  case padFollower => exact syncPadEdge_leaves (syncPad_of_follower hsrc ha hj hm)
  case taken => exact takeSync_eq s ns
  case denied => exact sync_leaves hr (syncCmd_of_source_off hsrc)
  case conflict => exact sync_leaves hr (syncCmd_of_follower hsrc hf)
  case busy => exact sync_leaves hr (syncCmd_of_not_acquiring hsrc hf ha)
  case deferred => exact sync_leaves hr (syncCmd_of_acquiring hsrc hf ha)

end Sys2Proof.Machine
end

section
/-! SUPPORT. The command BANK_SWAP (09 R202 to R204, R521; 18 R400; log 78). -/

namespace Sys2Proof.Machine

/-! ### What BANK_SWAP asks for (09 R202) -/

/-- The request names a loaded bank and a length of the range, or none. -/
def State.SwapGood (s : State) (target nx : Nat) : Prop :=
  target ≤ 2 ∧ (nx = 0 ∨ (16 ≤ nx ∧ nx ≤ 4096)) ∧ (s.conf.bank target).loaded = true

theorem State.not_swapGood_iff (s : State) (target nx : Nat) : ¬ s.SwapGood target nx ↔
    2 < target ∨ (nx ≠ 0 ∧ (nx < 16 ∨ 4096 < nx)) ∨ (s.conf.bank target).loaded = false := by
  simp only [State.SwapGood, not_and_or, not_or, Nat.not_le, Bool.not_eq_true, ne_eq]

/-- The length of a crossfade of NX outputs: 0 stands for XFADE_LEN. -/
def State.swapLen (s : State) (nx : Nat) : Nat := if nx = 0 then s.conf.dec.xfadeLen else nx

/-! ### The three ways a request is taken (09 R202, R204, R521) -/

/-- A crossfade to the target from the bank in force, of `len` outputs from q_x on, under a request number of its own. -/
def State.setFade (s : State) (target len : Nat) : State :=
  { s.newReq.2 with dec := { s.newReq.2.dec with
      xf := some { req := s.newReq.1, src := s.newReq.2.dec.bank, dst := target, qx := s.swapStart, len := len, started := false }
      xfStart := s.swapStart, xfLen := len } }

/-- The request pending behind the crossfade is superseded. -/
def State.dropPendingSwap (s : State) : State :=
  match s.dec.swap with
  | some p => supersedeSwap { s with dec := { s.dec with swap := none } } p.req
  | none => s

/-- A swap pending behind the crossfade. -/
def State.pendSwap (s : State) (target len : Nat) : State :=
  { s.newReq.2 with dec := { s.newReq.2.dec with swap := some { req := s.newReq.1, bank := target, len := len } } }

/-- A swap held for the next acquisition. -/
def State.holdSwap (s : State) (target len : Nat) : State :=
  { s.newReq.2 with dec := { s.newReq.2.dec with heldSwap := some { req := s.newReq.1, bank := target, len := len } } }

/-! ### The cases of BANK_SWAP -/

theorem bankSwapCmd_of_not_good {s : State} {target nx : Nat} (h : ¬ s.SwapGood target nx) :
    bankSwapCmd s target nx = (s, plain .invalid) := if_pos ((s.not_swapGood_iff target nx).mp h)

section
variable {s : State} {target nx : Nat} (hg : s.SwapGood target nx)
include hg

/-- None of the refusals of an ill-formed request holds. -/
theorem State.SwapGood.not_refused :
    ¬ (2 < target ∨ (nx ≠ 0 ∧ (nx < 16 ∨ 4096 < nx)) ∨ (s.conf.bank target).loaded = false) :=
  fun h => (s.not_swapGood_iff target nx).mpr h hg

theorem bankSwapCmd_of_in_force (ha : s.acquiring = true) (hx : s.dec.xf = none) (ht : target = s.dec.bank) :
    bankSwapCmd s target nx = (s, plain .ok) := by
  simp only [bankSwapCmd, if_neg hg.not_refused, if_pos ha, hx, if_pos ht]

theorem bankSwapCmd_of_fade (ha : s.acquiring = true) (hx : s.dec.xf = none) (ht : target ≠ s.dec.bank) :
    bankSwapCmd s target nx =
      (s.setFade target (s.swapLen nx), withData .deferred (reqData s.newReq.1 s.swapStart)) := by
  simp only [bankSwapCmd, if_neg hg.not_refused, if_pos ha, hx, if_neg ht, State.setFade, State.swapLen]

/-- A request for the target of the crossfade under way is applied with it (the model's choice, log 78). -/
theorem bankSwapCmd_of_same_target {y : Xfade} (ha : s.acquiring = true) (hx : s.dec.xf = some y) (ht : target = y.dst) :
    bankSwapCmd s target nx = (s.dropPendingSwap.newReq.2.setReq s.dropPendingSwap.newReq.1 .applied y.qx,
      withData .deferred (reqData s.dropPendingSwap.newReq.1 y.qx)) := by
  cases hp : s.dec.swap <;>
    simp only [bankSwapCmd, if_neg hg.not_refused, if_pos ha, hx, if_pos ht, hp, State.dropPendingSwap]

/-- A request for another bank waits for the end of the crossfade, so that its q_x is the crossfade's q_x + NX. -/
theorem bankSwapCmd_of_other_target {y : Xfade} (ha : s.acquiring = true) (hx : s.dec.xf = some y) (ht : target ≠ y.dst) :
    bankSwapCmd s target nx = (s.dropPendingSwap.pendSwap target (s.swapLen nx),
      withData .deferred (reqData s.dropPendingSwap.newReq.1 (y.qx + y.len))) := by
  cases hp : s.dec.swap <;>
    simp only [bankSwapCmd, if_neg hg.not_refused, if_pos ha, hx, if_neg ht, hp, State.dropPendingSwap, State.pendSwap, State.swapLen]

theorem bankSwapCmd_of_idle_in_force (ha : s.acquiring = false) (hh : s.dec.heldSwap = none) (ht : target = s.bankNow) :
    bankSwapCmd s target nx = (s, plain .ok) := by
  simp only [bankSwapCmd, if_neg hg.not_refused, if_neg (Bool.eq_false_iff.mp ha), hh, if_pos ht]

theorem bankSwapCmd_of_idle (ha : s.acquiring = false) (hh : s.dec.heldSwap = none) (ht : target ≠ s.bankNow) :
    bankSwapCmd s target nx = (s.holdSwap target (s.swapLen nx), withData .deferred (reqData s.newReq.1 0)) := by
  simp only [bankSwapCmd, if_neg hg.not_refused, if_neg (Bool.eq_false_iff.mp ha), hh, if_neg ht, State.holdSwap, State.swapLen]

/-- Outside acquisition a request takes the place of the one held, whatever bank it names. -/
theorem bankSwapCmd_of_held {p : SwapReq} (ha : s.acquiring = false) (hh : s.dec.heldSwap = some p) :
    bankSwapCmd s target nx = ((supersedeSwap s p.req).holdSwap target (s.swapLen nx),
      withData .deferred (reqData (supersedeSwap s p.req).newReq.1 0)) := by
  simp only [bankSwapCmd, if_neg hg.not_refused, if_neg (Bool.eq_false_iff.mp ha), hh, State.holdSwap, State.swapLen]

end

/-! ### The statement -/

/-- BANK_SWAP is a command that answers at once. -/
theorem exec_bankSwap (h : Hdr) (target nx : Nat) (s : State) :
    exec (.bankSwap h target nx) s = s.done (s.command1 h 0x0018 1 fun s _ => bankSwapCmd s target nx) := rfl

/-- A ready BANK_SWAP leaves what its operation leaves of the state entered, with the operation's answer. -/
theorem bankSwap_leaves {s u : State} {h : Hdr} {x : Session} {target nx : Nat} {r : Response} (hr : Ready s h 0x0018 1 x)
    (he : bankSwapCmd (s.entered h) target nx = (u, r)) : Leaves (.bankSwap h target nx) s (u.answer h.sid h.seq r) :=
  command1_leaves hr (fun s _ => bankSwapCmd s target nx) (exec_bankSwap h target nx s) he

/-- Settles O32: refused when ill-formed; in acquisition by whether a crossfade is under way, else by whether a request is held. -/
theorem bankSwapCommand : Obligations.BankSwapCommand := by
  refine fun s h x hr target nx => ⟨fun hg => ?invalid,
    fun hg ha => ⟨fun hx => ⟨fun ht => ?inForce, fun ht => ?fade⟩, fun y hx => ⟨fun ht => ?sameTarget, fun ht => ?otherTarget⟩⟩,
    fun hg ha => ⟨fun hh ht => ?idleInForce, fun hh ht => ?idle, fun p hh => ?held⟩⟩
  case invalid => exact bankSwap_leaves hr (bankSwapCmd_of_not_good hg)
  case inForce => exact bankSwap_leaves hr (bankSwapCmd_of_in_force hg ha hx ht)
  case fade => exact bankSwap_leaves hr (bankSwapCmd_of_fade hg ha hx ht)
  case sameTarget => exact bankSwap_leaves hr (bankSwapCmd_of_same_target hg ha hx ht)
  case otherTarget => exact bankSwap_leaves hr (bankSwapCmd_of_other_target hg ha hx ht)
  case idleInForce => exact bankSwap_leaves hr (bankSwapCmd_of_idle_in_force hg ha hh ht)
  case idle => exact bankSwap_leaves hr (bankSwapCmd_of_idle hg ha hh ht)
  case held => exact bankSwap_leaves hr (bankSwapCmd_of_held hg ha hh)

end Sys2Proof.Machine
end

section
/-! SUPPORT. The Raman channel: the end of an average, the partner's trace and the fallback without it (11 R243, R246 to R250;
21 R450). -/

namespace Sys2Proof.Machine

/-! ### A message of the ring for this module (21 R450) -/

/-- A message with a good CRC from another member, addressed to this module, is taken and not passed on. -/
theorem State.ringIn_of_addressed {s : State} {h : RingHdr} (hr : s.inRing = true) (hc : h.crcOk = true)
    (hs : h.src ≠ s.conf.cascade.rank) (hd : h.dst = s.conf.cascade.rank) (m : RingMsg) (f : State → State) :
    s.ringIn h m f = f s := by
  have hp : s.passOn h m = s := if_pos hd
  simp only [State.ringIn, hr, hc, Bool.not_true, Bool.false_eq_true, if_false, if_neg hs, if_pos (Or.inl hd), hp]

/-! ### What handing out the rows leaves (11 R250, R252) -/

/-- The stream units of a Raman row leave the Raman channel alone. -/
theorem foldl_handUnit_dts (n : Nat) (row : Nat → StreamUnit) (l : List Nat) (s : State) :
    (l.foldl (fun s g => s.handUnit n (row g)) s).dts = s.dts := by
  induction l generalizing s with
  | nil => rfl
  | cons g l ih => rw [List.foldl_cons, ih, State.handUnit_dts]

/-- A fallback is counted with its interrupt. -/
theorem dtsRows_of_fallback (s : State) (a : DtsAvg) :
    (dtsRows s a .fallback).dts.fallback = satAdd 16 s.dts.fallback 1 ∧
      (dtsRows s a .fallback).dts.int = s.dts.int.raise 2 := by
  unfold dtsRows
  exact ⟨congrArg Dts.fallback (foldl_handUnit_dts ..), congrArg Dts.int (foldl_handUnit_dts ..)⟩

/-! ### The oldest complete average (11 R243) -/

/-- The Raman channel once the average in progress is complete, where none waits and its last trace lies in the past. -/
def State.dtsDue (s : State) : Dts := if s.dts.complete = [] ∧ s.dtsOver then s.dts.close s.conf else s.dts

/-- The state with the oldest complete average taken out for its evaluation, `l` being left to wait. -/
def State.dtsTaken (s : State) (l : List DtsRun) : State := { s with dts := { s.dtsDue with complete := l } }

section
variable {s : State} (corrupt : List Nat)

theorem dtsAverageEnd_of_none (h : s.dts.running = false ∨ s.dtsDue.complete = []) : dtsAverageEnd s corrupt = s := by
  unfold dtsAverageEnd
  rw [← State.dtsDue]
  obtain hr | hc := h
  · rw [hr]; rfl
  · simp only [hc, ite_self]

theorem dtsAverageEnd_of_complete {r : DtsRun} {l : List DtsRun} (hr : s.dts.running = true) (hc : s.dtsDue.complete = r :: l) :
    dtsAverageEnd s corrupt = dtsFinish (s.dtsTaken l) r corrupt := by
  unfold dtsAverageEnd
  rw [← State.dtsDue, hr]
  simp only [hc]
  rfl

end

/-! ### Its evaluation (11 R243, R246, R248 to R250) -/

/-- The results of average `r` kept: its calibration constant, reference, backgrounds and corrupt positions; the readings up to its end
are used up. -/
def State.keepAverage (s : State) (r : DtsRun) (corrupt : List Nat) : State :=
  let a := dtsEvaluate s r corrupt
  let background (acc : SMap Nat) : Nat := (roundEven (8 * darkSum acc r.cfg) (r.nUsed * r.cfg.darkLen)).toNat % 65536
  { s with dts := { s.dts with
    lnc := a.lnc, coilHeld := a.coilHeld, lastAvg := r.avg % 2 ^ 32
    tref := if a.tref.2 = 0 then -32768 else roundEven a.tref.1 a.tref.2
    bgAs := background r.accAs, bgSt := background r.accSt
    readings := s.dts.readings.filter fun x => decide (r.lastG0 < x.1)
    corrupt := satAdd 16 s.dts.corrupt (corrupt.filter fun i => decide (i < r.cfg.pDts)).length
    int := (s.dts.int.raise 0).raiseIf a.coilHeld 1 } }

/-- Its ln R trace sent to the partner as well (11 R248). -/
def State.sendAverage (s : State) (r : DtsRun) (corrupt : List Nat) : State :=
  (s.keepAverage r corrupt).sendRing (.dtsTrace (dtsEvaluate s r corrupt).avg (dtsEvaluate s r corrupt).sent)

/-- The partner's trace of average `j`, where it has come before the evaluation here. -/
def State.partnerTrace (s : State) (j : Nat) : Option (Nat × List (Option Int)) := s.dts.partner.find? fun p => p.1 == j

/-- The partner's traces up to average `j` are of no use any more. -/
def State.dropPartner (s : State) (j : Nat) : State :=
  { s with dts := { s.dts with partner := s.dts.partner.filter fun q => decide (j < q.1) } }

/-- Average `a` waits for its partner trace. -/
def State.awaitPartner (s : State) (a : DtsAvg) : State := { s with dts := { s.dts with waits := s.dts.waits ++ [a] } }

/-- Average `a`, evaluated in a dual-ended loop, goes out with its partner trace, or waits for it (11 R249, R250). -/
def State.pairAverage (s : State) (a : DtsAvg) : State :=
  match s.partnerTrace a.avg with
  | some p => dtsRows (s.dropPartner a.avg) a (.dual p.2)
  | none => s.awaitPartner a

theorem State.pairAverage_of_none {s : State} {a : DtsAvg} (h : s.partnerTrace a.avg = none) :
    s.pairAverage a = s.awaitPartner a := by rw [State.pairAverage, h]

theorem State.pairAverage_of_some {s : State} {a : DtsAvg} {p : Nat × List (Option Int)} (h : s.partnerTrace a.avg = some p) :
    s.pairAverage a = dtsRows (s.dropPartner a.avg) a (.dual p.2) := by rw [State.pairAverage, h]

section
variable {s : State} {r : DtsRun} (corrupt : List Nat)

theorem dtsFinish_of_empty (hu : r.nUsed = 0) :
    dtsFinish s r corrupt = { s with dts := { s.dts with empty := satAdd 16 s.dts.empty 1 } } := if_pos hu

variable (hu : r.nUsed ≠ 0)
include hu

theorem dtsFinish_of_single (hd : s.dualEnded = false) :
    dtsFinish s r corrupt = dtsRows (s.keepAverage r corrupt) (dtsEvaluate s r corrupt) .single := by
  rw [dtsFinish, if_neg hu]
  exact if_neg (Bool.eq_false_iff.mp hd)

theorem dtsFinish_of_dual (hd : s.dualEnded = true) :
    dtsFinish s r corrupt = (s.sendAverage r corrupt).pairAverage (dtsEvaluate s r corrupt) := by
  rw [dtsFinish, if_neg hu]
  exact if_pos hd

end

/-! ### The partner's trace and its absence (11 R248 to R250) -/

section
variable {s : State} {avg : Nat} (lnR : List (Option Int))

theorem dtsPartner_of_single (hd : s.dualEnded = false) : dtsPartner s avg lnR = s := by rw [dtsPartner, hd]; rfl

variable (hd : s.dualEnded = true)
include hd

/-- The trace of an average that waits completes it. -/
theorem dtsPartner_of_waiting {a : DtsAvg} (ha : (s.dts.waits.find? fun a => a.avg == avg) = some a) :
    dtsPartner s avg lnR =
      dtsRows { s with dts := { s.dts with waits := s.dts.waits.filter fun b => b.avg != avg } } a (.dual lnR) := by
  rw [dtsPartner, hd, ha]
  rfl

variable (ha : (s.dts.waits.find? fun a => a.avg == avg) = none)
include ha

/-- The trace of an average evaluated before is dropped. -/
theorem dtsPartner_of_past (hj : avg < (s.dts.complete.head?.map DtsRun.avg).getD s.dts.avg) : dtsPartner s avg lnR = s := by
  rw [dtsPartner, hd, ha]
  exact if_pos hj

/-- The trace of an average still to be evaluated is kept for it. -/
theorem dtsPartner_of_future (hj : (s.dts.complete.head?.map DtsRun.avg).getD s.dts.avg ≤ avg) :
    dtsPartner s avg lnR = { s with dts := { s.dts with partner := s.dts.partner ++ [(avg, lnR)] } } := by
  rw [dtsPartner, hd, ha]
  exact if_neg (Nat.not_lt.mpr hj)

end

theorem dtsTimeout_of_none {s : State} (h : s.dts.waits = []) : dtsTimeout s = s := by rw [dtsTimeout, h]

/-- The wait of average `a`, the oldest, has passed, and `l` are left to wait. -/
def State.giveUpWait (s : State) (a : DtsAvg) (l : List DtsAvg) : State :=
  { s.expire (a.tick + secTicks) with dts := { s.dts with waits := l } }

theorem dtsTimeout_of_waiting {s : State} {a : DtsAvg} {l : List DtsAvg} (h : s.dts.waits = a :: l) :
    dtsTimeout s = dtsRows (s.giveUpWait a l) a .fallback := by
  rw [dtsTimeout, h]
  rfl

/-! ### The statement -/

/-- DTS_AVERAGE_END with an average to evaluate leaves what its evaluation leaves. -/
theorem dtsAverageEnd_leaves {s u : State} {r : DtsRun} {l : List DtsRun} {corrupt : List Nat} (hr : s.dts.running = true)
    (hc : s.dtsDue.complete = r :: l) (he : dtsFinish (s.dtsTaken l) r corrupt = u) : Leaves (.dtsAverageEnd corrupt) s u :=
  leaves_of_eq ((dtsAverageEnd_of_complete corrupt hr hc).trans he) rfl

/-- DTS_TRACE received for this module leaves what the partner's trace does. -/
theorem dtsTrace_leaves {s u : State} {rh : RingHdr} {avg : Nat} {lnR : List (Option Int)} (hr : s.inRing = true)
    (hc : rh.crcOk = true) (hs : rh.src ≠ s.conf.cascade.rank) (hd : rh.dst = s.conf.cascade.rank)
    (he : dtsPartner s avg lnR = u) : Leaves (.dtsTrace rh avg lnR) s u :=
  leaves_of_eq ((State.ringIn_of_addressed hr hc hs hd _ fun s => dtsPartner s avg lnR).trans he) rfl

/-- Settles O33: the average's end by the traces in it and the partner's, the partner's trace by the average it is of, the timeout by
the oldest average that waits. -/
theorem ramanAverages : Obligations.RamanAverages := by
  refine fun s => ⟨fun corrupt => ⟨fun h => ?nothingDue, fun hr r l hc => ⟨fun hu => ?empty,
      fun hu => ⟨fun hd => ?single, fun hd hp => ?awaits, fun hd p hp => ?matched⟩⟩⟩,
    fun rh avg lnR hr hc hs hm => ⟨fun hd => ?notDual, fun hd a ha => ?completes, fun hd ha => ⟨fun hj => ?drops, fun hj => ?keeps⟩⟩,
    fun hw => ?noneWaits, fun a l hw => ⟨?timeout, ?counted⟩⟩
  case nothingDue => exact leaves_of_eq (dtsAverageEnd_of_none corrupt h) rfl
  case empty => exact dtsAverageEnd_leaves hr hc (dtsFinish_of_empty corrupt hu)
  case single => exact dtsAverageEnd_leaves hr hc (dtsFinish_of_single corrupt hu hd)
  case awaits =>
    have hf := (dtsFinish_of_dual (s := s.dtsTaken l) corrupt hu hd).trans (State.pairAverage_of_none hp)
    exact dtsAverageEnd_leaves hr hc hf
  case matched =>
    have hf := (dtsFinish_of_dual (s := s.dtsTaken l) corrupt hu hd).trans (State.pairAverage_of_some hp)
    exact dtsAverageEnd_leaves hr hc hf
  case notDual => exact dtsTrace_leaves hr hc hs hm (dtsPartner_of_single lnR hd)
  case completes => exact dtsTrace_leaves hr hc hs hm (dtsPartner_of_waiting lnR hd ha)
  case drops => exact dtsTrace_leaves hr hc hs hm (dtsPartner_of_past lnR hd ha hj)
  case keeps => exact dtsTrace_leaves hr hc hs hm (dtsPartner_of_future lnR hd ha hj)
  case noneWaits => exact leaves_of_eq (dtsTimeout_of_none hw) rfl
  case timeout => exact leaves_of_eq (dtsTimeout_of_waiting hw) rfl
  case counted => exact dtsRows_of_fallback (s.giveUpWait a l) a

end Sys2Proof.Machine
end

section
/-! SUPPORT. The zone engine: the interval that is due, its decision with the triggers it sends, and TRIG_OUT (12 R261, R264 to R266; 13
R274). -/

namespace Sys2Proof.Machine

/-! ### Errors in the state of zone bands (12 R264) -/

theorem zoneErrors_nil (s : State) : zoneErrors s [] = s := if_pos rfl

/-! ### The interval that is due (12 R266) -/

/-- Every block has finished the interval, is shed at its last output, or is spanned by no zone band of the settings. -/
theorem State.zoneReady_iff (s : State) (c : ZCfg) (i : ZInt) :
    s.zoneReady c i = true ↔ ∀ b < s.conf.probe.nblocks, b ∈ i.got ∨ s.shedAt i.last b = true ∨
      ∀ z ∈ zoneBands c.zones, ¬ (z.zone.start < 1024 * (b + 1) ∧ 1024 * b < z.zone.start + z.zone.len) := by
  simp only [State.zoneReady, List.all_eq_true, List.mem_range, Bool.or_eq_true, List.contains_iff_mem, Bool.not_eq_true',
    List.any_eq_false, decide_eq_true_eq, or_assoc]

theorem State.zoneDue_eq_some_iff {s : State} {i : ZInt} {c : ZCfg} :
    s.zoneDue = some (i, c) ↔ s.zon.ints.head? = some i ∧ zcfgAt s.zon.cfgs i.first = some c ∧ s.zoneReady c i = true := by
  unfold State.zoneDue
  cases s.zon.ints with
  | nil => simp
  | cons j l =>
    rw [List.head?_cons, Option.some_inj]
    refine ⟨fun h => ?_, ?_⟩
    · cases hj : zcfgAt s.zon.cfgs j.first with
      | none => simp [hj] at h
      | some d =>
        obtain ⟨hready, rfl, rfl⟩ : s.zoneReady d j = true ∧ j = i ∧ d = c := by simpa [hj] using h
        exact ⟨rfl, hj, hready⟩
    · rintro ⟨rfl, hj, hready⟩
      simp only [hj, hready, if_true]

/-! ### Its decision and triggers (12 R261, R266; 13 R274) -/

/-- The argmax position of a zone band over an interval; 0 where no position is judged. -/
def ZInt.argmaxPos (i : ZInt) (b : ZBand) : Nat := ((bandLevel i b).map fun x => x.2.1).getD 0

/-- The triggers of an interval's decisions reach the ZONE source, in their order. -/
def zoneTriggers (s : State) (i : ZInt) (l : List (Nat × Nat × ZBand)) : State :=
  l.foldl (fun u x => zoneTrigger u x.1 x.2.1 x.2.2 (i.argmaxPos x.2.2)) s

section
variable {s : State} {errs : List Nat}

theorem zoneInterval_of_none (h : (zoneErrors s errs).zoneDue = none) : zoneInterval s errs = zoneErrors s errs := by
  simp only [zoneInterval, h]

theorem zoneInterval_of_due {i : ZInt} {c : ZCfg} (h : (zoneErrors s errs).zoneDue = some (i, c)) :
    zoneInterval s errs = zoneTriggers (zoneDecide (zoneErrors s errs) i c).1 i (zoneDecide (zoneErrors s errs) i c).2 := by
  unfold zoneInterval
  extract_lets best t
  have hbest : best i = i.argmaxPos := by
    funext b
    simp only [best, ZInt.argmaxPos]
    cases bandLevel i b <;> rfl
  simp only [t, h, hbest, zoneTriggers]

end

/-! ### TRIG_OUT (12 R266) -/

/-- The counts of a TRIGOUT decision: merged where a pulse is under way. -/
def State.countTrigout (s : State) : State := { s with zon := { s.zon with
  trigouts := satAdd 32 s.zon.trigouts 1
  trigMerged := if s.pads.trigOut then satAdd 16 s.zon.trigMerged 1 else s.zon.trigMerged } }

/-- A TRIGOUT decision is counted in either role; the standby role keeps the level, and any other drives it high. -/
theorem trigOut_eq (s : State) :
    trigOut s = { s.countTrigout with pads := { s.pads with trigOut := !s.standbyRole || s.pads.trigOut } } := by
  cases hs : s.standbyRole with
  | false => exact if_neg (Bool.eq_false_iff.mp hs)
  | true => exact if_pos hs

/-! ### The statement -/

/-- Settles O34: the decision by whether an interval is due, due by the head of the intervals and its settings, TRIG_OUT by the role. -/
theorem zoneDecisions : Obligations.ZoneDecisions := by
  refine fun s => ⟨fun errs => ⟨fun h => ?nothingDue, fun i c h => ?decided⟩, zoneErrors_nil s, fun i c => ?due, ?counted, ?merged,
    ?level, ?pulseEnd⟩
  case nothingDue => exact leaves_of_eq (zoneInterval_of_none h) rfl
  case decided => exact leaves_of_eq (zoneInterval_of_due h) rfl
  case due => rw [State.zoneDue_eq_some_iff, State.zoneReady_iff]
  case counted => rw [trigOut_eq, State.countTrigout]
  case merged => rw [trigOut_eq, State.countTrigout]
  case level => rw [trigOut_eq]
  case pulseEnd => exact leaves_of_done rfl

end Sys2Proof.Machine
end

section
/-! SUPPORT. TRIG_IN, what a trigger does at its source, and the copying of segment rows (13 R274, R276 to R278, R281, R282; 16 R353;
01 R26, R27). -/

namespace Sys2Proof.Machine

/-! ### TRIG_IN (13 R274; 16 R353) -/

/-- The trigger of the PAD source at this instant, with the source's own extent. -/
def State.padTrigger (s : State) (instant : Nat) : Trigger :=
  { tT := tsOf48 instant, arrival := s.arrival, pos := s.conf.acq.pad.recStart, npos := s.conf.acq.pad.recLen, seq := 0xFFFFFFFF
    zone := 0xFFFF }

section
variable {s : State} {m : TdcIn}

theorem trigIn_of_skipped (h : (s.tdcEdge 2 m).2.instant = none) : trigIn s m = (s.tdcEdge 2 m).1 := by
  simp only [trigIn, h]

theorem trigIn_of_instant {x : Nat} (h : (s.tdcEdge 2 m).2.instant = some x) :
    trigIn s m = (trigger (s.tdcEdge 2 m).1 1 ((s.tdcEdge 2 m).1.padTrigger x)).1 := by
  simp only [trigIn, h, State.padTrigger]

end

/-! ### A trigger at its source (13 R274, R278, R281, R282, R522) -/

/-- The source listens: it is enabled, and ZONE and PAD do so in acquisition only. -/
def State.Listens (s : State) (n : Nat) : Prop := (s.conf.acq.src n).en = 1 ∧ (n = 2 ∨ s.acq.running = true)

theorem State.not_listens_iff (s : State) (n : Nat) :
    ¬ s.Listens n ↔ (s.conf.acq.src n).en ≠ 1 ∨ (n ≠ 2 ∧ s.acq.running = false) := by
  simp only [State.Listens, not_and_or, not_or, Bool.not_eq_true, ne_eq]

/-- The trigger counted (13 R274). -/
def State.countTrigger (s : State) : State := { s with acq := { s.acq with triggers := satAdd 32 s.acq.triggers 1 } }

/-- The source's hold-off ended (13 R282). -/
def State.endHold (s : State) (n : Nat) : State := { s with acq := s.acq.setSrc n { s.acq.src n with hold := none } }

section
variable {s : State} {n : Nat} {t : Trigger}

theorem trigger_of_not_listens (h : ¬ s.Listens n) : trigger s n t = (s.countTrigger, .disabled) :=
  if_pos ((s.not_listens_iff n).mp h)

theorem trigger_of_listens (h : s.Listens n) : trigger s n t = takeTrigger s.countTrigger n t :=
  if_neg (mt (s.not_listens_iff n).mpr (not_not_intro h))

theorem takeTrigger_of_open {seg : Segment} (h : ((closeSegment s n t.arrival).acq.src n).seg = some seg) :
    takeTrigger s n t = (rawTrigger (mergeTrigger (closeSegment s n t.arrival) n seg t) n t, .merged seg.recId) := by
  simp only [takeTrigger, h]

variable (h : ((closeSegment s n t.arrival).acq.src n).seg = none)
include h

theorem takeTrigger_of_held {left : Option Hold}
    (hj : Hold.judge ((closeSegment s n t.arrival).acq.src n).hold t.arrival = some left) :
    takeTrigger s n t = (holdOff (closeSegment s n t.arrival) n left, .heldOff) := by
  simp only [takeTrigger, h, hj]

theorem takeTrigger_of_free (hj : Hold.judge ((closeSegment s n t.arrival).acq.src n).hold t.arrival = none) :
    takeTrigger s n t = (rawTrigger (openSegment ((closeSegment s n t.arrival).endHold n) n t).1 n t,
      (openSegment ((closeSegment s n t.arrival).endHold n) n t).2) := by
  simp only [takeTrigger, h, hj, State.endHold]

end

/-! ### The end of a segment (13 R278; 01 R26, R27) -/

theorem Segment.done_iff (seg : Segment) : seg.done = true ↔ seg.endTick.isSome = true ∧ seg.merges = [] := by
  simp only [Segment.done, Bool.and_eq_true, beq_iff_eq]

theorem closeSegment_of_over {s : State} {n t e : Nat} {seg : Segment} (hseg : (s.acq.src n).seg = some seg)
    (he : seg.endTick = some e) (hm : seg.merges = []) (ht : e / 16 < t / 16) :
    closeSegment s n t = finishSegment s n seg false := by
  have hd : seg.done = true := seg.done_iff.mpr ⟨by rw [he]; rfl, hm⟩
  simp [closeSegment, hseg, hd, he, ht]

theorem le_alignUp_16 (t : Nat) : t ≤ alignUp t 16 := by
  rw [alignUp_16]
  omega

/-- Once a timeout has expired, the cycle it falls into is over, from whichever clock the tick index comes. -/
theorem State.expire_past_cycle (s : State) (t : Nat) : t / 16 < (s.expire t).tim.tick / 16 := by
  have hnext : afterCycle t ≤ (s.expire t).tim.tick := by
    refine le_trans ?_ (le_max_right ..)
    split
    · exact le_refl _
    · exact le_alignUp_16 _
  unfold afterCycle at hnext
  omega

/-! ### RECORD_ROW_COPY (13 R278, R286) -/

/-- The segment, one row longer, back at its source: with the flags of the module, and ended by its last row. -/
def State.putCopied (s : State) (n : Nat) (seg : Segment) (m : Mem) : State :=
  { s with mem := m, acq := s.acq.setSrc n { s.acq.src n with seg := some { seg with
    modflags := seg.modflags ||| s.modflags, endTick := if seg.n ≤ seg.rows.length then some s.tim.tick else none } } }

section
variable {s : State} {n : Nat} {lost dram : List Nat}

theorem rowCopy_of_no_segment (h : ((resolveTriggers s).acq.src n).seg = none) : rowCopy s n lost dram = resolveTriggers s := by
  simp only [rowCopy, h]

variable {seg : Segment} (h : ((resolveTriggers s).acq.src n).seg = some seg)
include h

theorem rowCopy_of_not_located (hk : seg.kT = none) : rowCopy s n lost dram = resolveTriggers s := by
  simp only [rowCopy, h, hk]

variable {k : Nat} (hk : seg.kT = some k)
include hk

theorem rowCopy_of_not_done (hn : seg.n ≤ seg.rows.length) (hd : seg.done = false) :
    rowCopy s n lost dram = resolveTriggers s := by
  simp only [rowCopy, h, hk, if_pos hn, hd, Bool.false_eq_true, if_false]

theorem rowCopy_of_ended (hn : seg.n ≤ seg.rows.length) {e : Nat} (he : seg.endTick = some e) (hm : seg.merges = []) :
    rowCopy s n lost dram = finishSegment ((resolveTriggers s).expire e) n seg false := by
  have hd : seg.done = true := seg.done_iff.mpr ⟨by rw [he]; rfl, hm⟩
  have hclose := closeSegment_of_over (s := (resolveTriggers s).expire e) h he hm ((resolveTriggers s).expire_past_cycle e)
  simp only [rowCopy, h, hk, if_pos hn, hd, if_true, he, Option.getD_some, hclose]

theorem rowCopy_of_not_in_ring (hn : seg.rows.length < seg.n) (hc : (resolveTriggers s).copyRow seg k false lost dram = none) :
    rowCopy s n lost dram = resolveTriggers s := by
  simp only [rowCopy, h, hk, if_neg (Nat.not_le.mpr hn), hc]

theorem rowCopy_of_copied (hn : seg.rows.length < seg.n) {seg' : Segment} {m : Mem}
    (hc : (resolveTriggers s).copyRow seg k false lost dram = some (seg', m)) :
    rowCopy s n lost dram = (resolveTriggers s).putCopied n seg' m := by
  simp only [rowCopy, h, hk, if_neg (Nat.not_le.mpr hn), hc, State.putCopied]

end

/-! ### The statement -/

theorem recordRowCopy_leaves {s u : State} {n : Nat} {lost dram : List Nat} (h : rowCopy s n lost dram = u) :
    Leaves (.recordRowCopy n lost dram) s u := leaves_of_eq h rfl

/-- Settles O35: TRIG_IN by what the channel lets through, a trigger by its source, the source's segment and its hold-off, a row by
where the segment stands. -/
theorem triggersAndSegments : Obligations.TriggersAndSegments := by
  refine fun s => ⟨fun m => ⟨fun h => ?skipped, fun x h => ?pad⟩, fun n t => ⟨fun h => ?deaf, fun hen hrun => ?listens⟩,
    fun n t => ⟨fun seg h => ?merges, fun h => ⟨fun left hj => ?heldOff, fun hj => ?opens⟩⟩,
    fun n lost dram => ⟨fun h => ?noSegment, fun seg h => ⟨fun hk => ?notLocated, fun k hk => ⟨fun hn hd => ?notDone,
      fun hn e he hm => ?ended, fun hn hc => ?notInRing, fun hn seg' m hc => ?copied⟩⟩⟩⟩
  case skipped => exact leaves_of_eq (trigIn_of_skipped h) rfl
  case pad => exact leaves_of_eq (trigIn_of_instant h) rfl
  case deaf => exact trigger_of_not_listens ((s.not_listens_iff n).mpr h)
  case listens => exact trigger_of_listens ⟨hen, hrun⟩
  case merges => exact takeTrigger_of_open h
  case heldOff => exact takeTrigger_of_held h hj
  case opens => exact takeTrigger_of_free h hj
  case noSegment => exact recordRowCopy_leaves (rowCopy_of_no_segment h)
  case notLocated => exact recordRowCopy_leaves (rowCopy_of_not_located h hk)
  case notDone => exact recordRowCopy_leaves (rowCopy_of_not_done h hk hn hd)
  case ended => exact recordRowCopy_leaves (rowCopy_of_ended h hk hn he hm)
  case notInRing => exact recordRowCopy_leaves (rowCopy_of_not_in_ring h hk hn hc)
  case copied => exact recordRowCopy_leaves (rowCopy_of_copied h hk hn hc)

end Sys2Proof.Machine
end

section
/-! SUPPORT. The commands on records: RECORD, REC_LIST, REC_LOCK, REC_UNLOCK, REC_DELETE and REC_SEND (13 R274, R279, R288, R522;
15 R333; 18 R400). -/

namespace Sys2Proof.Machine

/-! ### RECORD (13 R274, R522) -/

/-- The range RECORD asks for as (position, count): its own, or the configured one. -/
def State.recordRange (s : State) (range : Option (Nat × Nat)) : Nat × Nat :=
  range.getD (s.conf.acq.cmd.recStart, s.conf.acq.cmd.recLen)

/-- The instant RECORD asks for: its own where it is a timestamp, or the time of its arrival. -/
def State.recordInstant (s : State) : Option Nat → Option Nat
  | none => some (s.tsAt s.arrival)
  | some w => tsOfLayout w

/-- The range holds a position, and none outside the plan's. -/
def State.RangeGood (s : State) (range : Option (Nat × Nat)) : Prop :=
  (s.recordRange range).1 + (s.recordRange range).2 ≤ s.conf.probe.p ∧ (s.recordRange range).2 ≠ 0

theorem State.not_rangeGood_iff (s : State) (range : Option (Nat × Nat)) : ¬ s.RangeGood range ↔
    s.conf.probe.p < (s.recordRange range).1 + (s.recordRange range).2 ∨ (s.recordRange range).2 = 0 := by
  simp only [State.RangeGood, not_and_or, Nat.not_le, ne_eq, not_not]

/-- Outside acquisition, with no row of the last one in the ring. -/
def State.NothingToRecord (s : State) : Prop := s.acq.running = false ∧ (s.acq.ended = false ∨ s.acq.newQ = 0)

/-- The COMMAND source triggered at timestamp `t` over this range: what becomes of it, and its outcome. -/
def State.recordAt (s : State) (range : Option (Nat × Nat)) (t : Nat) : State × TrigOutcome :=
  trigger s 2 { tT := t, arrival := s.arrival, pos := (s.recordRange range).1, npos := (s.recordRange range).2, seq := 0xFFFFFFFF
                zone := 0xFFFF }

/-- The segment of the COMMAND source completes at once outside acquisition. -/
def State.endIfIdle (s : State) : State := if s.acq.running then s else endSegment s 2

section
variable {s : State} {instant : Option Nat} {range : Option (Nat × Nat)}

/-- RECORD with a valid instant is judged by its range, then by what there is to record. -/
theorem recordCmd_of_instant {t : Nat} (ht : s.recordInstant instant = some t) : recordCmd s instant range =
    if s.conf.probe.p < (s.recordRange range).1 + (s.recordRange range).2 ∨ (s.recordRange range).2 = 0 then (s, plain .invalid)
    else if s.acq.running = false ∧ (s.acq.ended = false ∨ s.acq.newQ = 0) then (s, plain .busy)
    else ((s.recordAt range t).1.endIfIdle, withData .ok (s.recordAt range t).2.bytes) := by
  cases instant with
  | none =>
    obtain rfl : s.tsAt s.arrival = t := Option.some.inj ht
    rfl
  | some w =>
    have hw : tsOfLayout w = some t := ht
    simp only [recordCmd, hw]
    rfl

theorem recordCmd_of_no_instant (ht : s.recordInstant instant = none) : recordCmd s instant range = (s, plain .invalid) := by
  cases instant with
  | none => cases ht
  | some w =>
    have hw : tsOfLayout w = none := ht
    simp only [recordCmd, hw]

theorem recordCmd_of_bad_range (hr : ¬ s.RangeGood range) : recordCmd s instant range = (s, plain .invalid) := by
  cases ht : s.recordInstant instant with
  | none => exact recordCmd_of_no_instant ht
  | some t => exact (recordCmd_of_instant ht).trans (if_pos ((s.not_rangeGood_iff range).mp hr))

variable {t : Nat} (ht : s.recordInstant instant = some t) (hr : s.RangeGood range)
include ht hr

theorem recordCmd_of_good : recordCmd s instant range =
    if s.acq.running = false ∧ (s.acq.ended = false ∨ s.acq.newQ = 0) then (s, plain .busy)
    else ((s.recordAt range t).1.endIfIdle, withData .ok (s.recordAt range t).2.bytes) :=
  (recordCmd_of_instant ht).trans (if_neg (mt (s.not_rangeGood_iff range).mpr (not_not_intro hr)))

theorem recordCmd_of_nothing (hn : s.NothingToRecord) : recordCmd s instant range = (s, plain .busy) :=
  (recordCmd_of_good ht hr).trans (if_pos hn)

theorem recordCmd_of_rows (hn : ¬ s.NothingToRecord) : recordCmd s instant range =
    ((s.recordAt range t).1.endIfIdle, withData .ok (s.recordAt range t).2.bytes) :=
  (recordCmd_of_good ht hr).trans (if_neg hn)

end

/-! ### REC_LIST, REC_LOCK and REC_UNLOCK (18 R400) -/

/-- The bytes REC_LIST answers for one entry. -/
def DirEntry.listed (y : DirEntry) : List Byte :=
  leBytes 4 y.recId ++ leBytes 1 y.type ++ leBytes 1 (b2n y.complete + 2 * b2n y.locked + 4 * b2n (y.sending != [])) ++
    zeros 2 ++ leBytes 8 y.length ++ leBytes 12 (tsLayout y.tTrig)

/-- The first entries from `first` on, at most `max`, as REC_LIST answers them. -/
def Acq.listed (a : Acq) (first max : Nat) : List Byte :=
  ((a.dir.filter fun y => decide (first ≤ y.recId)).take max).flatMap DirEntry.listed

theorem recListCmd_of_bad {s : State} {first max : Nat} (h : max = 0 ∨ 36 < max) :
    recListCmd s first max = (s, plain .invalid) := if_pos h

theorem recListCmd_of_good {s : State} {first max : Nat} (hlow : 1 ≤ max) (hhigh : max ≤ 36) :
    recListCmd s first max = (s, withData .ok (s.acq.listed first max)) := if_neg (by omega)

/-- The lock of an entry set or cleared in the directory. -/
def State.setLock (s : State) (y : DirEntry) (on : Bool) : State :=
  { s with acq := { s.acq with dir := s.acq.dir.map fun z => if z = y then { z with locked := on } else z } }

theorem recLockCmd_of_unknown {s : State} {id : Nat} {on : Bool} (h : s.acq.find id = none) :
    recLockCmd s id on = (s, plain .invalid) := by
  simp only [recLockCmd, h]

theorem recLockCmd_of_found {s : State} {id : Nat} {on : Bool} {y : DirEntry} (h : s.acq.find id = some y) :
    recLockCmd s id on = (s.setLock y on, plain .ok) := by
  simp only [recLockCmd, h, State.setLock]

/-! ### REC_DELETE (13 R288; 18 R400) -/

/-- An entry out of the directory, and with it the raw capture that it names. -/
def State.deleteEntry (s : State) (y : DirEntry) (id : Nat) : State :=
  { s with acq := { s.acq with
    dir := s.acq.dir.erase y, raw := if y.type = 3 ∧ s.acq.raw.recId = id then {} else s.acq.raw } }

section
variable {s : State} {id : Nat}

theorem recDeleteCmd_of_unknown (h : s.acq.find id = none) : recDeleteCmd s id = (s, plain .invalid) := by
  simp only [recDeleteCmd, h]

variable {y : DirEntry} (h : s.acq.find id = some y)
include h

/-- A record found is judged by whether it is in use, then by its lock. -/
theorem recDeleteCmd_of_found : recDeleteCmd s id =
    if y.complete = false ∨ y.sending ≠ [] then (s, plain .busy)
    else if y.locked then (s, plain .denied) else (s.deleteEntry y id, plain .ok) := by
  simp only [recDeleteCmd, h, State.deleteEntry, Bool.or_eq_true, Bool.not_eq_true', bne_iff_ne]

theorem recDeleteCmd_of_in_use (hu : y.complete = false ∨ y.sending ≠ []) : recDeleteCmd s id = (s, plain .busy) :=
  (recDeleteCmd_of_found h).trans (if_pos hu)

variable (hc : y.complete = true) (hs : y.sending = [])
include hc hs

theorem recDeleteCmd_of_free : recDeleteCmd s id = if y.locked then (s, plain .denied) else (s.deleteEntry y id, plain .ok) :=
  (recDeleteCmd_of_found h).trans (if_neg (by simp [hc, hs]))

theorem recDeleteCmd_of_locked (hl : y.locked = true) : recDeleteCmd s id = (s, plain .denied) :=
  (recDeleteCmd_of_free h hc hs).trans (if_pos hl)

theorem recDeleteCmd_of_unlocked (hl : y.locked = false) : recDeleteCmd s id = (s.deleteEntry y id, plain .ok) :=
  (recDeleteCmd_of_free h hc hs).trans (if_neg (Bool.eq_false_iff.mp hl))

end

/-! ### REC_SEND (15 R333; 18 R400) -/

/-- Stream `n` sends the records that commands name. -/
def State.SendsOnCommand (s : State) (n : Nat) : Prop := (s.strCfg n).stype = 5 ∧ (s.strCfg n).rsend = 1

theorem State.not_sendsOnCommand_iff (s : State) (n : Nat) :
    ¬ s.SendsOnCommand n ↔ (s.strCfg n).stype ≠ 5 ∨ (s.strCfg n).rsend ≠ 1 := not_and_or

/-- The record queued on the stream. -/
def State.queueRecord (s : State) (n id : Nat) : State := s.modStream n fun z => { z with recs := z.recs ++ [id] }

section
variable {s : State} {n id : Nat}

theorem recSendCmd_of_no_stream (hn : 15 < n) : recSendCmd s n id = (s, plain .invalid) := if_pos hn

theorem recSendCmd_of_other_stream (hn : n ≤ 15) (hc : ¬ s.SendsOnCommand n) : recSendCmd s n id = (s, plain .conflict) :=
  (if_neg (Nat.not_lt.mpr hn)).trans (if_pos ((s.not_sendsOnCommand_iff n).mp hc))

variable (hn : n ≤ 15) (hc : s.SendsOnCommand n)
include hn hc

theorem recSendCmd_of_unknown (h : s.acq.find id = none) : recSendCmd s n id = (s, plain .invalid) := by
  simp only [recSendCmd, if_neg (Nat.not_lt.mpr hn), if_neg (mt (s.not_sendsOnCommand_iff n).mpr (not_not_intro hc)), h]

theorem recSendCmd_of_found {y : DirEntry} (h : s.acq.find id = some y) :
    recSendCmd s n id = (s.queueRecord n id, plain .deferred) := by
  simp only [recSendCmd, if_neg (Nat.not_lt.mpr hn), if_neg (mt (s.not_sendsOnCommand_iff n).mpr (not_not_intro hc)), h,
    State.queueRecord]

end

/-! ### The statement -/

section
variable {s u : State} {h : Hdr} {x : Session} {r : Response}

theorem record_leaves {instant : Option Nat} {range : Option (Nat × Nat)} (hr : Ready s h 0x0020 1 x)
    (he : recordCmd (s.entered h) instant range = (u, r)) : Leaves (.record h instant range) s (u.answer h.sid h.seq r) :=
  command1_leaves hr (fun s _ => recordCmd s instant range) rfl he

theorem recList_leaves {first max : Nat} (hr : Ready s h 0x0021 0 x) (he : recListCmd (s.entered h) first max = (u, r)) :
    Leaves (.recList h first max) s (u.answer h.sid h.seq r) :=
  command1_leaves hr (fun s _ => recListCmd s first max) rfl he

/-- REC_LOCK and REC_UNLOCK are one operation under two codes. -/
theorem recLock_leaves {id code : Nat} {on : Bool} {c : Instr}
    (hc : (c = .recLock h id ∧ on = true ∧ code = 0x0022) ∨ (c = .recUnlock h id ∧ on = false ∧ code = 0x0023))
    (hr : Ready s h code 1 x) (he : recLockCmd (s.entered h) id on = (u, r)) : Leaves c s (u.answer h.sid h.seq r) := by
  refine command1_leaves hr (fun s _ => recLockCmd s id on) ?_ he
  obtain ⟨rfl, rfl, rfl⟩ | ⟨rfl, rfl, rfl⟩ := hc
  · rfl
  · rfl

theorem recDelete_leaves {id : Nat} (hr : Ready s h 0x0024 1 x) (he : recDeleteCmd (s.entered h) id = (u, r)) :
    Leaves (.recDelete h id) s (u.answer h.sid h.seq r) :=
  command1_leaves hr (fun s _ => recDeleteCmd s id) rfl he

theorem recSend_leaves {n id : Nat} (hr : Ready s h 0x0025 1 x) (he : recSendCmd (s.entered h) n id = (u, r)) :
    Leaves (.recSend h n id) s (u.answer h.sid h.seq r) :=
  command1_leaves hr (fun s _ => recSendCmd s n id) rfl he

end

/-- Settles O36: each command by the equation of its operation in its case, in the order in which its refusals are judged. -/
theorem recordCommands : Obligations.RecordCommands := by
  refine fun s h x => ⟨fun hr instant range => ⟨fun hbad => ?badRecord, fun t ht hp hn => ⟨fun hno => ?nothing, fun hno => ?recorded⟩⟩,
    fun hr first max => ⟨fun hm => ?badList, fun hlow hhigh => ?listed⟩,
    fun id on c code hc hr => ⟨fun hf => ?noLock, fun y hf => ?locked⟩,
    fun hr id => ⟨fun hf => ?noDelete, fun y hf => ⟨fun hu => ?inUse, fun hc hs hl => ?denied, fun hc hs hl => ?deleted⟩⟩,
    fun hr n id => ⟨fun hn => ?noStream, fun hn hc => ?conflict, fun hn htype hsend => ⟨fun hf => ?noRecord, fun y hf => ?queued⟩⟩⟩
  case badRecord =>
    obtain ht | hrange := hbad
    · exact record_leaves hr (recordCmd_of_no_instant ht)
    · exact record_leaves hr (recordCmd_of_bad_range ((State.not_rangeGood_iff _ _).mpr hrange))
  case nothing => exact record_leaves hr (recordCmd_of_nothing ht ⟨hp, hn⟩ hno)
  case recorded => exact record_leaves hr (recordCmd_of_rows ht ⟨hp, hn⟩ hno)
  case badList => exact recList_leaves hr (recListCmd_of_bad hm)
  case listed => exact recList_leaves hr (recListCmd_of_good hlow hhigh)
  case noLock => exact recLock_leaves hc hr (recLockCmd_of_unknown hf)
  case locked => exact recLock_leaves hc hr (recLockCmd_of_found hf)
  case noDelete => exact recDelete_leaves hr (recDeleteCmd_of_unknown hf)
  case inUse => exact recDelete_leaves hr (recDeleteCmd_of_in_use hf hu)
  case denied => exact recDelete_leaves hr (recDeleteCmd_of_locked hf hc hs hl)
  case deleted => exact recDelete_leaves hr (recDeleteCmd_of_unlocked hf hc hs hl)
  case noStream => exact recSend_leaves hr (recSendCmd_of_no_stream hn)
  case conflict => exact recSend_leaves hr (recSendCmd_of_other_stream hn ((State.not_sendsOnCommand_iff _ _).mpr hc))
  case noRecord => exact recSend_leaves hr (recSendCmd_of_unknown hn ⟨htype, hsend⟩ hf)
  case queued => exact recSend_leaves hr (recSendCmd_of_found hn ⟨htype, hsend⟩ hf)

end Sys2Proof.Machine
end

section
/-! SUPPORT. Raw captures: RAW_ARM, RAW_FRAME_WRITE and RAW_RELEASE; the end of a time hold-off (13 R282, R285, R288, R289; 14 R305; 18
R400; 01 R26, R27; logs 38, 86). -/

namespace Sys2Proof.Machine

/-! ### RAW_ARM (13 R285, R288; 18 R400) -/

/-- RAW_ARM asks for what no capture can be. -/
def State.ArmBad (s : State) (mode source f preF : Nat) : Prop :=
  1 < mode ∨ 2 < source ∨ f = 0 ∨ rawCapacity s.conf < f ∨ (mode = 1 ∧ f ≤ preF)

/-- The store with an entry free in its directory, by eviction in overwrite mode where the directory is full (log 38). -/
def State.rawRoom (s : State) : Option Acq :=
  if s.acq.dir.length < 65536 then some s.acq
  else if s.conf.acq.fullMode = 0 then s.acq.makeRoom (storeBytes s.conf) 0 s.acq.dir.length else none

section
variable {s : State}

theorem State.rawRoom_of_space (h : s.acq.dir.length < 65536) : s.rawRoom = some s.acq := if_pos h

theorem State.rawRoom_of_no_overwrite (h : 65536 ≤ s.acq.dir.length) (hm : s.conf.acq.fullMode ≠ 0) : s.rawRoom = none :=
  (if_neg (Nat.not_lt.mpr h)).trans (if_neg hm)

theorem State.rawRoom_of_overwrite (h : 65536 ≤ s.acq.dir.length) (hm : s.conf.acq.fullMode = 0) :
    s.rawRoom = s.acq.makeRoom (storeBytes s.conf) 0 s.acq.dir.length :=
  (if_neg (Nat.not_lt.mpr h)).trans (if_pos hm)

end

/-- The record of a capture entered in the store `a`, and the capture armed from the next frame boundary. -/
def State.armRaw (s : State) (a : Acq) (mode source tick f preF : Nat) : State :=
  { s with acq := { a with
    nextId := wrapAdd 32 a.nextId 1
    raw := { st := 1, byTrigger := mode == 1, src := source, tick := tick, f := f, preF := if mode = 1 then preF else 0
             recId := a.nextId, modflags := s.modflags, next := alignUp (if mode = 0 then max tick s.tim.tick else s.tim.tick) 4096 }
    dir := a.dir ++ [{ recId := a.nextId, type := 3, complete := false, locked := false, sending := [], length := 16400 * f
                       tTrig := 0, body := .raw }] } }

section
variable {s : State} {mode source tick f preF : Nat}

theorem rawArmCmd_of_bad (h : s.ArmBad mode source f preF) : rawArmCmd s mode source tick f preF = (s, plain .invalid) := if_pos h

variable (h : ¬ s.ArmBad mode source f preF)
include h

theorem rawArmCmd_of_held (hst : s.acq.raw.st ≠ 0) : rawArmCmd s mode source tick f preF = (s, plain .busy) :=
  (if_neg h).trans (if_pos hst)

variable (hst : s.acq.raw.st = 0)
include hst

theorem rawArmCmd_of_no_room (hroom : s.rawRoom = none) : rawArmCmd s mode source tick f preF = (s, plain .busy) := by
  rw [State.rawRoom] at hroom
  refine (if_neg h).trans ((if_neg (not_not_intro hst)).trans ?_)
  rw [hroom]

theorem rawArmCmd_of_room {a : Acq} (hroom : s.rawRoom = some a) :
    rawArmCmd s mode source tick f preF = (s.armRaw a mode source tick f preF, plain .ok) := by
  rw [State.rawRoom] at hroom
  refine (if_neg h).trans ((if_neg (not_not_intro hst)).trans ?_)
  rw [hroom]
  rfl

end

/-! ### RAW_FRAME_WRITE (13 R288, R289; 14 R305) -/

/-- The converters run and a capture is armed or under way. -/
def State.Captures (s : State) : Prop := s.adc.running = true ∧ (s.acq.raw.st = 1 ∨ s.acq.raw.st = 2)

/-- The frame is lost: by the writer, or because the raw FIFO has overflowed. -/
def State.LosesFrame (s : State) (lost : Bool) : Prop := lost = true ∨ (s.mem.lose 2).1 = true

/-- The state at the end of the capture's next frame, with the overflow of the raw FIFO taken. -/
def State.atFrameEnd (s : State) : State := { s.advance (s.acq.raw.next + 4096) with mem := (s.mem.lose 2).2 }

/-- The run of lost frames as (first tick, count) with the frame from `t0` on: one longer, or the first of a run. -/
def runWithLost (run : Option (Nat × Nat)) (t0 : Nat) : Nat × Nat :=
  match run with
  | none => (t0, 1)
  | some (t, n) => (t, n + 1)

theorem runWithLost_eq (run : Option (Nat × Nat)) (t0 : Nat) :
    runWithLost run t0 = (run.map fun x => (x.1, x.2 + 1)).getD (t0, 1) := by
  cases run <;> rfl

/-- The frame from `t0` on counted lost. -/
def State.countLostFrame (s : State) (t0 : Nat) : State := { s with acq := { s.acq with
  rawLost := satAdd 32 s.acq.rawLost 1, raw := { s.acq.raw with lostRun := some (runWithLost s.acq.raw.lostRun t0) } } }

/-- The frame from `t0` on counted lost, or else the run of lost frames at its end. -/
def State.countFrame (s : State) (t0 : Nat) (lost : Bool) : State := if lost then s.countLostFrame t0 else flushRawRun s

/-- The frame from `t0` on added to the capture, with its bytes where it is stored. -/
def State.addFrame (s : State) (t0 : Nat) (kept : Option (List Byte)) : State :=
  rawUpdate s { s.acq.raw with
    next := t0 + 4096, st := if s.acq.raw.byTrigger then s.acq.raw.st else 2, frames := s.acq.raw.frames ++ [(t0, kept)] }

section
variable {s : State} {frame : List Byte} {lost : Bool}

theorem rawFrame_of_idle (h : s.adc.running = false ∨ (s.acq.raw.st ≠ 1 ∧ s.acq.raw.st ≠ 2)) : rawFrame s frame lost = s :=
  if_pos (by simpa using h)

variable (h : s.Captures)
include h

/-- With a capture to serve, its next frame is lost or stored. -/
theorem rawFrame_of_captures : rawFrame s frame lost =
    let l := lost || (s.mem.lose 2).1
    let u := s.atFrameEnd.countFrame s.acq.raw.next l
    u.addFrame s.acq.raw.next (if l then none else some (converterFrame u s.acq.raw.next frame)) := by
  obtain ⟨hrun, hst⟩ := h
  exact if_neg (by rcases hst with hst | hst <;> simp [hrun, hst])

theorem rawFrame_of_lost (hl : s.LosesFrame lost) :
    rawFrame s frame lost = (s.atFrameEnd.countLostFrame s.acq.raw.next).addFrame s.acq.raw.next none := by
  have hor : (lost || (s.mem.lose 2).1) = true := (Bool.or_eq_true ..).mpr hl
  simp only [rawFrame_of_captures h, hor, State.countFrame, if_true]

theorem rawFrame_of_stored (hl : ¬ s.LosesFrame lost) : rawFrame s frame lost =
    (flushRawRun s.atFrameEnd).addFrame s.acq.raw.next
      (some (converterFrame (flushRawRun s.atFrameEnd) s.acq.raw.next frame)) := by
  have hor : (lost || (s.mem.lose 2).1) = false := Bool.eq_false_iff.mpr (mt (Bool.or_eq_true ..).mp hl)
  simp only [rawFrame_of_captures h, hor, State.countFrame, Bool.false_eq_true, if_false]

end

/-! ### The frames a capture keeps, and its completion (13 R288; log 86) -/

/-- The capture with the frames it keeps: all, or on a trigger those of its circular region. -/
def State.kept (s : State) (r : RawCap) : RawCap := if r.byTrigger then { r with frames := keepFrames s r } else r

/-- The capture has its last frame. -/
def RawCap.Full (r : RawCap) : Prop := r.st = 2 ∧ r.f ≤ r.frames.length

theorem rawUpdate_of_full {s : State} {r : RawCap} (h : (s.kept r).Full) :
    rawUpdate s r = rawDone { s with acq := { s.acq with raw := s.kept r } } := if_pos h

theorem rawUpdate_of_not_full {s : State} {r : RawCap} (h : ¬ (s.kept r).Full) :
    rawUpdate s r = { s with acq := { s.acq with raw := s.kept r } } := if_neg h

/-! ### HOLD_OFF_END (13 R282; 01 R26, R27) -/

theorem holdEnd_of_time {s : State} {n ms since : Nat} (h : (s.acq.src n).hold = some (.time ms since)) :
    holdEnd s n = { s.expire (since + ms * msTicks) with acq := s.acq.setSrc n { s.acq.src n with hold := none } } := by
  simp only [holdEnd, h]
  rfl

theorem holdEnd_of_no_time {s : State} {n : Nat} (h : ∀ ms since, (s.acq.src n).hold ≠ some (.time ms since)) : holdEnd s n = s := by
  unfold holdEnd
  cases hh : (s.acq.src n).hold with
  | none => simp only [hh]
  | some x =>
    cases x with
    | time ms since => exact absurd hh (h ms since)
    | events left => simp only [hh]

/-! ### The statement -/

/-- A ready RAW_ARM leaves what its operation leaves of the state entered, with the operation's answer. -/
theorem rawArm_leaves {s u : State} {h : Hdr} {x : Session} {r : Response} {mode source tick f preF : Nat} (hr : Ready s h 0x0026 1 x)
    (he : rawArmCmd (s.entered h) mode source tick f preF = (u, r)) :
    Leaves (.rawArm h mode source tick f preF) s (u.answer h.sid h.seq r) :=
  command1_leaves hr (fun s _ => rawArmCmd s mode source tick f preF) rfl he

theorem rawFrameWrite_leaves {s u : State} {frame : List Byte} {lost : Bool} (h : rawFrame s frame lost = u) :
    Leaves (.rawFrameWrite frame lost) s u := leaves_of_eq h rfl

theorem holdOffEnd_leaves {s u : State} {n : Nat} (h : holdEnd s n = u) : Leaves (.holdOffEnd n) s u := leaves_of_eq h rfl

/-- Settles O37: RAW_ARM by what it asks for, the capture held and the room for a record; a frame by whether it is lost; HOLD_OFF_END by
the form of the hold-off. -/
theorem rawCapture : Obligations.RawCapture := by
  refine ⟨fun s h x => ⟨fun hr mode source tick f preF => ⟨fun hb => ?bad, fun hb hst => ?held, fun hb hst hd => ?space,
      fun hb hst hd => ⟨fun hm => ?noOverwrite, fun hm => ⟨fun hroom => ?noVictim, fun a hroom => ?evicted⟩⟩⟩, fun hr => ?release⟩,
    fun s => ⟨fun frame lost => ⟨fun hidle => ?idle, fun hrun hst => ?frame⟩, fun r => ⟨fun hf => ?full, fun hf => ?notFull⟩,
      fun n => ⟨fun ms since hh => ?time, fun hh => ?noTime⟩⟩⟩
  case bad => exact rawArm_leaves hr (rawArmCmd_of_bad hb)
  case held => exact rawArm_leaves hr (rawArmCmd_of_held hb hst)
  case space => exact rawArm_leaves hr (rawArmCmd_of_room hb hst (State.rawRoom_of_space hd))
  case noOverwrite => exact rawArm_leaves hr (rawArmCmd_of_no_room hb hst (State.rawRoom_of_no_overwrite hd hm))
  case noVictim => exact rawArm_leaves hr (rawArmCmd_of_no_room hb hst ((State.rawRoom_of_overwrite hd hm).trans hroom))
  case evicted => exact rawArm_leaves hr (rawArmCmd_of_room hb hst ((State.rawRoom_of_overwrite hd hm).trans hroom))
  case release => exact command1_leaves hr (fun s _ => rawReleaseCmd s) rfl rfl
  case idle => exact rawFrameWrite_leaves (rawFrame_of_idle hidle)
  case frame =>
    by_cases hl : s.LosesFrame lost
    · have hframe := rawFrame_of_lost (frame := frame) ⟨hrun, hst⟩ hl
      rw [State.countLostFrame, runWithLost_eq] at hframe
      rw [State.LosesFrame] at hl
      simp only [if_pos hl]
      exact rawFrameWrite_leaves hframe
    · have hframe := rawFrame_of_stored (frame := frame) ⟨hrun, hst⟩ hl
      rw [State.LosesFrame] at hl
      simp only [if_neg hl]
      exact rawFrameWrite_leaves hframe
  case full => exact rawUpdate_of_full hf
  case notFull => exact rawUpdate_of_not_full hf
  case time => exact holdOffEnd_leaves (holdEnd_of_time hh)
  case noTime => exact holdOffEnd_leaves (holdEnd_of_no_time hh)

end Sys2Proof.Machine
end

section
/-! SUPPORT. What every command answers (00 R2; 14 R295, R296; 23 R505; log 1). -/

namespace Sys2Proof.Machine

/-! ### The next state of every command -/

/-- Every command but a DRAM request ends with a next state. -/
theorem exec_done_of_not_dramRequest (c : Instr) (s : State) (h : ∀ req ecc fill, c ≠ .dramRequest req ecc fill) :
    ∃ u, exec c s = s.done u := by
  cases c with
  | dramRequest req ecc fill => exact absurd rfl (h req ecc fill)
  | seedBegin rh =>
    cases rh with
    | none => exact ⟨_, rfl⟩
    | some h => exact ⟨_, rfl⟩
  | _ => exact ⟨_, rfl⟩

theorem exec_dramRequest_of_missing {s : State} {req : DramReq} (h : s.dramUsable ≤ req.addr) (ecc : EccResult) (fill : Nat) :
    exec (.dramRequest req ecc fill) s = .fault .noSuchAddress := if_pos h

theorem exec_dramRequest_of_present {s : State} {req : DramReq} (h : req.addr < s.dramUsable) (ecc : EccResult) (fill : Nat) :
    exec (.dramRequest req ecc fill) s = s.done (dramArrive s req ecc fill) := if_neg (Nat.not_le.mpr h)

/-- 7/8 of 32 GiB or of 16 GiB, by the order code. -/
theorem dramUsable_eq (s : State) : s.dramUsable = (if s.fuses.order = 0 then 28 else 14) * 2 ^ 30 := by
  unfold State.dramUsable State.dramGib
  split <;> rfl

/-- A command either ends with a next state or is a DRAM request beyond the usable capacity, which faults. -/
theorem exec_done_or_missing (c : Instr) (s : State) : (∃ u, exec c s = s.done u) ∨
    ∃ req ecc fill, c = .dramRequest req ecc fill ∧ s.dramUsable ≤ req.addr ∧ exec c s = .fault .noSuchAddress := by
  by_cases hc : ∃ req ecc fill, c = .dramRequest req ecc fill
  · obtain ⟨req, ecc, fill, rfl⟩ := hc
    by_cases ha : s.dramUsable ≤ req.addr
    · exact .inr ⟨req, ecc, fill, rfl, ha, exec_dramRequest_of_missing ha ecc fill⟩
    · exact .inl ⟨_, exec_dramRequest_of_present (Nat.lt_of_not_le ha) ecc fill⟩
  · exact .inl (exec_done_of_not_dramRequest c s fun req ecc fill e => hc ⟨req, ecc, fill, e⟩)

/-- A command that completes leaves what its operation leaves, with the queue as it was and GLB's record of it. -/
theorem exec_next {c : Instr} {s t : State} (e : exec c s = .next t) :
    ∃ u : State, t = { u with glb := (noteGlobal s u).glb, pending := s.pending } := by
  rcases exec_done_or_missing c s with ⟨u, hu⟩ | ⟨req, ecc, fill, -, -, hf⟩
  · rw [hu, State.done_eq] at e
    injection e with e
    exact ⟨u, e.symm⟩
  · rw [hf] at e
    cases e

/-! ### What GLB records -/

theorem IntPair.raise_self (p : IntPair) {b : Nat} (h : b < 32) : (p.raise b).st.getLsbD b = true := by
  unfold IntPair.raise
  rw [BitVec.getLsbD_or, BitVec.getLsbD_ofNat, Nat.testBit_two_pow_self]
  simp [h]

/-- A status bit once set stays set while another is raised. -/
theorem IntPair.raiseIf_keeps {p : IntPair} {i : Nat} (h : p.st.getLsbD i = true) (c : Bool) (b : Nat) :
    (p.raiseIf c b).st.getLsbD i = true := by
  unfold IntPair.raiseIf IntPair.raise
  split
  · rw [BitVec.getLsbD_or, h, Bool.true_or]
  · exact h

/-- The record of FAULT_N held. -/
theorem noteGlobal_fault {s u : State} (hc : u.tim.counting = true) (hs : s.faultHeld = false) (hu : u.faultHeld = true) :
    (noteGlobal s u).glb.int.st.getLsbD 0 = true := by
  unfold noteGlobal
  rw [if_neg (by simp [hc])]
  refine IntPair.raiseIf_keeps ?_ _ 1
  rw [hs, hu]
  exact IntPair.raise_self _ (by decide)

/-- The record of a change of MODE. -/
theorem noteGlobal_mode {s u : State} (hc : u.tim.counting = true) (hm : u.mode ≠ s.mode) :
    (noteGlobal s u).glb.int.st.getLsbD 1 = true := by
  have hb : (u.mode != s.mode) = true := bne_iff_ne.mpr hm
  unfold noteGlobal
  rw [if_neg (by simp [hc])]
  dsimp only
  rw [hb]
  exact IntPair.raise_self _ (by decide)

/-! ### The statements -/

/-- Settles O1: a step on a queue with a front is `exec` of it on the queue's rest. -/
theorem stepRunsFrontCommand : Obligations.StepRunsFrontCommand := fun _ _ _ => rfl

/-- Settles O3: whatever a command's operation leaves, the queue is put back as it was. -/
theorem execKeepsQueue : Obligations.ExecKeepsQueue := by
  intro c s t e
  obtain ⟨u, rfl⟩ := exec_next e
  rfl

/-- Settles O4: every meaning but that of a DRAM request ends with a next state, and that one unless its address does not exist. -/
theorem onlyMissingAddressStops : Obligations.OnlyMissingAddressStops := by
  intro c s
  rcases exec_done_or_missing c s with ⟨u, hu⟩ | ⟨req, ecc, fill, hc, ha, hf⟩
  · exact .inl ⟨_, hu⟩
  · exact .inr ⟨req, ecc, fill, hc, dramUsable_eq s ▸ ha, hf⟩

/-- Settles O5: the record at the end of every command compares FAULT_N and MODE before and after it. -/
theorem glbRecordsFaultAndMode : Obligations.GlbRecordsFaultAndMode := by
  intro c s t e hc
  obtain ⟨u, rfl⟩ := exec_next e
  exact ⟨fun hs hu => noteGlobal_fault hc hs hu, fun hm => noteGlobal_mode hc hm⟩

/-- Settles O8: a step keeps the fuses, as every operation it is made of does. -/
theorem fusesOnlyAdvance : Obligations.FusesOnlyAdvance := by
  intro s t hsafe hstep
  obtain ⟨-, hfuses⟩ := step_keeps hstep hsafe
  exact hfuses

end Sys2Proof.Machine
end

section
/-! SUPPORT. The time reference: REF_IN, PPS, its loss, rate segments and TIME_SET (16 R342 to R352; 18 R400). -/

namespace Sys2Proof.Machine

/-! ### REF_IN (16 R342, R343) -/

theorem setRef_of_same {s : State} {ok : Bool} (h : s.tim.refOk = ok) : setRef s ok = s := if_pos h

theorem setRef_of_change {s : State} {ok : Bool} (h : s.tim.refOk ≠ ok) :
    setRef s ok = { s with tim := { s.tim with
      refOk := ok, int := s.tim.int.raise 0
      refSwitches := if s.conf.time.refSel ≠ 0 then satAdd 16 s.tim.refSwitches 1 else s.tim.refSwitches } } := if_neg h

/-- Both commands about REF_IN set its qualification. -/
theorem refCommand_leaves {s u : State} {c : Instr} {ok : Bool} (hc : (c = .refQualified ∧ ok = true) ∨ (c = .refDisqualified ∧ ok = false))
    (h : setRef s ok = u) : Leaves c s u := by
  rcases hc with ⟨rfl, rfl⟩ | ⟨rfl, rfl⟩
  · exact leaves_of_eq h rfl
  · exact leaves_of_eq h rfl

/-! ### A PPS edge (16 R349, R351, R353) -/

/-- What an edge timed at `x` does, once TDC channel 1 has taken it. -/
def State.ppsTimed (s : State) (x : Nat) : State :=
  match s.tim.ppsLast with
  | none => { s with tim := { s.tim with ppsLast := some x, ppsRun := 1 } }
  | some a =>
    if spacingOk a x then
      let run := s.tim.ppsRun + 1
      let u : State := { s with tim := { s.tim with
        ppsLast := some x, ppsTick := if 3 ≤ run then some s.tim.tick else s.tim.ppsTick, ppsRun := run, ppsOk := decide (3 ≤ run) } }
      if 3 ≤ run then ppsSteer u x else { u with tim := { u.tim with label := none } }
    else { s with tim := { s.tim with ppsLast := none, ppsRun := 0, ppsOk := false, ppsRejects := satAdd 16 s.tim.ppsRejects 1 } }

theorem pps_of_other_source {s : State} (h : s.conf.time.timeSrc ≠ 1) (m : TdcIn) : pps s m = s := if_pos h

theorem pps_of_unmeasured {s : State} {m : TdcIn} (hsrc : s.conf.time.timeSrc = 1) (hi : (s.tdcEdge 1 m).2.instant = none) :
    pps s m = (s.tdcEdge 1 m).1 := by
  unfold pps
  rw [if_neg (not_not.mpr hsrc)]
  dsimp only
  rw [hi]

theorem pps_of_timed {s : State} {m : TdcIn} {x : Nat} (hsrc : s.conf.time.timeSrc = 1) (hi : (s.tdcEdge 1 m).2.instant = some x) :
    pps s m = (s.tdcEdge 1 m).1.ppsTimed x := by
  unfold pps
  rw [if_neg (not_not.mpr hsrc)]
  dsimp only
  rw [hi]
  rfl

/-- A run goes on with an edge a second after the one before. -/
theorem State.ppsTimed_of_spaced {s : State} {a x : Nat} (ha : s.tim.ppsLast = some a) (hs : spacingOk a x = true) :
    s.ppsTimed x =
      let run := s.tim.ppsRun + 1
      let u : State := { s with tim := { s.tim with
        ppsLast := some x, ppsTick := if 3 ≤ run then some s.tim.tick else s.tim.ppsTick, ppsRun := run, ppsOk := decide (3 ≤ run) } }
      if 3 ≤ run then ppsSteer u x else { u with tim := { u.tim with label := none } } := by
  unfold State.ppsTimed
  rw [ha]
  exact if_pos hs

/-- Any other edge is rejected, and the run starts over. -/
theorem State.ppsTimed_of_unspaced {s : State} {a x : Nat} (ha : s.tim.ppsLast = some a) (hs : spacingOk a x = false) :
    s.ppsTimed x = { s with tim := { s.tim with
      ppsLast := none, ppsRun := 0, ppsOk := false, ppsRejects := satAdd 16 s.tim.ppsRejects 1 } } := by
  unfold State.ppsTimed
  rw [ha]
  exact if_neg (Bool.eq_false_iff.mp hs)

/-- The first edge of a run. -/
theorem State.ppsTimed_of_first {s : State} (ha : s.tim.ppsLast = none) (x : Nat) :
    s.ppsTimed x = { s with tim := { s.tim with ppsLast := some x, ppsRun := 1 } } := by
  simp only [State.ppsTimed, ha]

theorem ppsEdge_leaves {s : State} {m : TdcIn} {x : Nat} (hsrc : s.conf.time.timeSrc = 1) (hi : (s.tdcEdge 1 m).2.instant = some x) :
    Leaves (.ppsEdge m) s ((s.tdcEdge 1 m).1.ppsTimed x) := leaves_of_eq (pps_of_timed hsrc hi) rfl

/-! ### The loss of PPS, rate segments, TIME_SET (16 R344, R347 to R349, R351, R352) -/

/-- Time when PPS is found lost: 1.000002 s after the latest qualified edge, where there is one. -/
def State.ppsLostAt (s : State) : State :=
  match s.tim.ppsTick with
  | some t => s.expire (t + 4000008000)
  | none => s

/-- The qualification of PPS is gone. -/
def State.ppsCleared (s : State) : State :=
  { s with tim := { s.tim with ppsOk := false, ppsRun := 0, ppsLast := none, ppsTick := none, lockRun := 0 } }

/-- HOLDOVER at the mean rate. -/
def State.heldOver (s : State) : State :=
  let u := s.newSeg s.tim.tick (rhoMean s)
  { u with tim := { u.tim with st := .holdover, pendRate := none, int := u.tim.int.raise 2 } }

theorem holdTime_of_locked {s : State} (h : s.tim.st = .locked) :
    ({ holdTime s with tim := { (holdTime s).tim with ppsTick := none } } : State) = s.ppsCleared.heldOver := by
  unfold holdTime
  simp only [h]
  rfl

theorem holdTime_of_unlocked {s : State} (h : s.tim.st ≠ .locked) :
    ({ holdTime s with tim := { (holdTime s).tim with ppsTick := none } } : State) = s.ppsCleared := by
  unfold holdTime
  dsimp only
  split
  · contradiction
  · rfl

/-- Losing the source leaves the latest qualified edge. -/
theorem holdTime_ppsTick (s : State) : (holdTime s).tim.ppsTick = s.tim.ppsTick := by
  unfold holdTime
  dsimp only
  split <;> rfl

/-- The loss of PPS is the loss of the source at its time, with no qualified edge left. -/
theorem ppsLoss_eq (s : State) :
    ppsLoss s = { holdTime s.ppsLostAt with tim := { (holdTime s.ppsLostAt).tim with ppsTick := none } } := by
  cases ht : s.tim.ppsTick with
  | some t => simp only [ppsLoss, State.ppsLostAt, ht]
  | none =>
    simp only [ppsLoss, State.ppsLostAt, ht]
    rw [← ht, ← holdTime_ppsTick]

/-- The time state does not depend on the time. -/
theorem State.ppsLostAt_st (s : State) : s.ppsLostAt.tim.st = s.tim.st := by
  unfold State.ppsLostAt
  split <;> rfl

theorem rateStart_of_none {s : State} (h : s.tim.pendRate = none) : rateStart s = s := by
  simp only [rateStart, h]

theorem rateStart_of_pending {s : State} {x : Nat} {rho : Int} (h : s.tim.pendRate = some (x, rho)) :
    rateStart s = { s.newSeg x rho with tim := { (s.newSeg x rho).tim with
      tick := ((s.newSeg x rho).advance x).tim.tick, pendRate := none } } := by
  simp only [rateStart, h]
  rfl

/-- The map may be stepped outside acquisition while no launch epoch exists. -/
theorem State.mayStep_iff (s : State) : s.mayStep = true ↔ s.acquiring = false ∧ s.prb.epoch = none := by
  simp [State.mayStep]

section
variable {s : State}

theorem timeSetCmd_of_other_source (h : s.conf.time.timeSrc ≠ 0) (w : Nat) : timeSetCmd s w = (s, plain .conflict) := if_pos h

theorem timeSetCmd_of_held (h : s.conf.time.timeSrc = 0) (hm : s.mayStep = false) (w : Nat) : timeSetCmd s w = (s, plain .busy) := by
  simp [timeSetCmd, h, hm]

theorem timeSetCmd_of_bad {w : Nat} (h : s.conf.time.timeSrc = 0) (hm : s.mayStep = true) (hw : tsOfLayout w = none) :
    timeSetCmd s w = (s, plain .invalid) := by
  simp [timeSetCmd, h, hm, hw]

theorem timeSetCmd_of_good {w ts : Nat} (h : s.conf.time.timeSrc = 0) (hm : s.mayStep = true) (hw : tsOfLayout w = some ts) :
    timeSetCmd s w = (({ s.stepMap (ts * 2 ^ 32) 0 with tim := { (s.stepMap (ts * 2 ^ 32) 0).tim with
      st := .set, secMismatch := false, stepOwed := none } } : State).reloadRtc, plain .ok) := by
  simp [timeSetCmd, h, hm, hw]

end

/-! ### The statement -/

/-- A ready TIME_SET leaves what its operation leaves of the state entered, with the operation's answer. -/
theorem timeSet_leaves {s u : State} {h : Hdr} {x : Session} {r : Response} {w : Nat} (hr : Ready s h 0x0030 1 x)
    (he : timeSetCmd (s.entered h) w = (u, r)) : Leaves (.timeSet h w) s (u.answer h.sid h.seq r) :=
  command1_leaves hr (fun s _ => timeSetCmd s w) rfl he

/-- Settles O40: REF_IN by whether its qualification changes, an edge by its spacing and the run, the loss of PPS by LOCKED, TIME_SET by
what refuses it. -/
theorem timeReference : Obligations.TimeReference := by
  refine ⟨fun s => ⟨fun c ok hc => ?ref, fun m => ⟨fun hsrc => ?otherSource, fun hsrc hi => ?unmeasured, fun hsrc x hi => ?timed⟩,
    ⟨fun hst => ?locked, fun hst => ?unlocked⟩, fun hp => ?noRate, fun x rho hp => ?rate⟩, fun s h x hr w => ?set⟩
  case ref => exact ⟨fun h => refCommand_leaves hc (setRef_of_same h), fun h => refCommand_leaves hc (setRef_of_change h)⟩
  case otherSource => exact leaves_of_eq (pps_of_other_source hsrc m) rfl
  case unmeasured => exact leaves_of_eq (pps_of_unmeasured hsrc hi) rfl
  case timed =>
    have hedge := ppsEdge_leaves hsrc hi
    refine ⟨fun ha => ?first, fun a ha => ⟨fun hs hrun => ?qualified, fun hs hrun => ?second, fun hs => ?rejected⟩⟩
    case first => rwa [State.ppsTimed_of_first ha] at hedge
    case qualified =>
      rw [State.ppsTimed_of_spaced ha hs] at hedge
      dsimp only at hedge
      rwa [if_pos hrun] at hedge
    case second =>
      rw [State.ppsTimed_of_spaced ha hs] at hedge
      dsimp only at hedge
      rwa [if_neg (Nat.not_le.mpr hrun)] at hedge
    case rejected => rwa [State.ppsTimed_of_unspaced ha hs] at hedge
  case locked => exact leaves_of_eq ((ppsLoss_eq s).trans (holdTime_of_locked (s.ppsLostAt_st.trans hst))) rfl
  case unlocked => exact leaves_of_eq ((ppsLoss_eq s).trans (holdTime_of_unlocked (s.ppsLostAt_st ▸ hst))) rfl
  case noRate => exact leaves_of_eq (rateStart_of_none hp) rfl
  case rate => exact leaves_of_eq (rateStart_of_pending hp) rfl
  case set =>
    refine ⟨fun hsrc => ?other, fun hsrc hheld => ?held, fun hsrc hacq hep hw => ?bad, fun hsrc hacq hep ts hw => ?good⟩
    case other => exact timeSet_leaves hr (timeSetCmd_of_other_source hsrc w)
    case held =>
      refine timeSet_leaves hr (timeSetCmd_of_held hsrc (Bool.eq_false_iff.mpr fun hm => ?_) w)
      obtain ⟨hacq, hep⟩ := (State.mayStep_iff _).mp hm
      exact hheld.elim (fun h => by simp [hacq] at h) (fun h => h hep)
    case bad => exact timeSet_leaves hr (timeSetCmd_of_bad hsrc ((State.mayStep_iff _).mpr ⟨hacq, hep⟩) hw)
    case good => exact timeSet_leaves hr (timeSetCmd_of_good hsrc ((State.mayStep_iff _).mpr ⟨hacq, hep⟩) hw)

end Sys2Proof.Machine
end

section
/-! SUPPORT. TOD sentences, the TDC's channels and the TIA trims (03 R70; 16 R350 to R356; 21 R459; 22 R478, R483). -/

namespace Sys2Proof.Machine

/-! ### TOD sentences (16 R350, R352) -/

/-- The second a sentence gives, where it parses, is VALID and ends 100 to 900 ms after an edge. -/
def todSecond (l : List Byte) (ms : Nat) : Option Nat :=
  match todParse l with
  | some (n, fl) => if 100 ≤ ms ∧ ms ≤ 900 ∧ fl % 2 = 1 then some n else none
  | none => none

theorem todSecond_eq_some {l : List Byte} {ms n : Nat} :
    todSecond l ms = some n ↔ ∃ fl, todParse l = some (n, fl) ∧ 100 ≤ ms ∧ ms ≤ 900 ∧ fl % 2 = 1 := by
  unfold todSecond
  cases todParse l with
  | none => simp
  | some p =>
    obtain ⟨m, fl⟩ := p
    dsimp only
    split
    · rename_i h
      constructor
      · rintro ⟨rfl⟩
        exact ⟨fl, rfl, h⟩
      · rintro ⟨_, ⟨rfl⟩, -⟩
        rfl
    · rename_i h
      constructor
      · rintro ⟨⟩
      · rintro ⟨_, ⟨rfl⟩, hv⟩
        exact absurd hv h

theorem todReceive_of_good {s : State} {l : List Byte} {ms n : Nat} (h : todSecond l ms = some n) :
    todReceive s l ms = { s with tim := { s.tim with
      label := if s.tim.label = none ∨ s.tim.label = some (some n) then some (some n) else some none } } := by
  unfold todReceive
  change (match todSecond l ms with | none => _ | some n => _) = _
  rw [h]
  rcases s.tim.label with _ | _ | m <;> simp

theorem todReceive_of_bad {s : State} {l : List Byte} {ms : Nat} (h : todSecond l ms = none) :
    todReceive s l ms = { s with tim := { s.tim with todRejects := satAdd 16 s.tim.todRejects 1 } } := by
  unfold todReceive
  change (match todSecond l ms with | none => _ | some n => _) = _
  rw [h]

theorem todSend_of_untimed {s : State} (h : s.tim.st = .free ∨ s.tim.st = .rtc) : todSend s = s := by
  rcases h with h | h <;> simp only [todSend, h]

theorem todSend_of_timed {s : State} (hf : s.tim.st ≠ .free) (hr : s.tim.st ≠ .rtc) :
    todSend s = { s with pads := { s.pads with todTx := todSentenceOf (tsSec s.now + 1) s.timeGood } } := by
  unfold todSend
  split
  · contradiction
  · contradiction
  · rfl

/-! ### TDC channel 3 (16 R353; 21 R459) -/

/-- An edge that counts is a SYNC edge of a cascade member, or only measured. -/
theorem tdc3_of_measured_only {s : State} {m : TdcIn}
    (h : (s.tdcEdge 3 m).2.instant = none ∨ (s.tdcEdge 3 m).1.conf.cascade.role = 0 ∨ (s.tdcEdge 3 m).1.conf.time.tdc3Sel ≠ 1) :
    tdc3 s m = (s.tdcEdge 3 m).1 := by
  unfold tdc3
  dsimp only
  cases hi : (s.tdcEdge 3 m).2.instant with
  | none => rfl
  | some x => exact if_neg fun ⟨hrole, hsel⟩ => h.elim (by simp [hi]) (·.elim hrole fun hne => hne hsel)

theorem tdc3_of_sync {s : State} {m : TdcIn} {x : Nat} (hi : (s.tdcEdge 3 m).2.instant = some x)
    (hrole : (s.tdcEdge 3 m).1.conf.cascade.role ≠ 0) (hsel : (s.tdcEdge 3 m).1.conf.time.tdc3Sel = 1) :
    tdc3 s m =
      let t := (s.tdcEdge 3 m).1
      let u : State := { t with cas := { t.cas with syncInst := x } }
      if t.cas.master = true then u else u.sendRing (.syncInstant x) := by
  unfold tdc3
  dsimp only
  rw [hi]
  exact if_pos ⟨hrole, hsel⟩

/-! ### Calibrations and self-tests (16 R354, R356) -/

theorem tdcCal_of_retired {s : State} {ch : Nat} (h : s.aos.tdcs.contains ch = true) (n1 n2 : Nat) : tdcCal s ch n1 n2 = s := if_pos h

theorem tdcCal_of_good {s : State} {ch n1 n2 : Nat} (h : s.aos.tdcs.contains ch = false) (hc : calOk n1 n2 = true) :
    tdcCal s ch n1 n2 = { s with tim := s.tim.setTdc ch { s.tim.tdc ch with
      n1 := n1 % 2 ^ 11, n2 := n2 % 2 ^ 11, lsb := lsbFs n1 n2, busy := false } } :=
  (if_neg (Bool.eq_false_iff.mp h)).trans (if_pos hc)

theorem tdcCal_of_bad {s : State} {ch n1 n2 : Nat} (h : s.aos.tdcs.contains ch = false) (hc : calOk n1 n2 = false) :
    tdcCal s ch n1 n2 = { s with tim := s.tim.setTdc ch { s.tim.tdc ch with
      calBad := satAdd 16 (s.tim.tdc ch).calBad 1, busy := true, testing := some (lsbFs n1 n2, 2 * (n1 : Int) - n2) } } :=
  (if_neg (Bool.eq_false_iff.mp h)).trans (if_neg (Bool.eq_false_iff.mp hc))

theorem tdcSelfTest_of_none {s : State} {ch : Nat} (h : (s.tim.tdc ch).testing = none) (dev : List Int) : tdcSelfTest s ch dev = s := by
  simp only [tdcSelfTest, h]

theorem tdcSelfTest_of_testing {s : State} {ch : Nat} {t : Nat × Int} (h : (s.tim.tdc ch).testing = some t) (dev : List Int) :
    tdcSelfTest s ch dev = tdcTestEnd s ch (dev.all fun e => decide (-2 ≤ e ∧ e ≤ 2)) t := by
  simp only [tdcSelfTest, h]

theorem all_within_eq_true {dev : List Int} (h : ∀ e ∈ dev, -2 ≤ e ∧ e ≤ 2) :
    (dev.all fun e => decide (-2 ≤ e ∧ e ≤ 2)) = true :=
  List.all_eq_true.mpr fun e he => decide_eq_true (h e he)

theorem all_within_eq_false {dev : List Int} (h : ∃ e ∈ dev, e < -2 ∨ 2 < e) :
    (dev.all fun e => decide (-2 ≤ e ∧ e ≤ 2)) = false := by
  obtain ⟨e, he, hout⟩ := h
  exact List.all_eq_false.mpr ⟨e, he, by simp only [decide_eq_true_iff]; omega⟩

/-! ### The self-check in turn, and the TIA trims (03 R70; 22 R478, R483) -/

/-- The channel whose turn it is. -/
def State.checkTurn (s : State) : Nat := s.bgw.tdcNext % 4

/-- A run of the check: the next channel's turn comes. -/
def State.checkRun (s : State) : State :=
  (endTask (startTask s 3 0 secTicks) 3).modBgw fun b => { b with tdcNext := (s.checkTurn + 1) % 4 }

theorem tdcCheck_of_unfit {s : State}
    (h : s.coreRuns = false ∨ (s.aos.tdcs.contains s.checkTurn = false ∧ s.checkFits s.checkTurn = false)) (pass : Bool) :
    tdcCheck s pass = s := by
  rw [State.checkTurn] at h
  unfold tdcCheck
  cases hr : s.coreRuns with
  | false => rfl
  | true =>
    obtain ⟨hretired, hfits⟩ := h.resolve_left (by simp [hr])
    dsimp only
    rw [hretired, hfits]
    rfl

theorem tdcCheck_of_retired {s : State} (hr : s.coreRuns = true) (h : s.aos.tdcs.contains s.checkTurn = true) (pass : Bool) :
    tdcCheck s pass = s.modBgw fun b => { b with tdcNext := (s.checkTurn + 1) % 4 } := by
  rw [State.checkTurn] at h
  unfold tdcCheck
  dsimp only
  rw [hr, h]
  rfl

theorem tdcCheck_of_fit {s : State} (hr : s.coreRuns = true) (h : s.aos.tdcs.contains s.checkTurn = false)
    (hf : s.checkFits s.checkTurn = true) (pass : Bool) :
    tdcCheck s pass = if pass = true then s.checkRun else { s.checkRun with
      tim := s.checkRun.tim.setTdc s.checkTurn { s.checkRun.tim.tdc s.checkTurn with
        calBad := satAdd 16 (s.checkRun.tim.tdc s.checkTurn).calBad 1, busy := true
        testing := some ((s.checkRun.tim.tdc s.checkTurn).lsb,
          2 * ((s.checkRun.tim.tdc s.checkTurn).n1 : Int) - (s.checkRun.tim.tdc s.checkTurn).n2) } } := by
  rw [State.checkTurn] at h hf
  unfold tdcCheck
  dsimp only
  rw [hr, h, hf]
  rfl

theorem tiaTrim_of_stopped {s : State} (h : s.acquiring = false ∨ s.coreRuns = false) (step : List Int) : tiaTrim s step = s :=
  if_pos (by rcases h with h | h <;> simp [h])

theorem tiaTrim_of_running {s : State} (ha : s.acquiring = true) (hr : s.coreRuns = true) (step : List Int) :
    tiaTrim s step =
      let a := s.advance (alignUp s.tim.tick 256)
      let t := endTask (startTask a 2 a.bgw.acqFrom msTicks) 2
      { t with rxf := { t.rxf with tiaTrim := t.rxf.tiaTrim.mapIdx fun i v => v + clampInt (-1) 1 (nth step i 0) } } :=
  if_neg (by simp [ha, hr])

/-! ### The statement -/

theorem todSentence_leaves {s u : State} {l : List Byte} {ms : Nat} (h : todReceive s l ms = u) : Leaves (.todSentence l ms) s u :=
  leaves_of_eq h rfl

theorem tdc3Edge_leaves {s u : State} {m : TdcIn} (h : tdc3 s m = u) : Leaves (.tdc3Edge m) s u := leaves_of_eq h rfl

theorem tdcCalDone_leaves {s u : State} {ch n1 n2 : Nat} (h : tdcCal s ch n1 n2 = u) : Leaves (.tdcCalDone ch n1 n2) s u :=
  leaves_of_eq h rfl

theorem tdcSelfTestDone_leaves {s u : State} {ch : Nat} {dev : List Int} (h : tdcSelfTest s ch dev = u) :
    Leaves (.tdcSelfTestDone ch dev) s u := leaves_of_eq h rfl

theorem tdcCheck_leaves {s u : State} {pass : Bool} (h : tdcCheck s pass = u) : Leaves (.tdcCheck pass) s u := leaves_of_eq h rfl

theorem tiaTrim_leaves {s u : State} {step : List Int} (h : tiaTrim s step = u) : Leaves (.tiaTrim step) s u := leaves_of_eq h rfl

/-- Settles O41: a sentence by the second it gives, an edge on channel 3 by whether it is a member's SYNC edge, calibrations, tests and
checks by the channel's standing. -/
theorem todAndTdc : Obligations.TodAndTdc := by
  refine fun s => ⟨fun l ms => ⟨fun n hv => ?label, fun hv => ?reject⟩, fun hst => ?silent, fun hf hr => ?sent,
    fun m => ⟨fun h => ?measured, fun x hi hrole hsel => ⟨fun hm => ?master, fun hm => ?member⟩⟩,
    fun ch n1 n2 => ⟨fun h => ?retired, fun h hc => ?good, fun h hc => ?bad⟩,
    fun ch dev => ⟨fun h => ?noTest, fun t h => ⟨fun hin => ?passed, fun hout => ?failed⟩⟩,
    ⟨fun pass h => ?unfit, fun pass hr h => ?passedOver, fun hr h hf => ?checked⟩,
    fun step => ⟨fun h => ?stopped, fun ha hr => ?trimmed⟩⟩
  case label => exact todSentence_leaves (todReceive_of_good (todSecond_eq_some.mpr hv))
  case reject => exact todSentence_leaves (todReceive_of_bad (Option.eq_none_iff_forall_ne_some.mpr fun n hn => hv n (todSecond_eq_some.mp hn)))
  case silent => exact leaves_of_eq (todSend_of_untimed hst) rfl
  case sent => exact leaves_of_eq (todSend_of_timed hf hr) rfl
  case measured => exact tdc3Edge_leaves (tdc3_of_measured_only h)
  case master => exact tdc3Edge_leaves ((tdc3_of_sync hi hrole hsel).trans (if_pos hm))
  case member => exact tdc3Edge_leaves ((tdc3_of_sync hi hrole hsel).trans (if_neg (Bool.eq_false_iff.mp hm)))
  case retired => exact tdcCalDone_leaves (tdcCal_of_retired h n1 n2)
  case good => exact tdcCalDone_leaves (tdcCal_of_good h hc)
  case bad => exact tdcCalDone_leaves (tdcCal_of_bad h hc)
  case noTest => exact tdcSelfTestDone_leaves (tdcSelfTest_of_none h dev)
  case passed => exact tdcSelfTestDone_leaves (all_within_eq_true hin ▸ tdcSelfTest_of_testing h dev)
  case failed => exact tdcSelfTestDone_leaves (all_within_eq_false hout ▸ tdcSelfTest_of_testing h dev)
  case unfit => exact tdcCheck_leaves (tdcCheck_of_unfit h pass)
  case passedOver => exact tdcCheck_leaves (tdcCheck_of_retired hr h pass)
  case checked => exact ⟨tdcCheck_leaves (tdcCheck_of_fit hr h hf true), tdcCheck_leaves (tdcCheck_of_fit hr h hf false)⟩
  case stopped => exact tiaTrim_leaves (tiaTrim_of_stopped h step)
  case trimmed => exact tiaTrim_leaves (tiaTrim_of_running ha hr step)

end Sys2Proof.Machine
end

section
/-! SUPPORT. Housekeeping scans and conversions, and the RTD channels (03 R79; 17 R362 to R378). -/

namespace Sys2Proof.Machine

/-! ### Scans and conversions (17 R362 to R373) -/

theorem hkScan_of_due {s : State} (hr : s.hka.running = true) (hs : s.hka.scan = []) :
    hkScan s =
      let t := s.advance s.hka.nextScan
      { t with hka := { t.hka with
        scanTick := some t.tim.tick, scan := hkChannels (hkMask t.conf.hk.mask), first := true
        maskEff := hkMask t.conf.hk.mask, period := t.conf.hk.period
        maskNew := t.hka.maskNew || t.hka.maskEff != hkMask t.conf.hk.mask } } :=
  if_neg (by simp [hr, hs])

theorem hkScan_of_not_due {s : State} (h : s.hka.running = false ∨ s.hka.scan ≠ []) : hkScan s = s :=
  if_pos (by rcases h with h | h <;> simp [h])

theorem hkConvert_of_idle {s : State} (h : s.hka.running = false ∨ s.hka.scan = []) (input : HkIn) : hkConvert s input = s := by
  unfold hkConvert
  split
  · rfl
  · rename_i hr
    rw [h.resolve_left (by simpa using hr)]

theorem hkConvert_of_channel {s : State} {ch : Nat} {rest : List Nat} (hr : s.hka.running = true) (hs : s.hka.scan = ch :: rest)
    (input : HkIn) :
    hkConvert s input =
      let v := s.advance s.hka.convEnd
      let t : State := { v with hka := { v.hka with
        scan := rest, maskNew := v.hka.maskNew && !v.hka.first, first := false
        scans := if rest = [] then wrapAdd 32 v.hka.scans 1 else v.hka.scans, last := smSet none v.hka.last ch (some (hkCode input)) } }
      (List.range 32).foldl (fun u n => cmpEval u n ch (hkCode input) v.hka.widx)
        (hkStore (if ch = 16 then loReading t (hkCode input) else t) (hkWord (hkCode input) v.hka.first v.hka.maskNew)) := by
  unfold hkConvert
  rw [if_neg (by simp [hr]), hs]

/-! ### RTD channels (17 R374 to R378) -/

theorem rtdSeeBreak_of_disabled {s : State} {n : Nat} (h : (s.hka.rtd n).cfg.en ≠ 1) : rtdSeeBreak s n = s := if_pos h

theorem rtdSeeBreak_of_enabled {s : State} {n : Nat} (h : (s.hka.rtd n).cfg.en = 1) :
    rtdSeeBreak s n =
      let r := s.hka.rtd n
      let a := s.hka.setRtd n { r with brk := true, brkNow := true, breaks := if r.brk then r.breaks else satAdd 16 r.breaks 1 }
      { s with hka := { a with int := a.int.raiseIf (!r.brk) 5 } } :=
  if_neg (not_not.mpr h)

/-- The end of a conversion at its time, with the break that its reading shows. -/
def State.rtdSeen (s : State) (n uv na : Nat) : State :=
  let v := rtdTime s n
  if 10 * na < 9 * excNa (v.hka.rtd n).cfg.exc ∨ rtdLimit ≤ uv then rtdSeeBreak v n else v

/-- The settings of the next conversion let its reading settle. -/
def State.rtdSettles (t : State) (n : Nat) : Bool :=
  let r := t.hka.rtd n
  let new := nth t.conf.rtd n {}
  new.en == 1 && (r.cfg.en != 1 || r.cfg.type != new.type || r.cfg.exc != new.exc)

/-- The cause of a conversion's result. -/
def State.rtdCauseOf (t : State) (n uv na : Nat) : Nat := rtdCause (t.hka.rtd n) (t.hka.rtd n).brkNow uv na

/-- The temperature of a conversion's result. -/
def State.rtdTempOf (t : State) (n uv na : Nat) : Int :=
  if t.rtdCauseOf n uv na = 0 then rtdTemp (t.hka.rtd n).cfg.type uv na else -32768

/-- The result of a conversion of an enabled channel in its registers. -/
def State.rtdResult (t : State) (n uv na : Nat) : State :=
  let r := t.hka.rtd n
  let restored := r.brk && t.rtdCauseOf n uv na != 1
  let a := t.hka.setRtd n { r with
    temp := t.rtdTempOf n uv na, cause := t.rtdCauseOf n uv na, convs := wrapAdd 16 r.convs 1
    res := if na = 0 then r.res else min (2 ^ 32 - 1) (roundDiv (100000 * uv) na).toNat
    brk := r.brk && !restored, brkNow := false, settling := t.rtdSettles n, cfg := nth t.conf.rtd n {} }
  { t with hka := { a with int := a.int.raiseIf restored 6 } }

theorem rtdEnd_of_disabled {s : State} {n uv na : Nat} (h : ((s.rtdSeen n uv na).hka.rtd n).cfg.en ≠ 1) :
    rtdEnd s n uv na =
      let t := s.rtdSeen n uv na
      { t with hka := t.hka.setRtd n { t.hka.rtd n with
        cfg := nth t.conf.rtd n {}, settling := t.rtdSettles n || (t.hka.rtd n).settling } } :=
  if_pos h

theorem rtdEnd_of_enabled {s : State} {n uv na : Nat} (h : ((s.rtdSeen n uv na).hka.rtd n).cfg.en = 1) :
    rtdEnd s n uv na =
      let t := s.rtdSeen n uv na
      let u := t.rtdResult n uv na
      if t.rtdCauseOf n uv na = 0 ∧ u.dts.running = true ∧ u.conf.dts.coilRtd = n then
        { u with dts := { u.dts with readings := u.dts.readings ++ [(u.tim.tick, t.rtdTempOf n uv na)] } }
      else u :=
  if_neg (not_not.mpr h)

/-! ### The statement -/

theorem hkConversion_leaves {s u : State} {input : HkIn} (h : hkConvert s input = u) : Leaves (.hkConversion input) s u :=
  leaves_of_eq h rfl

theorem rtdConversionEnd_leaves {s u : State} {n uv na : Nat} (h : rtdEnd s n uv na = u) : Leaves (.rtdConversionEnd n uv na) s u :=
  leaves_of_eq h rfl

/-- Settles O42: scans and conversions by whether housekeeping is at it, RTD events by whether their channel is enabled. -/
theorem housekeepingEvents : Obligations.HousekeepingEvents := by
  refine fun s => ⟨fun hr hs => ?scan, fun h => ?noScan, fun input h => ?idle, fun input ch rest hr hs => ?channel,
    fun n => ⟨fun h => ?ignored, fun h => ?broken⟩, fun n uv na => ⟨fun h => ?disabled, fun h => ⟨fun hc hd hn => ?coil, fun hnot => ?other⟩⟩⟩
  case scan => exact leaves_of_eq (hkScan_of_due hr hs) rfl
  case noScan => exact leaves_of_eq (hkScan_of_not_due h) rfl
  case idle => exact hkConversion_leaves (hkConvert_of_idle h input)
  case channel => cases input <;> exact hkConversion_leaves (hkConvert_of_channel hr hs _)
  case ignored => exact leaves_of_eq (rtdSeeBreak_of_disabled h) rfl
  case broken => exact leaves_of_eq (rtdSeeBreak_of_enabled h) rfl
  case disabled => exact rtdConversionEnd_leaves (rtdEnd_of_disabled h)
  case coil => exact rtdConversionEnd_leaves ((rtdEnd_of_enabled h).trans (if_pos ⟨hc, hd, hn⟩))
  case other =>
    refine rtdConversionEnd_leaves ((rtdEnd_of_enabled h).trans (if_neg fun ⟨hc, hd, hn⟩ => ?_))
    exact hnot.elim (fun h => h hc) (·.elim (fun h => Bool.false_ne_true (h.symm.trans hd)) fun h => h hn)

end Sys2Proof.Machine
end

section
/-! SUPPORT. DRAM requests: what the controller keeps while requests queue, and what a request granted at once reads and writes (14 R295,
R301 to R305, R311, R312). -/

namespace Sys2Proof.Machine

/-! ### What queues, refresh and panic leave of the DRAM (14 R303 to R307) -/

/-- The DRAM apart from its channels and the FIFOs of the real-time ports. -/
def Mem.stored (m : Mem) : Mem :=
  { m with chans := [], panic := [], fill := [], fillHigh := [], panics := [], overflow := [], int := {} }

theorem Mem.settle_stored (m : Mem) (t : Nat) : (m.settle t).stored = m.stored := by
  unfold Mem.settle
  split <;> rfl

/-- Where panic ends, repayment may begin. -/
theorem Mem.panicOverIf_stored (m : Mem) (b : Bool) (t : Nat) : (if b = true then m.panicOver t else m).stored = m.stored := by
  cases b <;> rfl

theorem setFill_stored (s : State) (p n : Nat) : (setFill s p n).mem.stored = s.mem.stored := by
  unfold setFill
  split
  · rfl
  · exact Mem.panicOverIf_stored _ _ _

/-- The fill of a FIFO is recorded in MEM alone. -/
theorem setFill_parts (s : State) (p n : Nat) : setFill s p n = { s with mem := (setFill s p n).mem } := by
  unfold setFill
  split <;> rfl

/-- Under the same contents a unit has the same bytes. -/
theorem State.unitBytes_of_stored {s : State} {m : Mem} (h : m.stored = s.mem.stored) (a : Nat) :
    ({ s with mem := m } : State).unitBytes a = s.unitBytes a := by
  have hpattern : m.pattern = s.mem.pattern := (congrArg Mem.pattern h :)
  have hgone : m.patternGone = s.mem.patternGone := (congrArg Mem.patternGone h :)
  have hdata : m.data = s.mem.data := (congrArg Mem.data h :)
  simp only [State.unitBytes, State.dramByte, hpattern, hgone, hdata]
  rfl

/-! ### A unit stored (14 R295, R312) -/

/-- In `v` the 64 bytes of unit `u` are `l`, and every other byte is as in `m`. -/
def Mem.HoldsUnit (v m : Mem) (u : Nat) (l : List Byte) : Prop :=
  (∀ i < 64, smGet 0 v.data (u * 64 + i) = nth l i 0) ∧ ∀ a, a / 64 ≠ u → smGet 0 v.data a = smGet 0 m.data a

theorem Mem.store_holdsUnit_of_data {v m : Mem} (h : v.data = m.data) (a : Nat) (l : List Byte) :
    (v.store a l).HoldsUnit m (a / 64) l := by
  refine ⟨fun i hi => ?_, fun b hb => (smGet_writeUnit v.data a l b hb).trans (by rw [h])⟩
  change smGet 0 (writeUnit v.data a l) (a / 64 * 64 + i) = _
  rw [writeUnit, smGet_setRange, if_pos ⟨Nat.le_add_right _ _, Nat.add_lt_add_left hi _⟩, Nat.add_sub_cancel_left]

theorem Mem.store_not_poisoned (m : Mem) (a : Nat) (l : List Byte) : a / 64 ∉ (m.store a l).poison := by
  simp [Mem.store]

theorem mem_addOnce (l : List Nat) (a : Nat) : a ∈ addOnce l a := by
  unfold addOnce
  split
  · rename_i h
    exact List.contains_iff_mem.mp h
  · exact List.mem_append_right l (List.mem_singleton.mpr rfl)

/-! ### What a granted request meets in its unit (14 R311, R312) -/

/-- Only the rows under test change where a row test begins. -/
theorem startRowTest_parts (m : Mem) (l : DramLoc) (q : DramReq) (syn : Nat) :
    startRowTest m l q syn = { m with tests := (startRowTest m l q syn).tests } := by
  unfold startRowTest
  split <;> rfl

section
variable {s : State} {q : MemReq} {l : DramLoc}

theorem readUnitOf_of_clean (hp : q.req.addr / 64 ∉ s.mem.poison) (he : q.ecc = .clean) :
    readUnitOf s q l = (s, some (s.unitBytes q.req.addr)) := by
  simp [readUnitOf, hp, he]

/-- A corrected error is counted and its row tested; the data come corrected. -/
theorem readUnitOf_of_corrected {syn : Nat} (hp : q.req.addr / 64 ∉ s.mem.poison) (he : q.ecc = .corrected syn) :
    readUnitOf s q l = ({ s with mem := { s.mem with
      tests := (startRowTest s.mem l q.req syn).tests, ce := satAdd 32 s.mem.ce 1, int := s.mem.int.raise 0 } },
      some (s.unitBytes q.req.addr)) := by
  simp only [readUnitOf, List.contains_eq_mem, hp, he, decide_false, Bool.false_eq_true, if_false]
  rw [startRowTest_parts]

/-- The unit is lost to an uncorrectable error: no byte changes, it is poisoned, and the error is counted and recorded. -/
structure UnitLost (s t : State) (q : DramReq) : Prop where
  data : t.mem.data = s.mem.data
  poison : q.addr / 64 ∈ t.mem.poison
  ue : t.mem.ue = satAdd 32 s.mem.ue 1
  addr : t.mem.err.addr = q.addr
  req : t.mem.err.req = q.code

theorem readUnitOf_of_lost (h : q.req.addr / 64 ∈ s.mem.poison ∨ ∃ syn, q.ecc = .uncorrectable syn) :
    (readUnitOf s q l).2 = none ∧ UnitLost s (readUnitOf s q l).1 q.req := by
  have key : ∃ syn, (if s.mem.poison.contains (q.req.addr / 64) then EccResult.uncorrectable 0 else q.ecc) = .uncorrectable syn := by
    rcases h with h | ⟨syn, h⟩
    · exact ⟨0, if_pos (List.contains_iff_mem.mpr h)⟩
    · split
      · exact ⟨0, rfl⟩
      · exact ⟨syn, h⟩
  obtain ⟨syn, hsyn⟩ := key
  unfold readUnitOf
  dsimp only
  rw [hsyn]
  exact ⟨rfl, startRowTest_data _ _ _ _, mem_addOnce _ _, congrArg (fun m => satAdd 32 m.ue 1) (startRowTest_parts _ _ _ _), rfl, rfl⟩

end

/-! ### A granted request (14 R295, R302, R311, R312; log 77) -/

/-- What a granted request does at its place, once the page policy has seen its access. -/
def State.served (s : State) (q : MemReq) (l : DramLoc) : State :=
  match q.req.write with
  | some (o, d) =>
    if 64 ≤ d.length then { s with mem := s.mem.store q.req.addr d }
    else match readUnitOf s q l with
      | (s, some old) => { s with mem := s.mem.store q.req.addr (old.take o ++ d ++ old.drop (o + d.length)) }
      | (s, none) => s
  | none =>
    let (s, d) := readUnitOf s q l
    { s with mem := { s.mem with lastRead := some (q.req.addr, d) } }

/-- The page policy of the bank of a place sees an access. -/
def Mem.accessed (m : Mem) (l : DramLoc) : Mem :=
  m.modCh l.channel fun c => { c with banks := modAt c.banks l.bank fun b => b.access l.row }

theorem memAccess_eq (s : State) (q : MemReq) :
    memAccess s q = State.served { s with mem := s.mem.accessed (s.dramAt q.req.addr) } q (s.dramAt q.req.addr) := rfl

section
variable {s : State} {q : MemReq} {l : DramLoc} {o : Nat} {d old : List Byte}

theorem State.served_of_whole (hw : q.req.write = some (o, d)) (hd : 64 ≤ d.length) :
    s.served q l = { s with mem := s.mem.store q.req.addr d } := by
  simp only [State.served, hw, if_pos hd]

theorem State.served_of_part (hw : q.req.write = some (o, d)) (hd : d.length < 64) (hr : (readUnitOf s q l).2 = some old) :
    s.served q l = { (readUnitOf s q l).1 with
      mem := (readUnitOf s q l).1.mem.store q.req.addr (old.take o ++ d ++ old.drop (o + d.length)) } := by
  generalize hread : readUnitOf s q l = r at hr
  obtain ⟨t, u⟩ := r
  cases hr
  simp only [State.served, hw, if_neg (Nat.not_le.mpr hd), hread]

theorem State.served_of_part_lost (hw : q.req.write = some (o, d)) (hd : d.length < 64) (hr : (readUnitOf s q l).2 = none) :
    s.served q l = (readUnitOf s q l).1 := by
  generalize hread : readUnitOf s q l = r at hr
  obtain ⟨t, u⟩ := r
  cases hr
  simp only [State.served, hw, if_neg (Nat.not_le.mpr hd), hread]

theorem State.served_of_read (hw : q.req.write = none) :
    s.served q l = { (readUnitOf s q l).1 with
      mem := { (readUnitOf s q l).1.mem with lastRead := some (q.req.addr, (readUnitOf s q l).2) } } := by
  simp only [State.served, hw]

/-- A request that is no write of a whole unit counts the errors its read meets. -/
theorem State.served_counts (h : ¬ ∃ o d, q.req.write = some (o, d) ∧ 64 ≤ d.length) :
    (s.served q l).mem.ce = (readUnitOf s q l).1.mem.ce ∧ (s.served q l).mem.ue = (readUnitOf s q l).1.mem.ue ∧
      (s.served q l).mem.int = (readUnitOf s q l).1.mem.int := by
  cases hw : q.req.write with
  | none =>
    rw [State.served_of_read hw]
    exact ⟨rfl, rfl, rfl⟩
  | some w =>
    obtain ⟨o, d⟩ := w
    have hd : d.length < 64 := Nat.lt_of_not_le fun hd => h ⟨o, d, hw, hd⟩
    cases hr : (readUnitOf s q l).2 with
    | some old =>
      rw [State.served_of_part hw hd hr]
      exact ⟨rfl, rfl, rfl⟩
    | none =>
      rw [State.served_of_part_lost hw hd hr]
      exact ⟨rfl, rfl, rfl⟩

/-- Such a request to a unit that is lost. -/
theorem State.served_lost (h : ¬ ∃ o d, q.req.write = some (o, d) ∧ 64 ≤ d.length)
    (hlost : q.req.addr / 64 ∈ s.mem.poison ∨ ∃ syn, q.ecc = .uncorrectable syn) :
    UnitLost s (s.served q l) q.req ∧ (q.req.write = none → (s.served q l).mem.lastRead = some (q.req.addr, none)) := by
  obtain ⟨hnone, hread⟩ := readUnitOf_of_lost (l := l) hlost
  cases hw : q.req.write with
  | none =>
    rw [State.served_of_read hw, hnone]
    exact ⟨⟨hread.data, hread.poison, hread.ue, hread.addr, hread.req⟩, fun _ => rfl⟩
  | some w =>
    obtain ⟨o, d⟩ := w
    rw [State.served_of_part_lost hw (Nat.lt_of_not_le fun hd => h ⟨o, d, hw, hd⟩) hnone]
    exact ⟨hread, fun hw => nomatch hw⟩

/-- What a clean or corrected read leaves: the contents, and the unit's bytes as they are. -/
theorem readUnitOf_of_good (hp : q.req.addr / 64 ∉ s.mem.poison) (he : q.ecc = .clean ∨ ∃ syn, q.ecc = .corrected syn) :
    (readUnitOf s q l).2 = some (s.unitBytes q.req.addr) ∧ (readUnitOf s q l).1.mem.data = s.mem.data := by
  rcases he with he | ⟨syn, he⟩
  · rw [readUnitOf_of_clean hp he]
    exact ⟨rfl, rfl⟩
  · rw [readUnitOf_of_corrected hp he]
    exact ⟨rfl, rfl⟩

/-- No read touches the bytes, whatever it meets. -/
theorem readUnitOf_data (s : State) (q : MemReq) (l : DramLoc) : (readUnitOf s q l).1.mem.data = s.mem.data :=
  congrArg Guard.data (readUnitOf_guard s q l)

/-- A granted request leaves the FIFOs of the real-time ports. -/
theorem State.served_fifos (s : State) (q : MemReq) (l : DramLoc) :
    (s.served q l).mem.fill = s.mem.fill ∧ (s.served q l).mem.panic = s.mem.panic := by
  have hread : (readUnitOf s q l).1.mem.fill = s.mem.fill ∧ (readUnitOf s q l).1.mem.panic = s.mem.panic := by
    unfold readUnitOf
    dsimp only
    split
    · exact ⟨rfl, rfl⟩
    · rw [startRowTest_parts]
      exact ⟨rfl, rfl⟩
    · rw [startRowTest_parts]
      exact ⟨rfl, rfl⟩
  unfold State.served
  split
  · split
    · exact ⟨rfl, rfl⟩
    · split
      · rename_i t old hr
        rw [hr] at hread
        exact hread
      · rename_i t hr
        rw [hr] at hread
        exact hread
  · exact hread

end

/-! ### A request on an idle channel (14 R301 to R305) -/

theorem modAt_getElem?_same {α : Type} {l : List α} {i : Nat} {a : α} (h : l[i]? = some a) (f : α → α) :
    (modAt l i f)[i]? = some (f a) := by
  rw [modAt_getElem?, if_pos rfl, h]
  rfl

theorem nth_of_getElem? {α : Type} {l : List α} {i : Nat} {a : α} (h : l[i]? = some a) (d : α) : nth l i d = a := by
  rw [nth, h]
  rfl

/-- An idle channel has room. -/
theorem Channel.arrive_of_idle {c : Channel} (h : c.queue = []) (q : MemReq) : c.arrive q = { c with queue := [q] } := by
  unfold Channel.arrive
  simp only [h, List.length_nil, List.filter_nil, List.nil_append]
  rw [if_pos]
  split <;> simp

theorem State.pickReq_single {s : State} {q : MemReq} (h : s.reqReady q = true) : s.pickReq [q] = some q := by
  simp [State.pickReq, h]

/-- The only request of a channel, held back by nothing, is granted. -/
theorem grantAll_of_single {s : State} {n : Nat} {c : Channel} {q : MemReq} (hc : s.mem.chans[n]? = some c) (hq : c.queue = [q])
    (hw : c.waiting = []) (hs : c.selfRef = false) (hm : s.mem.ready = true) (hr : s.reqReady q = true) :
    grantAll s n = memAccess { s with mem := s.mem.modCh n fun c => ({ c with queue := c.queue.erase q } : Channel).letIn } q := by
  have hn := nth_of_getElem? hc {}
  have hfuel : grantAll s n = grantLoop s n 1 := by
    simp only [grantAll, hn, hq, hw, List.length_cons, List.length_nil]
  rw [hfuel]
  simp only [grantLoop, hn, hq, hs, hm, State.pickReq_single hr]
  rfl

/-- The state in which a request finds the controller: the debts repaid up to now, the fill of its port recorded. -/
def State.filled (s : State) (q : DramReq) (fill : Nat) : State :=
  setFill { s with mem := s.mem.settle s.tim.tick } q.code fill

theorem State.filled_stored (s : State) (q : DramReq) (fill : Nat) : (s.filled q fill).mem.stored = s.mem.stored :=
  (setFill_stored _ _ _).trans (Mem.settle_stored _ _)

theorem State.filled_parts (s : State) (q : DramReq) (fill : Nat) : s.filled q fill = { s with mem := (s.filled q fill).mem } :=
  setFill_parts _ _ _

/-- Every place is served as the blacklist and the masks say, which MEM does not hold. -/
theorem State.filled_dramAt (s : State) (q : DramReq) (fill a : Nat) : (s.filled q fill).dramAt a = s.dramAt a := by
  rw [State.filled_parts]
  rfl

theorem State.filled_tick (s : State) (q : DramReq) (fill : Nat) : (s.filled q fill).tim.tick = s.tim.tick := by
  rw [State.filled_parts]

/-- A request in its channel, which takes note of the time. -/
def State.queued (s : State) (n : Nat) (q : MemReq) (t : Nat) : State :=
  { s with mem := s.mem.modCh n fun c => { c.arrive q with lastReq := t } }

/-- A request on an idle channel is its only one. -/
theorem State.queued_of_idle {s : State} {n : Nat} {c : Channel} (hc : s.mem.chans[n]? = some c) (hq : c.queue = []) (q : MemReq)
    (t : Nat) : (s.queued n q t).mem.chans[n]? = some { c with queue := [q], lastReq := t } := by
  have h := modAt_getElem?_same hc fun c => ({ c.arrive q with lastReq := t } : Channel)
  rwa [Channel.arrive_of_idle hq] at h

/-- `v` is left by serving `q` in a DRAM that holds what that of `s` holds, with its FIFOs and interrupts. -/
def State.ServedAs (s : State) (q : MemReq) (v : State) : Prop :=
  ∃ (m : Mem) (l : DramLoc), m.stored = s.mem.stored ∧ m.fill = s.mem.fill ∧ m.panic = s.mem.panic ∧ m.int = s.mem.int ∧
    v = State.served { s with mem := m } q l

theorem grantAll_queued_of_idle {s : State} {n : Nat} {q : MemReq} {c : Channel} (hc : s.mem.chans[n]? = some c)
    (hq : c.queue = []) (hw : c.waiting = []) (hs : c.selfRef = false) (hm : s.mem.ready = true) (hr : s.reqReady q = true) (t : Nat) :
    s.ServedAs q (grantAll (s.queued n q t) n) := by
  rw [grantAll_of_single (State.queued_of_idle hc hq q t) rfl hw hs hm hr, memAccess_eq]
  refine ⟨_, _, ?_, ?_, ?_, ?_, rfl⟩ <;> rfl

/-- A real-time port in panic brings a channel out of self-refresh; then the channel grants what it can. -/
theorem dramArrive_eq (s : State) (q : DramReq) (ecc : EccResult) (fill : Nat) :
    dramArrive s q ecc fill =
      let n := (s.dramAt q.addr).channel
      let t := (s.filled q fill).queued n ⟨q, ecc, false⟩ s.tim.tick
      grantAll (if q.code ≤ 2 ∧ nth t.mem.panic q.code false = true ∧ (nth t.mem.chans n {}).selfRef = true
        then exitSelfRef t n else t) n := by
  rw [← State.filled_dramAt s q fill, ← State.filled_tick s q fill]
  rfl

/-- A request on an idle channel out of self-refresh is granted at once. -/
theorem dramArrive_of_idle {s : State} {q : DramReq} {ecc : EccResult} {fill : Nat} {c : Channel}
    (hc : (s.filled q fill).mem.chans[(s.dramAt q.addr).channel]? = some c) (hq : c.queue = []) (hw : c.waiting = [])
    (hs : c.selfRef = false) (hm : s.mem.ready = true) (hr : (s.filled q fill).reqReady ⟨q, ecc, false⟩ = true) :
    (s.filled q fill).ServedAs ⟨q, ecc, false⟩ (dramArrive s q ecc fill) := by
  have hready : (s.filled q fill).mem.stored.ready = s.mem.stored.ready := congrArg Mem.ready (s.filled_stored q fill)
  rw [dramArrive_eq]
  dsimp only
  rw [if_neg]
  · exact grantAll_queued_of_idle hc hq hw hs (hready.trans hm) hr _
  · rintro ⟨-, -, hself⟩
    rw [nth_of_getElem? (State.queued_of_idle hc hq _ _)] at hself
    exact Bool.false_ne_true (hs.symm.trans hself)

/-! ### The statement -/

/-- A DRAM request that exists leaves what the controller makes of it. -/
theorem dramRequest_leaves {s u : State} {q : DramReq} {ecc : EccResult} {fill : Nat} (ha : q.addr < s.dramUsable)
    (h : dramArrive s q ecc fill = u) : Leaves (.dramRequest q ecc fill) s u :=
  leaves_of_eq h (if_neg (Nat.not_le.mpr ha))

/-- The same as the state it completes with. -/
theorem dramRequest_next {s : State} {q : DramReq} (ha : q.addr < s.dramUsable) (ecc : EccResult) (fill : Nat) :
    ∃ v : State, exec (.dramRequest q ecc fill) s = .next v ∧ v.mem = (dramArrive s q ecc fill).mem := by
  refine ⟨_, Eq.trans (if_neg (Nat.not_le.mpr ha)) (State.done_eq _ _), rfl⟩

/-- Settles O38: a request goes the way of `dramArrive`; on an idle channel it is served at once, by what it writes and what its read
meets. -/
theorem dramRequests : Obligations.DramRequests := by
  refine fun s => ⟨fun q ecc fill ha => ⟨dramRequest_leaves ha (dramArrive_eq s q ecc fill), fun c hc hq hw hs hm hr => ?served⟩,
    fun n i => leaves_of_done rfl⟩
  obtain ⟨v, hv, hmem⟩ := dramRequest_next ha ecc fill
  obtain ⟨m, l, hstored, hfill, hpanic, hint, hserved⟩ := dramArrive_of_idle hc hq hw hs hm hr
  have hsame : m.stored = s.mem.stored := hstored.trans (s.filled_stored q fill)
  have hdata : m.data = s.mem.data := (congrArg Mem.data hsame :)
  have hpoison : m.poison = s.mem.poison := (congrArg Mem.poison hsame :)
  have hce : m.ce = s.mem.ce := (congrArg Mem.ce hsame :)
  have hue : m.ue = s.mem.ue := (congrArg Mem.ue hsame :)
  have hbytes : ({ s.filled q fill with mem := m } : State).unitBytes q.addr = s.unitBytes q.addr := by
    rw [State.filled_parts]
    exact State.unitBytes_of_stored hsame q.addr
  obtain ⟨g, hg⟩ : ∃ g : State, { s.filled q fill with mem := m } = g := ⟨_, rfl⟩
  rw [hg] at hserved hbytes
  have hgm : g.mem = m := hg ▸ rfl
  rw [← hpoison, ← hgm]
  rw [← hgm] at hdata hce hue hfill hpanic hint
  obtain ⟨hfill', hpanic'⟩ := g.served_fifos ⟨q, ecc, false⟩ l
  refine ⟨v, hv, ?_⟩
  rw [hmem, hserved]
  refine ⟨hfill'.trans hfill, hpanic'.trans hpanic, fun o d hw hd => ?whole, fun o d hw hd ⟨hp, he⟩ => ?part,
    fun hw => ⟨?readKeeps, fun ⟨hp, he⟩ => ?read⟩, fun hwhole => ⟨fun hp he => ?clean, fun syn hp he => ?corrected, fun hlost => ?lost⟩⟩
  case whole =>
    rw [State.served_of_whole (q := ⟨q, ecc, false⟩) hw hd]
    exact ⟨Mem.store_holdsUnit_of_data hdata q.addr d, Mem.store_not_poisoned _ _ _, hce, hue⟩
  case part =>
    obtain ⟨hold, hkept⟩ := readUnitOf_of_good (q := ⟨q, ecc, false⟩) (l := l) hp he
    rw [State.served_of_part (q := ⟨q, ecc, false⟩) hw hd hold, hbytes]
    exact Mem.store_holdsUnit_of_data (hkept.trans hdata) q.addr _
  case readKeeps =>
    rw [State.served_of_read (q := ⟨q, ecc, false⟩) hw]
    exact (readUnitOf_data _ _ _).trans hdata
  case read =>
    rw [State.served_of_read (q := ⟨q, ecc, false⟩) hw, (readUnitOf_of_good (q := ⟨q, ecc, false⟩) hp he).1, hbytes]
  case clean =>
    obtain ⟨hc, hu, -⟩ := State.served_counts (q := ⟨q, ecc, false⟩) (s := g) (l := l) hwhole
    rw [readUnitOf_of_clean (q := ⟨q, ecc, false⟩) hp he] at hc hu
    exact ⟨hc.trans hce, hu.trans hue⟩
  case corrected =>
    obtain ⟨hc, hu, hi⟩ := State.served_counts (q := ⟨q, ecc, false⟩) (s := g) (l := l) hwhole
    rw [readUnitOf_of_corrected (q := ⟨q, ecc, false⟩) hp he] at hc hu hi
    exact ⟨hc.trans (congrArg (satAdd 32 · 1) hce), hu.trans hue, hi.trans (congrArg (IntPair.raise · 0) hint)⟩
  case lost =>
    obtain ⟨hl, hread⟩ := State.served_lost (q := ⟨q, ecc, false⟩) (s := g) (l := l) hwhole hlost
    exact ⟨hl.data.trans hdata, hl.poison, hl.ue.trans (congrArg (satAdd 32 · 1) hue), hl.addr, hl.req, hread⟩

end Sys2Proof.Machine
end

section
/-! SUPPORT. The upkeep of the DRAM: refresh, temperature bands, self-refresh and row tests (14 R306 to R313). -/

namespace Sys2Proof.Machine

section
variable {s : State} {n : Nat}

/-! ### Refresh and temperature bands (14 R306 to R308) -/

theorem refreshDue_of_asleep (h : (nth s.mem.chans n {}).selfRef = true ∨ (nth s.mem.chans n {}).mr4Due = true) (i : Nat) :
    refreshDue s n i = s := if_pos h

/-- What a refresh that falls due finds: what could be repaid repaid, a band that waited in effect. -/
def State.refreshed (s : State) (n : Nat) : State := applyBand { s with mem := s.mem.settle s.tim.tick } n

/-- The debt of bank i. -/
def State.debtOf (s : State) (n i : Nat) : Nat := (nth (nth s.mem.chans n {}).banks i {}).debt

theorem refreshDue_of_awake (hs : (nth s.mem.chans n {}).selfRef = false) (hm : (nth s.mem.chans n {}).mr4Due = false) (i : Nat) :
    refreshDue s n i =
      let t := s.refreshed n
      let d := t.debtOf n i
      if t.mem.inPanic = true ∧ d < 8 then
        let m := t.mem.modCh n fun c => { c with banks := modAt c.banks i fun b => { b with debt := d + 1 } }
        { t with mem := { m with postponed := satAdd 32 m.postponed 1 } }
      else { t with mem := t.mem.modCh n fun c => { c with banks := modAt c.banks i fun b =>
        { b with repayAt := max b.repayAt (t.tim.tick + refreshTicks), openRow := none } } } :=
  if_neg (not_or.mpr ⟨Bool.eq_false_iff.mp hs, Bool.eq_false_iff.mp hm⟩)

theorem mr4Read_of_asleep (h : (nth s.mem.chans n {}).selfRef = true) (band : Nat) : mr4Read s n band = s := if_pos h

theorem mr4Read_of_awake (h : (nth s.mem.chans n {}).selfRef = false) (band : Nat) :
    mr4Read s n band =
      let c := nth s.mem.chans n {}
      let t : State := { s with mem := s.mem.modCh n fun c => { c with
        newBand := if min band 2 = c.band then none else some (min band 2), mr4Due := false } }
      if min band 2 = 2 ∧ c.newBand.getD c.band ≠ 2 then
        ({ t with mem := { t.mem with int := t.mem.int.raise 5 } } : State).log 0x0603 0 n []
      else t :=
  if_neg (Bool.eq_false_iff.mp h)

/-! ### Self-refresh (14 R309, R310) -/

/-- No request is held by the channel or waits for it. -/
def Channel.Idle (c : Channel) : Prop := c.queue = [] ∧ c.waiting = []

theorem enterSelfRef_of_due {us : Nat} (hus : s.srIdle = some us) (hs : (nth s.mem.chans n {}).selfRef = false)
    (hi : (nth s.mem.chans n {}).Idle) (hr : s.mem.ready = true) :
    enterSelfRef s n =
      let t := s.expire ((nth s.mem.chans n {}).lastReq + 4000 * us)
      let m := t.mem.modCh n fun c => { c with selfRef := true, banks := c.banks.map fun b => { b with debt := 0, openRow := none } }
      { t with mem := { m with srEntries := satAdd 32 m.srEntries 1 } } := by
  obtain ⟨hq, hw⟩ := hi
  simp only [enterSelfRef, hus]
  rw [hs, hq, hw, hr]
  rfl

theorem enterSelfRef_of_not_due (h : s.srIdle = none ∨ (nth s.mem.chans n {}).selfRef = true ∨ ¬ (nth s.mem.chans n {}).Idle ∨
    s.mem.ready = false) : enterSelfRef s n = s := by
  unfold enterSelfRef
  cases hus : s.srIdle with
  | none => rfl
  | some us =>
    refine if_pos ?_
    rcases h.resolve_left (by simp [hus]) with h | h | h
    · exact .inl h
    · rw [Channel.Idle, Classical.not_and_iff_not_or_not] at h
      exact h.elim (fun h => .inr (.inl h)) fun h => .inr (.inr (.inl h))
    · exact .inr (.inr (.inr h))

theorem leaveSelfRef_of_called (hs : (nth s.mem.chans n {}).selfRef = true)
    (h : ¬ (nth s.mem.chans n {}).Idle ∨ s.mem.inPanic = true) : leaveSelfRef s n = grantAll (exitSelfRef s n) n := by
  refine if_pos ⟨hs, ?_⟩
  rw [Channel.Idle, Classical.not_and_iff_not_or_not] at h
  exact h.elim (·.elim .inl fun h => .inr (.inl h)) fun h => .inr (.inr h)

theorem leaveSelfRef_of_uncalled (h : (nth s.mem.chans n {}).selfRef = false ∨ ((nth s.mem.chans n {}).Idle ∧ s.mem.inPanic = false)) :
    leaveSelfRef s n = s := by
  refine if_neg fun ⟨hs, hcall⟩ => ?_
  obtain ⟨⟨hq, hw⟩, hp⟩ := h.resolve_left fun hf => Bool.false_ne_true (hf.symm.trans hs)
  exact hcall.elim (fun h => h hq) (·.elim (fun h => h hw) fun h => Bool.false_ne_true (hp.symm.trans h))

/-! ### Row tests (14 R312, R313) -/

variable {bank row : Nat}

/-- The test of a row on channel n. -/
def State.rowTestAt (s : State) (n bank row : Nat) : Option RowTest :=
  s.mem.tests.find? fun t => t.ch == n && t.bank == bank && t.row == row

/-- The test over, with the units found bad poisoned. -/
def State.testOver (s : State) (t : RowTest) (cols : List Nat) : State :=
  { s with mem := { s.mem with
    tests := s.mem.tests.erase t
    poison := ((cols.filter fun c => decide (c < 28)).map fun c => dramSlot t.addr * 28 + c).foldl addOnce s.mem.poison } }

/-- The latest error is lasting where it lies in the row. -/
def State.errLasting (s : State) (n bank row : Nat) : State :=
  { s with mem := { s.mem with
    err := { s.mem.err with lasting := s.mem.err.lasting || (s.mem.err.ch == n && s.mem.err.bank == bank && s.mem.err.row == row) } } }

theorem rowTestEnd_of_none (h : s.rowTestAt n bank row = none) (bad : Bool) (cols : List Nat) : rowTestEnd s n bank row bad cols = s := by
  unfold rowTestEnd
  unfold State.rowTestAt at h
  rw [h]

variable {t : RowTest}

theorem rowTestEnd_of_passed (h : s.rowTestAt n bank row = some t) (cols : List Nat) :
    rowTestEnd s n bank row false cols =
      let o := s.testOver t cols
      grantAll (({ o with mem := { o.mem with transient := satAdd 16 o.mem.transient 1 } } : State).transient 0x0601 n
        (rowData s.conf.dram t)) n := by
  unfold rowTestEnd
  unfold State.rowTestAt at h
  rw [h]
  rfl

theorem rowTestEnd_of_spare (h : s.rowTestAt n bank row = some t) {i : Nat} (hi : freeSpare s.aos.dram = some i) (cols : List Nat) :
    rowTestEnd s n bank row true cols =
      let b := (s.testOver t cols).errLasting n bank row
      grantAll (({ b with
        aos := { b.aos with dram := smSet none b.aos.dram i (some (s.slotOf t.addr)) }
        mem := { b.mem with int := b.mem.int.raise 2 } } : State).lasting 0x0601 n (rowData s.conf.dram t)) n := by
  unfold rowTestEnd
  unfold State.rowTestAt at h
  rw [h]
  dsimp only
  rw [hi]
  rfl

theorem rowTestEnd_of_no_spare (h : s.rowTestAt n bank row = some t) (hi : freeSpare s.aos.dram = none) (cols : List Nat) :
    rowTestEnd s n bank row true cols =
      let l := ((s.testOver t cols).errLasting n bank row).lasting 0x0601 n (rowData s.conf.dram t)
      let x : State := { l with mem := { l.mem with spareOut := true, spareHold := true, int := l.mem.int.raise 6 } }
      grantAll (x.log 0x0604 2 n (leBytes 4 (x.slotOf t.addr))) n := by
  unfold rowTestEnd
  unfold State.rowTestAt at h
  rw [h]
  dsimp only
  rw [hi]
  rfl

/-! ### The statement -/

theorem refreshDue_leaves {i : Nat} {u : State} (h : refreshDue s n i = u) : Leaves (.refreshDue n i) s u := leaves_of_eq h rfl

theorem mr4Read_leaves {band : Nat} {u : State} (h : mr4Read s n band = u) : Leaves (.mr4Read n band) s u := leaves_of_eq h rfl

theorem rowTestDone_leaves {bad : Bool} {cols : List Nat} {u : State} (h : rowTestEnd s n bank row bad cols = u) :
    Leaves (.rowTestDone n bank row bad cols) s u := leaves_of_eq h rfl

end

/-- Settles O39: each event by the equation of its operation, refresh by panic and debt, a row test by its result and the spares left. -/
theorem dramUpkeep : Obligations.DramUpkeep := by
  refine fun s n => ⟨fun i => ⟨fun h => ?noRefresh, fun hs hm => ⟨fun hp hd => ?postponed, fun h => ?refreshed⟩⟩,
    fun band => ⟨fun h => ?unread, fun h => ⟨fun hband hcur => ?hot, fun hnot => ?band⟩⟩,
    ⟨fun us hus hs hi hr => ?enters, fun h => ?staysOut, fun hs h => ?leaves, fun h => ?staysIn⟩,
    fun bank row cols => ⟨fun bad h => ?noTest, fun t h => ⟨?passed, fun i hi => ?spare, fun hi => ?noSpare⟩⟩⟩
  case noRefresh => exact refreshDue_leaves (refreshDue_of_asleep h i)
  case postponed => exact refreshDue_leaves ((refreshDue_of_awake hs hm i).trans (if_pos ⟨hp, hd⟩))
  case refreshed =>
    refine refreshDue_leaves ((refreshDue_of_awake hs hm i).trans (if_neg fun ⟨hp, hd⟩ => ?_))
    exact h.elim (fun h => Bool.false_ne_true (h.symm.trans hp)) fun h => Nat.not_le.mpr hd h
  case unread => exact mr4Read_leaves (mr4Read_of_asleep h band)
  case hot => exact mr4Read_leaves ((mr4Read_of_awake h band).trans (if_pos ⟨Nat.min_eq_right hband, hcur⟩))
  case band =>
    refine mr4Read_leaves ((mr4Read_of_awake h band).trans (if_neg fun ⟨hband, hcur⟩ => ?_))
    exact hnot.elim (fun hlow => by omega) hcur
  case enters => exact leaves_of_eq (enterSelfRef_of_due hus hs hi hr) rfl
  case staysOut => exact leaves_of_eq (enterSelfRef_of_not_due h) rfl
  case leaves => exact leaves_of_eq (leaveSelfRef_of_called hs h) rfl
  case staysIn => exact leaves_of_eq (leaveSelfRef_of_uncalled h) rfl
  case noTest => exact rowTestDone_leaves (rowTestEnd_of_none h bad cols)
  case passed => exact rowTestDone_leaves (rowTestEnd_of_passed h cols)
  case spare => exact rowTestDone_leaves (rowTestEnd_of_spare h hi cols)
  case noSpare => exact rowTestDone_leaves (rowTestEnd_of_no_spare h hi cols)

end Sys2Proof.Machine
end

section
/-! SUPPORT. The network ports: links, ARP, ICMP and frames received (15 R317 to R325). -/

namespace Sys2Proof.Machine

section
variable {s : State} {p : Nat}

/-! ### Links (15 R317, R319 to R321) -/

/-- A port that the configuration names, of a module that serves the network. -/
def State.PortServed (s : State) (p : Nat) : Prop := (s.mode ≠ 0 ∨ s.pwr.phase = .golden) ∧ s.conf.net.mode p ≠ 0 ∧ p ≤ 1

theorem portUp_of_served (hp : s.PortServed p) (hu : (s.net.port p).up = false) :
    portUp s p =
      let t := s.modPort p fun x => { x with up := true, arp := [], msgs := x.msgs ++ [.gratuitousArp] }
      arpEnsure (evalShed { t with net := { t.net with bothDown := false, int := t.net.int.raise 0 } }) p := by
  obtain ⟨hserves, hmode, hle⟩ := hp
  refine if_neg ?_
  rcases hserves with h | h <;> simp [State.isConfigured, h, hmode, hu, hle]

theorem portUp_of_not_served (h : ¬ s.PortServed p ∨ (s.net.port p).up = true) : portUp s p = s := by
  refine if_pos ?_
  rcases h with h | h
  · by_contra hnot
    simp only [State.isConfigured, Bool.or_eq_true, Bool.not_eq_true', not_or, beq_iff_eq, decide_eq_true_iff, Nat.not_lt,
      Bool.or_eq_false_iff, not_and_or, Bool.not_eq_false, bne_iff_ne] at hnot
    obtain ⟨⟨⟨hserves, hmode⟩, -⟩, hle⟩ := hnot
    exact h ⟨by simpa [← or_iff_not_imp_left] using hserves, hmode, hle⟩
  · simp [h]

/-- What a port that has gone down leaves of the streams: each unit in progress there lost, the rest of its frames and heartbeats moved. -/
def State.linkLost (s : State) (p : Nat) : State :=
  let x := s.net.port p
  let of (n : Nat) (l : List Frame) : List Frame := l.filter fun f => f.stream == n
  let t := s.modPort p fun x => { x with up := false, frames := [], beats := [], msgs := [], linkDowns := satAdd 16 x.linkDowns 1 }
  let u := (List.range 16).foldl (fun (a : State × List Frame) n =>
    let o := losePart a.1 p n (of n x.frames)
    (o.1, a.2 ++ o.2)) ({ t with net := { t.net with int := t.net.int.raise 1 } }, [])
  releaseOwned ((List.range 16).foldl (fun v n => clearFull (moveFrames v p n (of n u.2) (of n x.beats)) n) (evalShed u.1))

theorem portDown_of_up (hu : (s.net.port p).up = true) (hp : p ≤ 1) : portDown s p = s.linkLost p := by
  unfold portDown State.linkLost
  rw [if_neg (by simp [hu, hp])]

theorem portDown_of_down (h : (s.net.port p).up = false ∨ 1 < p) : portDown s p = s :=
  if_pos (by rcases h with h | h <;> simp [h])

/-! ### Frames received (15 R318, R324, R325) -/

theorem NetRec.takes_iff (c : NetRec) (rx : RxMeta) : c.takes rx = true ↔ rx.vlan = if c.vlanEn = 1 then some c.vid else none := by
  simp [NetRec.takes]

theorem NetRec.takes_eq_false {c : NetRec} {rx : RxMeta} (h : ¬ rx.vlan = if c.vlanEn = 1 then some c.vid else none) :
    c.takes rx = false := Bool.eq_false_iff.mpr (mt (NetRec.takes_iff c rx).mp h)

theorem arpIn_of_down (hu : (s.net.port p).up = false) (rx : RxMeta) (reply : Bool) (ip mac target : Nat) :
    arpIn s p rx reply ip mac target = s := if_pos (by simp [hu])

theorem arpIn_of_foreign {rx : RxMeta} (hu : (s.net.port p).up = true) (ht : s.conf.net.takes rx = false) (reply : Bool)
    (ip mac target : Nat) : arpIn s p rx reply ip mac target = s.discard p rx :=
  (if_neg (by simp [hu])).trans (if_pos (by simp [ht]))

/-- A frame from the module's own address with another MAC is a conflict. -/
def State.arpSeen (s : State) (ip mac : Nat) : State :=
  if ip = s.conf.net.ip ∧ mac ≠ s.ownMac then
    { s with net := { s.net with arpConflict := true, int := s.net.int.raise 5 } } else s

theorem arpIn_of_mine {rx : RxMeta} (hu : (s.net.port p).up = true) (ht : s.conf.net.takes rx = true) (reply : Bool)
    (ip mac target : Nat) :
    arpIn s p rx reply ip mac target =
      let t := (s.received p rx).arpSeen ip mac
      if reply = true then t.modPort p fun x => { x with
        arp := x.arp.map fun e => if e.ip = ip then { e with mac := some mac, tries := 0, unresolved := false } else e }
      else if target = t.conf.net.ip then t.modPort p fun x => { x with msgs := x.msgs ++ [.arpReply ip mac] }
      else t :=
  (if_neg (by simp [hu])).trans (if_neg (by simp [ht]))

theorem icmpIn_of_down (hu : (s.net.port p).up = false) (rx : RxMeta) (srcMac srcIp dst : Nat) (payload : List Byte) :
    icmpIn s p rx srcMac srcIp dst payload = s := if_pos (by simp [hu])

theorem icmpIn_of_other {rx : RxMeta} {dst : Nat} (hu : (s.net.port p).up = true)
    (h : dst ≠ s.conf.net.ip ∨ s.conf.net.takes rx = false) (srcMac srcIp : Nat) (payload : List Byte) :
    icmpIn s p rx srcMac srcIp dst payload = s.discard p rx :=
  (if_neg (by simp [hu])).trans (if_pos h)

theorem icmpIn_of_mine {rx : RxMeta} {dst : Nat} (hu : (s.net.port p).up = true) (hd : dst = s.conf.net.ip)
    (ht : s.conf.net.takes rx = true) (srcMac srcIp : Nat) (payload : List Byte) :
    icmpIn s p rx srcMac srcIp dst payload = (s.received p rx).modPort p fun x =>
      let cnt := if x.icmp.1 = s.tim.tick / secTicks then x.icmp.2 else 0
      if cnt < 100 then { x with icmp := (s.tim.tick / secTicks, cnt + 1), msgs := x.msgs ++ [.icmpReply srcIp srcMac payload] } else x :=
  (if_neg (by simp [hu])).trans (if_neg (by simp [hd, ht]))

theorem rxDiscard_of_down (hu : (s.net.port p).up = false) (rx : RxMeta) : rxDiscard s p rx = s := if_pos (by simp [hu])

theorem rxDiscard_of_up (hu : (s.net.port p).up = true) (rx : RxMeta) : rxDiscard s p rx = s.discard p rx := if_neg (by simp [hu])

/-! ### The ARP timer (15 R324) -/

/-- The next hop of stream n. -/
def State.hopOf (s : State) (n : Nat) : Nat := nextHop s.conf.net (s.strCfg n)

variable {n : Nat}

theorem arpTimer_of_idle (h : (s.net.port p).entry (s.hopOf n) = none ∨ (s.net.port p).up = false) : arpTimer s p n = s := by
  unfold State.hopOf at h
  unfold arpTimer
  dsimp only
  cases he : (s.net.port p).entry (nextHop s.conf.net (s.strCfg n)) with
  | none => rfl
  | some e => exact if_pos (by simp [h.resolve_left (by simp [he])])

theorem arpTimer_of_waiting {e : ArpEntry} (he : (s.net.port p).entry (s.hopOf n) = some e) (hu : (s.net.port p).up = true) :
    arpTimer s p n =
      if e.tries < 3 then s.modPort p fun x => { x with
        arp := x.arp.map fun d => if d.ip = s.hopOf n then { d with tries := d.tries + 1 } else d
        msgs := x.msgs ++ [.arpRequest (s.hopOf n)] }
      else
        let t := s.modPort p fun x => { x with
          arp := x.arp.map fun d => if d.ip = s.hopOf n then { d with mac := none, tries := 0, unresolved := true } else d }
        dropUnresolved { t with net := { t.net with int := t.net.int.raise 3 } } p := by
  unfold State.hopOf at he
  unfold arpTimer
  dsimp only
  rw [he]
  exact if_neg (by simp [hu])

/-! ### The statement -/

theorem linkUp_leaves {u : State} (h : portUp s p = u) : Leaves (.linkUp p) s u := leaves_of_eq h rfl

theorem linkDown_leaves {u : State} (h : portDown s p = u) : Leaves (.linkDown p) s u.settled :=
  leaves_of_eq (congrArg State.settled h) rfl

theorem arpFrame_leaves {u : State} {rx : RxMeta} {reply : Bool} {ip mac target : Nat} (h : arpIn s p rx reply ip mac target = u) :
    Leaves (.arpFrame p rx reply ip mac target) s u := leaves_of_eq h rfl

theorem arpRequestTimer_leaves {u : State} (h : arpTimer s p n = u) : Leaves (.arpRequestTimer p n) s u.settled :=
  leaves_of_eq (congrArg State.settled h) rfl

theorem icmpEcho_leaves {u : State} {rx : RxMeta} {srcMac srcIp dst : Nat} {payload : List Byte}
    (h : icmpIn s p rx srcMac srcIp dst payload = u) : Leaves (.icmpEcho p rx srcMac srcIp dst payload) s u := leaves_of_eq h rfl

end

/-- Settles O43: each event by whether its port is up, then by what is received or waited for. -/
theorem networkPorts : Obligations.NetworkPorts := by
  refine fun s p => ⟨fun hp hu => ?comesUp, fun h => ?staysDown, fun h => ?wasDown, fun hu hp => ?goesDown,
    fun rx reply ip mac target => ⟨fun hu => ?arpDown, fun hu ht => ?arpForeign, fun hu ht hr => ?reply, fun hu ht hr hi => ?request,
      fun hu ht hr hi => ?other⟩,
    fun n => ⟨fun h => ?noTimer, fun e he hu => ⟨fun hn => ?again, fun hn => ?givenUp⟩⟩,
    fun rx srcMac srcIp dst payload => ⟨fun hu => ?echoDown, fun hu h => ?echoOther, fun hu hd ht => ?echo⟩,
    fun rx => ⟨fun hu => ?rxDown, fun hu => ?rxUp⟩⟩
  case comesUp => exact linkUp_leaves (portUp_of_served hp hu)
  case staysDown => exact linkUp_leaves (portUp_of_not_served h)
  case wasDown => exact linkDown_leaves (portDown_of_down h)
  case goesDown => exact linkDown_leaves (portDown_of_up hu hp)
  case arpDown => exact arpFrame_leaves (arpIn_of_down hu rx reply ip mac target)
  case arpForeign =>
    exact arpFrame_leaves (arpIn_of_foreign hu (NetRec.takes_eq_false ht) reply ip mac target)
  case reply =>
    subst hr
    exact arpFrame_leaves (arpIn_of_mine hu ((NetRec.takes_iff _ _).mpr ht) true ip mac target)
  case request =>
    subst hr
    exact arpFrame_leaves ((arpIn_of_mine hu ((NetRec.takes_iff _ _).mpr ht) false ip mac target).trans (if_pos hi))
  case other =>
    subst hr
    exact arpFrame_leaves ((arpIn_of_mine hu ((NetRec.takes_iff _ _).mpr ht) false ip mac target).trans (if_neg hi))
  case noTimer => exact arpRequestTimer_leaves (arpTimer_of_idle h)
  case again => exact arpRequestTimer_leaves ((arpTimer_of_waiting he hu).trans (if_pos hn))
  case givenUp => exact arpRequestTimer_leaves ((arpTimer_of_waiting he hu).trans (if_neg (Nat.not_lt.mpr hn)))
  case echoDown => exact icmpEcho_leaves (icmpIn_of_down hu rx srcMac srcIp dst payload)
  case echoOther =>
    exact icmpEcho_leaves (icmpIn_of_other hu (h.imp_right NetRec.takes_eq_false) srcMac srcIp payload)
  case echo => exact icmpEcho_leaves (icmpIn_of_mine hu hd ((NetRec.takes_iff _ _).mpr ht) srcMac srcIp payload)
  case rxDown => exact leaves_of_eq (rxDiscard_of_down hu rx) rfl
  case rxUp => exact leaves_of_eq (rxDiscard_of_up hu rx) rfl

end Sys2Proof.Machine
end

section
/-! SUPPORT. The units of the streams: what each type forms when something is ready (15 R326, R327, R333, R334; 22 R478). -/

namespace Sys2Proof.Machine

section
variable {s t : State} {n ty : Nat}

/-- Stream n sends units of this type: the streams run, and it is enabled and has not ended. -/
def State.Sends (s : State) (n ty : Nat) : Prop :=
  s.net.running = true ∧ (s.stream n).ending = false ∧ (s.strCfg n).en = 1 ∧ (s.strCfg n).stype = ty

theorem State.sends_guard :
    (!s.net.running || (s.stream n).ending || (s.strCfg n).en != 1 || (s.strCfg n).stype != ty) = true ↔ ¬ s.Sends n ty := by
  simp only [State.Sends, Bool.or_eq_true, Bool.not_eq_true', bne_iff_ne, ne_eq, not_and_or, or_assoc, Bool.not_eq_true,
    Bool.not_eq_false]

/-! ### DAS units (15 R327, R332) -/

theorem dasForm_of_idle (h : ¬ (unitBoundary s n).Sends n 1 ∨ (unitBoundary s n).dasReady n = false) :
    dasForm s n = unitBoundary s n := by
  refine if_pos ?_
  rw [Bool.or_eq_true, State.sends_guard]
  exact h.imp_right fun h => by simp [h]

/-- The frames of the output that is ready, with their quality words. -/
def State.dasParts (b : State) (n : Nat) : List (List Byte × Nat) :=
  (dasFrames b.conf (b.strCfg n)).map fun l =>
    let segs := l.map (dasSegment b (b.strCfg n).qmode (b.stream n).nextUnit)
    (segs.flatMap Prod.fst, orAll (segs.map Prod.snd))

/-- What the frames of that output share. -/
def State.dasInfo (b : State) (n : Nat) : UnitInfo :=
  let q := (b.stream n).nextUnit
  { stype := 1, unit := q, ts := ((b.acq.outTs.find? fun e => e.1 == q).map Prod.snd).getD 0,
    thinK := ((b.gridOfQ q).map fun g => (b.til.kAt (g.newest q)).2.1).getD 0,
    frags := (dasFrames b.conf (b.strCfg n)).length, own := none, newest := (b.gridOfQ q).map fun g => g.newest q }

theorem dasForm_of_ready (h : (unitBoundary s n).Sends n 1) (hr : (unitBoundary s n).dasReady n = true) :
    dasForm s n =
      let b := unitBoundary s n
      pruneRows ((formFrames b n (b.dasInfo n) 0 (b.dasParts n)).modStream n fun x => { x with nextUnit := (b.stream n).nextUnit + 1 }) := by
  refine if_neg ?_
  rw [Bool.or_eq_true, State.sends_guard]
  simp [h, hr]

/-! ### Rows, records and raw frames (15 R326, R327, R333) -/

/-- A pending stream amendment takes effect first, unless a unit is in progress. -/
def State.rowStart (s : State) (n : Nat) : State := if (s.stream n).part = none then unitBoundary s n else s

theorem State.rowStart_eq : (if (s.stream n).part.isNone then unitBoundary s n else s) = s.rowStart n :=
  ite_congr (propext Option.isNone_iff_eq_none) (fun _ => rfl) (fun _ => rfl)

theorem rowForm_of_stopped (ht : s.rowStart n = t) (h : t.net.running = false ∨ (t.stream n).ending = true) : rowForm s n = t := by
  unfold rowForm
  rw [State.rowStart_eq, ht]
  exact if_pos (by rcases h with h | h <;> simp [h])

section
variable (ht : s.rowStart n = t) (hr : t.net.running = true) (he : (t.stream n).ending = false)
include ht hr he

theorem rowForm_of_noRow (hty : (t.strCfg n).stype = 2 ∨ (t.strCfg n).stype = 3)
    (h : (t.strCfg n).en ≠ 1 ∨ (t.stream n).units = []) : rowForm s n = t := by
  unfold rowForm
  rw [State.rowStart_eq, ht]
  dsimp only
  rw [if_neg (by simp [hr, he])]
  have hform : (if (t.strCfg n).en ≠ 1 then t else match (t.stream n).units with
      | [] => t
      | u :: l => if t.rowMayLeave (t.strCfg n).stype u then
          formBytes (t.modStream n fun x => { x with units := l }) n (t.strCfg n).stype u else t) = t := by
    rcases h with h | h
    · exact if_pos h
    · rw [h, ite_self]
  rcases hty with hty | hty <;> rw [hty] at hform ⊢ <;> exact hform

theorem rowForm_of_row {u : StreamUnit} {l : List StreamUnit} (hty : (t.strCfg n).stype = 2 ∨ (t.strCfg n).stype = 3)
    (hen : (t.strCfg n).en = 1) (hu : (t.stream n).units = u :: l) :
    rowForm s n = if t.rowMayLeave (t.strCfg n).stype u = true then
      formBytes (t.modStream n fun x => { x with units := l }) n (t.strCfg n).stype u else t := by
  unfold rowForm
  rw [State.rowStart_eq, ht]
  dsimp only
  rw [if_neg (by simp [hr, he])]
  rcases hty with hty | hty
  all_goals
    rw [hty]
    refine (if_neg (not_not.mpr hen)).trans ?_
    rw [hu]

theorem rowForm_of_part (hty : (t.strCfg n).stype = 5) (hp : (t.stream n).part.isSome = true) : rowForm s n = formRecord t n := by
  unfold rowForm
  rw [State.rowStart_eq, ht]
  dsimp only
  rw [if_neg (by simp [hr, he]), hty]
  exact if_pos hp

theorem rowForm_of_record (hty : (t.strCfg n).stype = 5) (hp : (t.stream n).part = none) :
    rowForm s n = if (t.strCfg n).en = 1 ∧ t.sendsRecords = true ∧ t.suppressed n = false then formRecord (nextRecord t n) n else t := by
  unfold rowForm
  rw [State.rowStart_eq, ht]
  dsimp only
  rw [if_neg (by simp [hr, he]), hty]
  exact if_neg (by simp [hp])

theorem rowForm_of_raw (hty : (t.strCfg n).stype = 7) :
    rowForm s n = if (t.strCfg n).en = 1 ∧ t.sendsRecords = true ∧ t.suppressed n = false then formRaw t n else t := by
  unfold rowForm
  rw [State.rowStart_eq, ht]
  dsimp only
  rw [if_neg (by simp [hr, he]), hty]
  rfl

theorem rowForm_of_other (h2 : (t.strCfg n).stype ≠ 2) (h3 : (t.strCfg n).stype ≠ 3) (h5 : (t.strCfg n).stype ≠ 5)
    (h7 : (t.strCfg n).stype ≠ 7) : rowForm s n = t := by
  unfold rowForm
  rw [State.rowStart_eq, ht]
  dsimp only
  rw [if_neg (by simp [hr, he])]
  split <;> simp_all

end

/-- A stream that sends records does not where it is disabled, nothing is sent now, or it is suppressed. -/
theorem not_sends_record {a b : Bool} {e : Nat} (h : e ≠ 1 ∨ a = false ∨ b = true) : ¬ (e = 1 ∧ a = true ∧ b = false) := by
  rintro ⟨he, ha, hb⟩
  simp [he, ha, hb] at h

/-! ### Events and housekeeping samples (15 R334; 12 R268; 17 R369) -/

theorem eventForm_of_idle (h : ¬ (unitBoundary s n).Sends n 4) : eventForm s n = unitBoundary s n :=
  if_pos (State.sends_guard.mpr h)

/-- The events queued are handed over. -/
def State.eventsHanded (b : State) : State := handEvents b (b.zon.queue.length + 1)

/-- The oldest events of stream n that fit one frame. -/
def State.eventsThatFit (t : State) (n : Nat) : List Event := (t.stream n).events.take (fragCap t.conf / 64)

theorem eventForm_of_none (h : (unitBoundary s n).Sends n 4) (hes : (unitBoundary s n).eventsHanded.eventsThatFit n = []) :
    eventForm s n = (unitBoundary s n).eventsHanded := by
  refine (if_neg (mt State.sends_guard.mp (not_not.mpr h))).trans ?_
  change (match (unitBoundary s n).eventsHanded.eventsThatFit n with | [] => (unitBoundary s n).eventsHanded | e :: _ => _) = _
  rw [hes]

theorem eventForm_of_some (h : (unitBoundary s n).Sends n 4) {es : List Event} {e : Event} {l : List Event}
    (hes : (unitBoundary s n).eventsHanded.eventsThatFit n = es) (hl : es = e :: l) :
    eventForm s n =
      let u := (unitBoundary s n).eventsHanded.modStream n fun x => { x with events := x.events.drop es.length }
      formFrames u n { stype := 4, unit := e.seq, ts := u.now, thinK := u.til.k, frags := 1, own := none, newest := none } 0
        [(es.flatMap Event.bytes, 0)] := by
  subst hl
  unfold State.eventsThatFit State.eventsHanded at hes
  unfold eventForm State.eventsHanded
  dsimp only
  rw [if_neg (mt State.sends_guard.mp (not_not.mpr h)), hes]

/-- How many unread samples fit one frame. -/
def State.hkFit (b : State) (n : Nat) : Nat := min (b.stream n).hkUnread ((fragCap b.conf - 16) / 2)

theorem hkForm_of_idle (h : ¬ (unitBoundary s n).Sends n 8 ∨ (unitBoundary s n).hkFit n = 0) : hkForm s n = unitBoundary s n := by
  by_cases hon : (unitBoundary s n).Sends n 8
  · exact (if_neg (mt State.sends_guard.mp (not_not.mpr hon))).trans (if_pos (h.resolve_left (not_not.mpr hon)))
  · exact if_pos (State.sends_guard.mpr hon)

/-- The batch of the samples that fit, with those lost; the reader goes on. -/
def State.hkSent (b : State) (n : Nat) : State :=
  let x := b.stream n
  let cnt := b.hkFit n
  let first := b.hka.widx - x.hkUnread
  let lost := min x.hkLost 65535
  let payload := leBytes 8 first ++ leBytes 2 cnt ++ leBytes 2 lost ++ zeros 4 ++
    ((x.hkReader.slots b.hka.len).take cnt).flatMap fun i => leBytes 2 (smGet 0 b.hka.buf i)
  let r := (List.range cnt).foldl (fun r _ => { HkReader.advance r b.hka.len with unread := r.unread - 1 }) x.hkReader
  let u := b.modStream n fun x => x.setHkReader { r with lost := x.hkLost - lost }
  formFrames u n { stype := 8, unit := first, ts := u.now, thinK := u.til.k, frags := 1, own := none, newest := none } 0 [(payload, 0)]

theorem hkForm_of_some (h : (unitBoundary s n).Sends n 8) (hc : (unitBoundary s n).hkFit n ≠ 0) :
    hkForm s n = (unitBoundary s n).hkSent n :=
  (if_neg (mt State.sends_guard.mp (not_not.mpr h))).trans (if_neg hc)

/-! ### Telemetry (22 R478) -/

theorem telemetryRun_of_running (ha : s.acquiring = true) (hc : s.coreRuns = true) :
    telemetryRun s = (List.range 16).foldl snapshot (endTask (startTask s 6 s.bgw.acqFrom secTicks) 6) := if_neg (by simp [ha, hc])

theorem telemetryRun_of_stopped (h : s.acquiring = false ∨ s.coreRuns = false) : telemetryRun s = s :=
  if_pos (by rcases h with h | h <;> simp [h])

theorem rowUnitForm_leaves (h : rowForm s n = t) : Leaves (.rowUnitForm n) s t := leaves_of_eq h rfl

end

/-- Settles O44: each stream type by whether the stream sends it and something is ready. -/
theorem streamUnits : Obligations.StreamUnits := by
  refine fun s n => ⟨fun h => ?noOutput, fun hon hr => ?output, ⟨fun h => ?stopped, fun hr he => ⟨fun hty => ⟨fun h => ?noRow,
    fun u l hen hu => ⟨fun hm => ?row, fun hm => ?rowWaits⟩⟩, fun hty => ⟨fun hp => ?part, fun hp hen hs hx => ?record,
    fun hp h => ?noRecord⟩, fun hty => ⟨fun hen hs hx => ?raw, fun h => ?noRaw⟩, fun h2 h3 h5 h7 => ?otherType⟩⟩,
    fun h => ?noEvents, fun hon => ⟨fun hes => ?noEvent, fun e l hes => ?events⟩, ⟨fun h => ?noSamples, fun hon hc => ?samples⟩,
    fun ha hc => ?snapshots, fun h => ?noSnapshot⟩
  case noOutput => exact leaves_of_eq (dasForm_of_idle h) rfl
  case output => exact leaves_of_eq (dasForm_of_ready hon hr) rfl
  case stopped => exact rowUnitForm_leaves (rowForm_of_stopped rfl h)
  case noRow => exact rowUnitForm_leaves (rowForm_of_noRow rfl hr he hty h)
  case row => exact rowUnitForm_leaves ((rowForm_of_row rfl hr he hty hen hu).trans (if_pos hm))
  case rowWaits => exact rowUnitForm_leaves ((rowForm_of_row rfl hr he hty hen hu).trans (if_neg (Bool.eq_false_iff.mp hm)))
  case part => exact rowUnitForm_leaves (rowForm_of_part rfl hr he hty hp)
  case record => exact rowUnitForm_leaves ((rowForm_of_record rfl hr he hty hp).trans (if_pos ⟨hen, hs, hx⟩))
  case noRecord => exact rowUnitForm_leaves ((rowForm_of_record rfl hr he hty hp).trans (if_neg (not_sends_record h)))
  case raw => exact rowUnitForm_leaves ((rowForm_of_raw rfl hr he hty).trans (if_pos ⟨hen, hs, hx⟩))
  case noRaw => exact rowUnitForm_leaves ((rowForm_of_raw rfl hr he hty).trans (if_neg (not_sends_record h)))
  case otherType => exact rowUnitForm_leaves (rowForm_of_other rfl hr he h2 h3 h5 h7)
  case noEvents => exact leaves_of_eq (eventForm_of_idle h) rfl
  case noEvent => exact leaves_of_eq (eventForm_of_none hon hes) rfl
  case events => exact leaves_of_eq (eventForm_of_some hon rfl hes) rfl
  case noSamples => exact leaves_of_eq (hkForm_of_idle h) rfl
  case samples =>
    have e := hkForm_of_some hon hc
    exact leaves_of_eq e rfl
  case snapshots => exact leaves_of_eq (telemetryRun_of_running ha hc) rfl
  case noSnapshot => exact leaves_of_eq (telemetryRun_of_stopped h) rfl

end Sys2Proof.Machine
end

section
/-! SUPPORT. What the ports send, heartbeats and the GPIOs (15 R323, R328, R335, R338; 19 R410; 23 R505). -/

namespace Sys2Proof.Machine

section
variable {s t : State} {p n : Nat}

/-! ### Frames that leave (15 R323, R328, R338) -/

theorem transmit_of_down (hu : (s.net.port p).up = false) : transmit s p = s := if_pos (by simp [hu])

theorem transmit_of_message {m : PortMsg} {l : List PortMsg} (hu : (s.net.port p).up = true) (hm : (s.net.port p).msgs = m :: l) :
    transmit s p = s.modPort p fun x => { x with
      msgs := l, sent := some (.msg m (if s.conf.net.vlanEn = 1 then some s.conf.net.vid else none)), tx := wrapAdd 32 x.tx 1 } := by
  unfold transmit
  dsimp only
  rw [if_neg (by simp [hu]), hm]

section
variable (hu : (s.net.port p).up = true) (hm : (s.net.port p).msgs = [])
include hu hm

theorem transmit_of_beat {f : Frame} (hb : ((s.net.port p).beats.find? fun f => (s.hopMac f.cfg p).isSome) = some f) :
    transmit s p = sendFrame s p f := by
  unfold transmit
  dsimp only
  rw [if_neg (by simp [hu]), hm]
  dsimp only
  rw [hb]

theorem transmit_of_noBeat (hb : ((s.net.port p).beats.find? fun f => (s.hopMac f.cfg p).isSome) = none) {o : Option Frame}
    (hf : pickFrame (s.maySend p) (headFrames (s.net.port p).frames) = o) :
    transmit s p = o.elim s fun f => releaseOwned (clearFull (sendFrame (charge s f) p f) f.stream) := by
  unfold transmit
  dsimp only
  rw [if_neg (by simp [hu]), hm]
  dsimp only
  rw [hb]
  dsimp only
  rw [hf]
  cases o <;> rfl

end

theorem frameTransmit_leaves (h : transmit s p = t) : Leaves (.frameTransmit p) s t.settled :=
  leaves_of_eq (congrArg State.settled h) rfl

/-! ### Heartbeats (15 R335) -/

/-- Stream n sends heartbeats. -/
def State.Beats (s : State) (n : Nat) : Prop := s.net.running = true ∧ (s.strCfg n).en = 1 ∧ (s.stream n).ending = false

theorem State.beats_guard : (!s.net.running || (s.strCfg n).en != 1 || (s.stream n).ending) = true ↔ ¬ s.Beats n := by
  simp only [State.Beats, Bool.or_eq_true, Bool.not_eq_true', bne_iff_ne, ne_eq, not_and_or, or_assoc, Bool.not_eq_true,
    Bool.not_eq_false]

theorem heartbeat_of_idle (h : ¬ s.Beats n) : heartbeat s n = s := if_pos (State.beats_guard.mpr h)

/-- The heartbeat of stream n with its state, and the state once it has taken its FSEQ. -/
def State.beatTaken (s : State) (n : Nat) : Frame × State :=
  let ending := s.endingNow && s.streamDone n
  let x := s.stream n
  let ports := (List.range 2).filter fun p => s.conf.net.path == 0 || x.port == p
  let payload := leBytes 8 x.lastUnit ++ leBytes 2 x.dropsTotal ++
    leBytes 1 (b2n x.shed + 2 * b2n (ports.any (s.unresolved (s.strCfg n))) + 4 * b2n x.bufFull + 8 * b2n (s.suppressed n) + 16 * b2n ending) ++
    leBytes 1 s.cas.pairRole ++ leBytes 1 (b2n s.net.portA.up + 2 * b2n s.net.portB.up) ++ zeros 3
  let u : UnitInfo := { stype := 0, unit := Config.freeNat s.free % 2 ^ 64, ts := Config.freeNat (s.free + 1), thinK := s.til.k
                        frags := 1, own := none, newest := none }
  takeFrame { s with free := s.free + 2 } n u 0 payload 0

theorem heartbeat_of_on (h : s.Beats n) :
    heartbeat s n =
      let f := s.beatTaken n
      State.modStream (if (f.2.outPorts n).isEmpty = true then
        let d := dropFrames f.2 n 1
        { d with net := { d.net with bothDown := d.net.bothDown || (!d.net.portA.up && !d.net.portB.up) } }
      else enqueue f.2 n f.1 true) n fun y => { y with ending := s.endingNow && s.streamDone n } := by
  unfold heartbeat State.beatTaken
  dsimp only
  rw [if_neg (mt State.beats_guard.mp (not_not.mpr h))]

theorem heartbeat_of_noPort (h : s.Beats n) (hp : ((s.beatTaken n).2.outPorts n).isEmpty = true) :
    heartbeat s n =
      let d := dropFrames (s.beatTaken n).2 n 1
      State.modStream { d with net := { d.net with bothDown := d.net.bothDown || (!d.net.portA.up && !d.net.portB.up) } } n
        fun y => { y with ending := s.endingNow && s.streamDone n } :=
  (heartbeat_of_on h).trans (congrArg (fun t => State.modStream t n _) (if_pos hp))

theorem heartbeat_of_port (h : s.Beats n) (hp : ((s.beatTaken n).2.outPorts n).isEmpty = false) :
    heartbeat s n = (enqueue (s.beatTaken n).2 n (s.beatTaken n).1 true).modStream n
      fun y => { y with ending := s.endingNow && s.streamDone n } :=
  (heartbeat_of_on h).trans (congrArg (fun t => State.modStream t n _) (if_neg (Bool.eq_false_iff.mp hp)))

/-! ### GPIO inputs and PPS_OUT (19 R410; 23 R505) -/

variable {level : Bool}

/-- The input of GPIO n at a level. -/
def State.gpioAt (s : State) (n : Nat) (level : Bool) : State :=
  let one : BitVec 8 := 1#8 <<< n
  { s with pads := { s.pads with gpioIn := if level then s.pads.gpioIn ||| one else s.pads.gpioIn &&& ~~~one } }

/-- The level of an input of the configured module changes. -/
def State.GpioTold (s : State) (n : Nat) (level : Bool) : Prop :=
  s.pads.gpioIn.getLsbD n ≠ level ∧ s.tim.counting = true ∧ s.pwr.configured = true ∧ nth s.conf.gpio n 0 = 1

theorem State.gpioTold_iff :
    ((s.pads.gpioIn.getLsbD n != level) && s.tim.counting && s.pwr.configured && nth s.conf.gpio n 0 == 1) = true ↔
      s.GpioTold n level := by
  simp only [State.GpioTold, Bool.and_eq_true, bne_iff_ne, beq_iff_eq, and_assoc]

theorem gpioChange_of_absent (h : 8 ≤ n) : gpioChange s n level = s := if_pos h

theorem gpioChange_of_told (hn : n < 8) (h : s.GpioTold n level) :
    gpioChange s n level =
      let t := s.gpioAt n level
      { t with glb := { t.glb with int := t.glb.int.raise 2 } } :=
  (if_neg (Nat.not_le.mpr hn)).trans (if_pos (State.gpioTold_iff.mpr h))

theorem gpioChange_of_untold (hn : n < 8) (h : ¬ s.GpioTold n level) : gpioChange s n level = s.gpioAt n level :=
  (if_neg (Nat.not_le.mpr hn)).trans (if_neg (mt State.gpioTold_iff.mp h))

theorem ppsPulse_of_carried (hc : s.tim.counting = true) (hp : s.hasPpsOut = true) :
    ppsPulse s = { s with pads := { s.pads with ppsOut := true } } := if_pos (by simp [hc, hp])

theorem ppsPulse_of_none (h : s.tim.counting = false ∨ s.hasPpsOut = false) : ppsPulse s = s :=
  if_neg (by rcases h with h | h <;> simp [h])

end

/-- Settles O45: a port by what waits there, a heartbeat by the ports of its stream, a pin by its function. -/
theorem streamSending : Obligations.StreamSending := by
  refine fun s => ⟨fun p => ⟨fun hu => ?down, fun m l hu hm => ?message, fun f hu hm hb => ?beat,
    fun hu hm hb => ⟨fun hf => ?nothing, fun f hf => ?frame⟩⟩, fun n => ⟨fun h => ?noHeartbeat, fun hon => ⟨fun hp => ?noPort, fun hp => ?queued⟩⟩,
    fun n level => ⟨fun hn => ?noPin, fun hn h => ?told, fun hn h => ?untold⟩, fun hc hp => ?pulse, fun h => ?noPulse, ?pulseEnd⟩
  case down => exact frameTransmit_leaves (transmit_of_down hu)
  case message => exact frameTransmit_leaves (transmit_of_message hu hm)
  case beat => exact frameTransmit_leaves (transmit_of_beat hu hm hb)
  case nothing => exact frameTransmit_leaves (transmit_of_noBeat hu hm hb hf)
  case frame => exact frameTransmit_leaves (transmit_of_noBeat hu hm hb hf)
  case noHeartbeat => exact leaves_of_eq (congrArg State.settled (heartbeat_of_idle h)) rfl
  case noPort =>
    have e := heartbeat_of_noPort hon hp
    exact leaves_of_eq (congrArg State.settled e) rfl
  case queued =>
    have e := heartbeat_of_port hon hp
    exact leaves_of_eq (congrArg State.settled e) rfl
  case noPin => exact leaves_of_eq (gpioChange_of_absent hn) rfl
  case told => exact leaves_of_eq (gpioChange_of_told hn h) rfl
  case untold => exact leaves_of_eq (gpioChange_of_untold hn h) rfl
  case pulse => exact leaves_of_eq (ppsPulse_of_carried hc hp) rfl
  case noPulse => exact leaves_of_eq (ppsPulse_of_none h) rfl
  case pulseEnd => exact leaves_of_eq rfl rfl

end Sys2Proof.Machine
end

section
/-! SUPPORT. The ring's link and lanes, and the loss of a member (21 R451, R452, R456, R467, R468; 22 R485 to R487). -/

namespace Sys2Proof.Machine

section
variable {s : State}

/-! ### The link (21 R451, R456; log 61) -/

/-- The lanes of direction d that come up when this many have locked. -/
def State.lanesUp (s : State) (lanes d : Nat) : List Bool :=
  let good : List Bool := [!s.aos.lanes.contains (2 * d), !s.aos.lanes.contains (2 * d + 1)]
  if lanes = 1 ∧ good = [true, true] then [true, false] else good

/-- The ring link may come up. -/
def State.LinkAble (s : State) (lanes : Nat) : Prop := s.conf.cascade.role ≠ 0 ∧ s.mode ≠ 0 ∧ s.cas.link = false ∧ lanes ≠ 0

/-- The link is up on these lanes. -/
def State.linked (s : State) (lanes : Nat) : State :=
  { s with cas := { s.cas with
    link := true, rxDir := { s.cas.rxDir with lanes := s.lanesUp lanes 0 }, txDir := { s.cas.txDir with lanes := s.lanesUp lanes 1 } } }

theorem any_id_iff {l : List Bool} : l.any id = true ↔ true ∈ l := by simp

variable {lanes : Nat}

theorem linkComesUp_of_unable (h : ¬ s.LinkAble lanes ∨ true ∉ s.lanesUp lanes 0 ∨ true ∉ s.lanesUp lanes 1) :
    linkComesUp s lanes = s := by
  unfold linkComesUp
  split
  · rfl
  · rename_i hopen
    refine if_pos ?_
    change lanes = 0 ∨ (!(s.lanesUp lanes 0).any id) = true ∨ (!(s.lanesUp lanes 1).any id) = true
    rw [Bool.not_eq_true', Bool.not_eq_true', Bool.eq_false_iff, Bool.eq_false_iff, Ne, Ne, any_id_iff, any_id_iff]
    refine h.imp_left fun hn => by_contra fun hl => hn ?_
    simpa [State.LinkAble, State.isConfigured, hl] using hopen

section
variable (ha : s.LinkAble lanes) (hrx : true ∈ s.lanesUp lanes 0) (htx : true ∈ s.lanesUp lanes 1)
include ha hrx htx

theorem linkComesUp_of_able :
    linkComesUp s lanes =
      if s.conf.cascade.rank = 0 then
        settleRole ((s.linked lanes).holdFlags.modCas fun c => { c with joined := true, master := true, int := c.int.raise 0 })
      else sendJoin (s.linked lanes) := by
  obtain ⟨hrole, hmode, hlink, hlanes⟩ := ha
  refine (if_neg (by simp [hrole, hmode, hlink, State.isConfigured])).trans (if_neg ?_)
  change ¬ (lanes = 0 ∨ (!(s.lanesUp lanes 0).any id) = true ∨ (!(s.lanesUp lanes 1).any id) = true)
  simp only [any_id_iff.mpr hrx, any_id_iff.mpr htx, hlanes, Bool.not_true, Bool.false_eq_true, or_self, not_false_eq_true]

end

/-! ### The lanes (21 R451; 22 R486) -/

variable {dir lane n : Nat}

/-- Lane `lane` of a direction is degraded for good, the direction being `x` otherwise. -/
def State.laneLostFor (s : State) (dir lane n : Nat) (x : RingDir) : State :=
  let l := addOnce s.aos.lanes (2 * dir + lane)
  let c := s.cas.setDir dir x
  State.lasting { s with
    aos := { s.aos with lanes := l }
    cas := { c with int := c.int.raise 8, link := c.link && !(l.contains (2 * dir) && l.contains (2 * dir + 1)) } }
    0x0801 (2 * dir + lane) (leBytes 4 n)

theorem degradeLane_eq (x : RingDir) : degradeLane (s.modCas fun c => c.setDir dir x) dir lane n = s.laneLostFor dir lane n x := by
  unfold degradeLane State.laneLostFor State.modCas
  dsimp only
  cases (addOnce s.aos.lanes (2 * dir + lane)).contains (2 * dir) && (addOnce s.aos.lanes (2 * dir + lane)).contains (2 * dir + 1) <;>
    simp

/-- The lane leaves service for its BIST. -/
def State.OutForBist (s : State) (dir lane n : Nat) : Prop :=
  dir ≤ 1 ∧ lane ≤ 1 ∧ 16 < n ∧ nth (s.cas.dir dir).lanes lane false = true ∧ s.cas.link = true

theorem laneExcess_of_out (h : s.OutForBist dir lane n) :
    laneExcess s dir lane n = { s with cas := s.cas.setDir dir { s.cas.dir dir with
      lanes := modAt (s.cas.dir dir).lanes lane fun _ => false
      testing := modAt (s.cas.dir dir).testing lane fun _ => some n } } := if_pos h

theorem laneExcess_of_stays (h : ¬ s.OutForBist dir lane n) : laneExcess s dir lane n = s := if_neg h

theorem bistDone_of_untested {pass : Bool} (h : nth (s.cas.dir dir).testing lane none = none) : bistDone s dir lane pass = s := by
  unfold bistDone
  dsimp only
  rw [h]

/-- The direction whose lane ends its test. -/
def RingDir.tested (d : RingDir) (lane : Nat) : RingDir := { d with testing := modAt d.testing lane fun _ => none }

/-- The transient faults of the lane within the hour, this one among them. -/
def State.laneFaults (s : State) (dir lane : Nat) : List Nat := recentFaults (nth (s.cas.dir dir).faults lane []) s.tim.tick

section
variable (h : nth (s.cas.dir dir).testing lane none = some n)
include h

theorem bistDone_of_fail : bistDone s dir lane false = s.laneLostFor dir lane n ((s.cas.dir dir).tested lane) := by
  unfold bistDone
  dsimp only
  rw [h]
  exact degradeLane_eq _

theorem bistDone_of_pass :
    bistDone s dir lane true =
      let kept := { (s.cas.dir dir).tested lane with faults := modAt (s.cas.dir dir).faults lane fun _ => s.laneFaults dir lane }
      if 4 ≤ (s.laneFaults dir lane).length then s.laneLostFor dir lane n kept
      else State.transient { s with cas := s.cas.setDir dir { kept with lanes := modAt kept.lanes lane fun _ => true } }
        0x0801 (2 * dir + lane) (leBytes 4 n) := by
  unfold bistDone
  dsimp only
  rw [h, ← degradeLane_eq]
  rfl

end

/-! ### A member lost (21 R452, R458, R460, R466 to R472) -/

variable {rank : Nat}

/-- The member of this rank may be lost: it is present, or is the partner not yet declared lost (log 62). -/
def State.MayLose (s : State) (rank : Nat) : Prop :=
  s.conf.cascade.role ≠ 0 ∧ rank ≠ s.conf.cascade.rank ∧ rank < 16 ∧ s.mode ≠ 0 ∧
    ((nth s.cas.members rank {}).present = true ∨ s.isPair = true ∧ rank = s.partnerRank ∧ s.cas.partnerLost = false)

/-- The member is absent, 1 ms after its last heartbeat. -/
def State.absent (s : State) (rank : Nat) : State :=
  let e := if (nth s.cas.members rank {}).present = true then s.expire ((nth s.cas.members rank {}).beat + msTicks) else s
  { e with cas := { e.cas with
    members := modAt e.cas.members rank fun m => { m with present := false, joined := false }
    losses := satAdd 16 e.cas.losses 1, int := e.cas.int.raise 2
    lost0 := e.cas.lost0 || (rank == 0 && e.conf.cascade.role != 3) } }

/-- The module of rank `own` is the lowest joined one left. -/
def State.leadsAs (t : State) (own : Nat) : Bool :=
  t.cas.joined && !((List.range own).any fun n => (nth t.cas.members n {}).present && (nth t.cas.members n {}).joined)

/-- The master duties pass to the lowest joined rank left. -/
def State.dutiesPassed (t : State) (own rank : Nat) : State :=
  let u := if rank < own ∧ t.leadsAs own = true ∧ t.cas.master = false ∧ t.conf.time.timeSrc = 2 then holdTime t else t
  { u with cas := { u.cas with master := u.cas.master || t.leadsAs own } }

theorem memberLost_of_stays (h : ¬ s.MayLose rank) : memberLost s rank = s := by
  refine if_pos (by_contra fun hnot => h ?_)
  simp only [not_or, Bool.not_eq_true', Bool.not_eq_false, Bool.or_eq_true, Bool.and_eq_true, beq_iff_eq, Nat.not_le,
    State.isConfigured, bne_iff_ne] at hnot
  obtain ⟨hrole, hrank, hlt, hmode, hgoes⟩ := hnot
  exact ⟨hrole, hrank, hlt, hmode, hgoes.imp_right fun ⟨⟨hp, hr⟩, hl⟩ => ⟨hp, hr, hl⟩⟩

theorem State.dutiesPassed_eq (t : State) (own rank : Nat) :
    t.dutiesPassed own rank =
      State.modCas (if rank < own ∧ t.leadsAs own ∧ !t.cas.master ∧ t.conf.time.timeSrc = 2 then holdTime t else t)
        fun c => { c with master := c.master || t.leadsAs own } := by
  simp only [Bool.not_eq_true']
  rfl

/-- The partner of a pair is lost: the seeding ends, and a standby without a RELEASE takes over after the last launch it knows of. -/
def State.partnerGone (v : State) : State :=
  let w := abortSeeding v
  settleRole { w with cas := { w.cas with
    partnerLost := true, partner := false, seedAsk := []
    takeover := if w.cas.pairRole = 2 ∧ w.cas.released = none then some w.lostFrom else w.cas.takeover
    switchPending := false } }

theorem memberLost_of_goes (h : s.MayLose rank) :
    memberLost s rank =
      let v := (s.absent rank).dutiesPassed s.conf.cascade.rank rank
      if (!v.isPair) = true then v else v.partnerGone := by
  obtain ⟨hrole, hrank, hlt, hmode, hgoes⟩ := h
  rw [State.dutiesPassed_eq]
  refine (if_neg ?_).trans ?_
  · simp only [not_or, Bool.not_eq_true', Bool.not_eq_false, Bool.or_eq_true, Bool.and_eq_true, beq_iff_eq, Nat.not_le,
      State.isConfigured, bne_iff_ne]
    exact ⟨hrole, hrank, hlt, hmode, hgoes.imp_right fun ⟨hp, hr, hl⟩ => ⟨⟨hp, hr⟩, hl⟩⟩
  · rfl

theorem memberLost_of_single (h : s.MayLose rank) (hp : ((s.absent rank).dutiesPassed s.conf.cascade.rank rank).isPair = false) :
    memberLost s rank = (s.absent rank).dutiesPassed s.conf.cascade.rank rank :=
  (memberLost_of_goes h).trans (if_pos (by simp [hp]))

theorem memberLost_of_pair (h : s.MayLose rank) (hp : ((s.absent rank).dutiesPassed s.conf.cascade.rank rank).isPair = true) :
    memberLost s rank = ((s.absent rank).dutiesPassed s.conf.cascade.rank rank).partnerGone :=
  (memberLost_of_goes h).trans (if_neg (by simp [hp]))

theorem dzirakLinkUp_leaves {t : State} (h : linkComesUp s lanes = t) : Leaves (.dzirakLinkUp lanes) s t := leaves_of_eq h rfl

theorem laneBistDone_leaves {pass : Bool} {t : State} (h : bistDone s dir lane pass = t) : Leaves (.laneBistDone dir lane pass) s t :=
  leaves_of_eq h rfl

theorem memberLost_leaves {t : State} (h : memberLost s rank = t) : Leaves (.memberLost rank) s t := leaves_of_eq h rfl

end

/-- Settles O46: the link by what it has to come up on, a lane by its test, a loss by whom it makes master and by the pair. -/
theorem ringLinksAndLosses : Obligations.RingLinksAndLosses := by
  refine ⟨fun s => ⟨fun lanes => ⟨fun h => ?noLink, fun ha hrx htx hr => ?joins, fun ha hrx htx hr => ?leads⟩,
    fun dir lane n => ⟨fun h => ?excess, fun h => ?noExcess⟩, fun dir lane pass => ⟨fun h => ?noTest, fun n h =>
      ⟨fun hp => ?failed, fun hp hn => ?fourth, fun hp hn => ?passed⟩⟩⟩,
    fun s rank => ⟨fun h => ?stays, fun h hp => ?single, fun h hp => ?pair⟩⟩
  case noLink => exact dzirakLinkUp_leaves (linkComesUp_of_unable h)
  case joins => exact dzirakLinkUp_leaves ((linkComesUp_of_able ha hrx htx).trans (if_neg hr))
  case leads => exact dzirakLinkUp_leaves ((linkComesUp_of_able ha hrx htx).trans (if_pos hr))
  case excess => exact leaves_of_eq (laneExcess_of_out h) rfl
  case noExcess => exact leaves_of_eq (laneExcess_of_stays h) rfl
  case noTest => exact laneBistDone_leaves (bistDone_of_untested h)
  case failed =>
    subst hp
    exact laneBistDone_leaves (bistDone_of_fail h)
  case fourth =>
    subst hp
    exact laneBistDone_leaves ((bistDone_of_pass h).trans (if_pos hn))
  case passed =>
    subst hp
    exact laneBistDone_leaves ((bistDone_of_pass h).trans (if_neg (Nat.not_le.mpr hn)))
  case stays => exact memberLost_leaves (memberLost_of_stays h)
  case single => exact memberLost_leaves (memberLost_of_single h hp)
  case pair => exact memberLost_leaves (memberLost_of_pair h hp)

end Sys2Proof.Machine
end

section
/-! SUPPORT. A message of the ring: received, forwarded and taken (21 R450). -/

namespace Sys2Proof.Machine

section
variable {s t : State} {c : Instr} {h : RingHdr} {m : RingMsg} {f : State → State}

theorem State.inRing_iff : s.inRing = true ↔ s.conf.cascade.role ≠ 0 ∧ s.cas.link = true := by
  simp [State.inRing]

theorem State.inRing_false (hr : ¬ (s.conf.cascade.role ≠ 0 ∧ s.cas.link = true)) : s.inRing = false :=
  Bool.eq_false_iff.mpr (mt State.inRing_iff.mp hr)

/-- Every reception of a message is the ring's common reception, with an effect of its own. -/
theorem exec_of_ringReceived (hm : ringReceived s c = some (h, m)) : ∃ f, exec c s = s.done (s.ringIn h m f) := by
  unfold ringReceived at hm
  split at hm <;> cases hm <;> exact ⟨_, rfl⟩

/-! ### What becomes of it (21 R450) -/

theorem State.ringIn_of_out (hr : s.inRing = false) : s.ringIn h m f = s := if_pos (by simp [hr])

section
variable (hr : s.inRing = true)
include hr

theorem State.ringIn_of_badCrc (hc : h.crcOk = false) :
    s.ringIn h m f = { s with cas := { s.cas with crcErr := satAdd 32 s.cas.crcErr 1 } } := by
  simp [State.ringIn, hr, hc]

variable (hc : h.crcOk = true)
include hc

theorem State.ringIn_of_returned (hs : h.src = s.conf.cascade.rank) : s.ringIn h m f = s := by
  simp [State.ringIn, hr, hc, hs]

theorem State.ringIn_of_foreign (hs : h.src ≠ s.conf.cascade.rank) (hd : h.dst ≠ s.conf.cascade.rank) (ha : h.dst ≠ 255) :
    s.ringIn h m f = s.passOn h m := by
  simp [State.ringIn, hr, hc, hs, hd, ha]

end

theorem State.ringIn_of_taken (ht : RingTaken s h) : s.ringIn h m f = f (s.passOn h m) := by
  obtain ⟨hr, hc, hs, hd⟩ := ht
  simp [State.ringIn, State.inRing_iff.mpr hr, hc, hs, hd]

/-- A command that receives a message this member takes has the message's effect, once it has been passed on. -/
theorem ringTaken_leaves (hx : exec c s = s.done (s.ringIn h m f)) (ht : RingTaken s h) (e : f (s.passOn h m) = t) : Leaves c s t :=
  leaves_of_eq ((State.ringIn_of_taken ht).trans e) hx

/-! ### Forwarding (21 R450; log 85) -/

theorem State.passOn_of_own (hd : h.dst = s.conf.cascade.rank) : s.passOn h m = s := if_pos hd

/-- What leaves on the ring stands last in the send queue while it holds fewer than 64 messages. -/
theorem State.putRing_of_room {x : RingSend} (hl : s.cas.link = true) (hn : s.cas.tx.length < 64) :
    s.putRing x = { s with cas := { s.cas with tx := s.cas.tx ++ [x] } } := by
  have hroom : (s.cas.tx ++ [x]).length - 64 = 0 := by rw [List.length_append]; exact Nat.sub_eq_zero_of_le hn
  unfold State.putRing
  rw [if_pos hl]
  dsimp only
  rw [hroom, List.drop_zero]

theorem State.putRing_parts (x : RingSend) : ∃ l, s.putRing x = { s with cas := { s.cas with tx := l } } := by
  unfold State.putRing
  split
  · exact ⟨_, rfl⟩
  · exact ⟨s.cas.tx, rfl⟩

theorem State.passOn_parts : ∃ l, s.passOn h m = { s with cas := { s.cas with tx := l } } ∧
    (h.dst = s.conf.cascade.rank → l = s.cas.tx) ∧
    (h.dst ≠ s.conf.cascade.rank → s.conf.cascade.role ≠ 0 ∧ s.cas.link = true → s.cas.tx.length < 64 →
      l = s.cas.tx ++ [{ src := h.src, dst := h.dst, hops := (h.hops + 1) % 2 ^ 8, seq := h.seq, msg := m }]) := by
  by_cases hd : h.dst = s.conf.cascade.rank
  · exact ⟨s.cas.tx, State.passOn_of_own hd, fun _ => rfl, fun hn => absurd hd hn⟩
  · obtain ⟨l, hl⟩ := State.putRing_parts (s := s)
      { src := h.src, dst := h.dst, hops := wrapAdd 8 h.hops 1, seq := h.seq, msg := m }
    refine ⟨l, (if_neg hd).trans hl, fun he => absurd he hd, fun _ hring hn => ?_⟩
    rw [State.putRing_of_room hring.2 hn] at hl
    exact (congrArg (fun t : State => t.cas.tx) hl).symm

end

end Sys2Proof.Machine
end

section
/-! SUPPORT. The members of the ring: heartbeats, and who joins or is refused (21 R450, R456, R457, R464 to R467, R473). -/

namespace Sys2Proof.Machine

section
variable {s : State}

/-! ### Heartbeats (21 R450, R464 to R467) -/

theorem beatSend_of_out (hr : s.inRing = false) : beatSend s = s := if_pos (by simp [hr])

/-- ARB_HB follows the eligibility, the soak having started or stopped. -/
def State.arbDriven (s : State) : State :=
  let t := soakCheck s
  { t with pads := { t.pads with arbHb := t.eligible && t.alive && !t.cas.releaseReq } }

theorem beatSend_of_ring (hr : s.inRing = true) : beatSend s = settleRole (s.arbDriven.sendRing (.heartbeat s.arbDriven.beat)) :=
  if_neg (by simp [hr])

variable {b : BeatBody}

theorem beatReceived_of_unnamed (h : b.rank = s.conf.cascade.rank ∨ 16 ≤ b.rank) : beatReceived s b = s := if_pos h

/-- Once rank 0 is joined again nothing is unsynchronised for its loss. -/
def State.zeroBack (s : State) (b : BeatBody) : State :=
  if s.cas.lost0 = true ∧ b.rank = 0 ∧ b.joined = true then { s.holdFlags with cas := { s.holdFlags.cas with lost0 := false } } else s

/-- The member a heartbeat names as it describes itself. -/
def State.heard (s : State) (b : BeatBody) : State :=
  let old := nth s.cas.members b.rank {}
  let t := s.zeroBack b
  { t with cas := { t.cas with
    members := modAt t.cas.members b.rank fun _ => { old with
      present := true, joined := b.joined, excluded := old.excluded && !b.joined, pairRole := b.pairRole
      reason := if b.joined then 0 else old.reason, hotPct := b.hotPct, fw := b.fw, eligible := b.eligible
      takebackReq := b.takebackReq, beat := s.tim.tick }
    int := t.cas.int.raiseIf (b.joined && !old.joined) 0
    master := t.cas.master && !(b.joined && decide (b.rank < s.conf.cascade.rank) && t.prb.epoch.isNone) } }

/-- The partner of a pair is heard by the module of rank `own`. -/
def State.partnerHeard (t : State) (own : Nat) (b : BeatBody) : State :=
  { t with cas := { t.cas with
    partner := true, partnerLost := false, hbLost := t.cas.hbLost && !b.eligible
    released := if b.pairRole = 1 then none else t.cas.released
    int := t.cas.int.raiseIf (t.conf.pair.arbMode == 1 && own == 1 && t.cas.pairRole == 1 && b.pairRole == 1) 7 } }

/-- A standby that has just joined is to be seeded by the active. -/
def State.SeedsAt (s : State) (b : BeatBody) : Prop :=
  b.joined = true ∧ b.pairRole = 2 ∧
    ¬ ((nth s.cas.members b.rank {}).joined = true ∧ (nth s.cas.members b.rank {}).pairRole = 2) ∧
    ((s.heard b).partnerHeard s.conf.cascade.rank b).cas.pairRole = 1

section
variable (hown : b.rank ≠ s.conf.cascade.rank) (hb : b.rank < 16)
include hown hb

theorem beatReceived_of_named :
    beatReceived s b =
      let t := s.heard b
      let u := t.partnerHeard s.conf.cascade.rank b
      let old := nth s.cas.members b.rank {}
      if (!t.isPair) = true then t
      else settleRole (if (b.joined && b.pairRole == 2 && !(old.joined && old.pairRole == 2) && u.cas.pairRole == 1) = true
        then askSeeds u else u) :=
  if_neg (not_or.mpr ⟨hown, Nat.not_le.mpr hb⟩)

theorem beatReceived_of_single (hp : (s.heard b).isPair = false) : beatReceived s b = s.heard b :=
  (beatReceived_of_named hown hb).trans (if_pos (by simp [hp]))

theorem beatReceived_of_pair (hp : (s.heard b).isPair = true) :
    beatReceived s b =
      let u := (s.heard b).partnerHeard s.conf.cascade.rank b
      let old := nth s.cas.members b.rank {}
      settleRole (if (b.joined && b.pairRole == 2 && !(old.joined && old.pairRole == 2) && u.cas.pairRole == 1) = true
        then askSeeds u else u) :=
  (beatReceived_of_named hown hb).trans (if_neg (by simp [hp]))

theorem beatReceived_of_seeds (hp : (s.heard b).isPair = true) (h : s.SeedsAt b) :
    beatReceived s b = settleRole (askSeeds ((s.heard b).partnerHeard s.conf.cascade.rank b)) := by
  obtain ⟨hj, hr, hold, ha⟩ := h
  refine (beatReceived_of_pair hown hb hp).trans (congrArg settleRole (if_pos ?_))
  simpa [hj, hr, ha, imp_iff_not_or] using hold

theorem beatReceived_of_noSeeds (hp : (s.heard b).isPair = true) (h : ¬ s.SeedsAt b) :
    beatReceived s b = settleRole ((s.heard b).partnerHeard s.conf.cascade.rank b) := by
  refine (beatReceived_of_pair hown hb hp).trans (congrArg settleRole (if_neg fun hs => h ?_))
  simp only [Bool.and_eq_true, beq_iff_eq, Bool.not_eq_true', Bool.eq_false_iff, ne_eq] at hs
  obtain ⟨⟨⟨hj, hr⟩, hold⟩, ha⟩ := hs
  exact ⟨hj, hr, hold, ha⟩

end

/-! ### Joining (21 R456, R457) -/

variable {j : JoinBody}

theorem joinAsked_of_member (hm : s.cas.master = false) : joinAsked s j = s := if_pos (by simp [hm])

theorem joinAsked_of_master (hm : s.cas.master = true) {why : Nat} (hw : s.joinReason j = why) :
    joinAsked s j = if why = 0 then s.sendRing (.joinAck j.rank) else refuseMember s j.rank why := by
  unfold joinAsked
  rw [if_neg (by simp [hm]), hw]
  cases why <;> rfl

theorem joinAcked_of_settled (h : s.conf.cascade.rank = 0 ∨ s.cas.joined = true) : joinAcked s = s := if_pos h

theorem joinAcked_of_waiting (hr : s.conf.cascade.rank ≠ 0) (hj : s.cas.joined = false) :
    joinAcked s = { s with cas := { s.cas with acked := true, timed := false, excluded := false, refuse := 0 } } :=
  if_neg (by simp [hr, hj])

variable {reason : Nat}

/-- The refusal concerns this module: it has a reason, and a joined member is only excluded. -/
def State.Refusable (s : State) (reason : Nat) : Prop :=
  s.conf.cascade.rank ≠ 0 ∧ reason ≠ 0 ∧ reason ≤ 6 ∧ (s.cas.joined = true → reason = 6)

theorem State.refusable_guard :
    s.conf.cascade.rank = 0 ∨ reason = 0 ∨ 6 < reason ∨ (s.cas.joined = true ∧ reason ≠ 6) ↔ ¬ s.Refusable reason := by
  simp only [State.Refusable, not_and_or, not_not, Nat.not_le, Classical.not_imp, ne_eq]

theorem joinRefused_of_other (h : ¬ s.Refusable reason) : joinRefused s reason = s := if_pos (State.refusable_guard.mpr h)

theorem joinRefused_of_mine (h : s.Refusable reason) : joinRefused s reason = refusedHere s reason :=
  if_neg (mt State.refusable_guard.mp (not_not.mpr h))

theorem joinAgain_of_settled (h : s.inRing = false ∨ s.cas.joined = true ∨ s.cas.refuse = 0) : joinAgain s = s :=
  if_pos (by rwa [Bool.not_eq_true'])

theorem joinAgain_of_refused (hr : s.inRing = true) (hj : s.cas.joined = false) (hn : s.cas.refuse ≠ 0) : joinAgain s = sendJoin s :=
  if_neg (by simp [hr, hj, hn])

end

/-- Settles O47: a message by the ring's common reception, then each message taken by what it says and whom it concerns. -/
theorem ringMembers : Obligations.RingMembers := by
  refine fun s => ⟨fun c h m hm => ?reception, fun hr => ?quiet, fun hr => ?beats,
    fun h b ht => ⟨fun hb => ?unnamed, fun hown hb => ⟨fun hp => ?single, fun hp => ⟨fun hs => ?seeds, fun hs => ?noSeeds⟩⟩⟩,
    fun h j ht => ⟨fun hm => ?notMaster, fun hm hw => ?granted, fun hm hw => ?refused⟩,
    fun h ht => ⟨fun hj => ?noAck, fun hr hj => ?ack, fun reason => ⟨fun hn => ?notMine, fun hy => ?mine⟩⟩,
    fun h => ?noRetry, fun hr hj hn => ?retry⟩
  case reception =>
    obtain ⟨f, hx⟩ := exec_of_ringReceived hm
    exact ⟨fun hr => leaves_of_eq (State.ringIn_of_out (State.inRing_false hr)) hx,
      fun hr hc => leaves_of_eq (State.ringIn_of_badCrc (State.inRing_iff.mpr hr) hc) hx,
      fun hr hc hs => leaves_of_eq (State.ringIn_of_returned (State.inRing_iff.mpr hr) hc hs) hx,
      fun hr hc hs hd ha => leaves_of_eq (State.ringIn_of_foreign (State.inRing_iff.mpr hr) hc hs hd ha) hx,
      State.passOn_parts⟩
  case quiet => exact leaves_of_eq (congrArg State.settled (beatSend_of_out (State.inRing_false hr))) rfl
  case beats => exact leaves_of_eq (congrArg State.settled (beatSend_of_ring (State.inRing_iff.mpr hr))) rfl
  case unnamed => exact ringTaken_leaves rfl ht (beatReceived_of_unnamed hb)
  case single => exact ringTaken_leaves rfl ht (beatReceived_of_single hown hb hp)
  case seeds => exact ringTaken_leaves rfl ht (beatReceived_of_seeds hown hb hp hs)
  case noSeeds => exact ringTaken_leaves rfl ht (beatReceived_of_noSeeds hown hb hp hs)
  case notMaster => exact ringTaken_leaves rfl ht (joinAsked_of_member hm)
  case granted => exact ringTaken_leaves rfl ht ((joinAsked_of_master hm rfl).trans (if_pos hw))
  case refused => exact ringTaken_leaves rfl ht ((joinAsked_of_master hm rfl).trans (if_neg hw))
  case noAck => exact ringTaken_leaves rfl ht (joinAcked_of_settled hj)
  case ack => exact ringTaken_leaves rfl ht (joinAcked_of_waiting hr hj)
  case notMine => exact ringTaken_leaves rfl ht (joinRefused_of_other hn)
  case mine => exact ringTaken_leaves rfl ht (joinRefused_of_mine hy)
  case noRetry => exact leaves_of_eq (joinAgain_of_settled (h.imp_left State.inRing_false)) rfl
  case retry => exact leaves_of_eq (joinAgain_of_refused (State.inRing_iff.mpr hr) hj hn) rfl

end Sys2Proof.Machine
end

section
/-! SUPPORT. Time in the ring: TIME, SLEW, the limit of a slew and the SYNC edge (21 R459, R477). -/

namespace Sys2Proof.Machine

section
variable {s : State}

theorem timeSend_of_master (hr : s.inRing = true) (hm : s.cas.master = true) :
    timeSend s = s.sendRing (.time s.tim.tick s.now 0) := if_pos ⟨hr, hm⟩

theorem timeSend_of_other (h : s.inRing = false ∨ s.cas.master = false) : timeSend s = s :=
  if_neg (by rcases h with h | h <;> simp [h])

/-! ### TIME (21 R459; 16 R346 to R348) -/

variable {mark mt d : Nat}

/-- The own timestamp of the mark less the master's and the delay. -/
def State.timeError (s : State) (mark mt d : Nat) : Int := (s.t48 mark : Int) - (mt * 2 ^ 32 : Nat) - ps48 d 1

/-- The error measured: within 20 ns a joining member may go on, beyond it slews, within 1 ns a slew ends. -/
def State.timeHeard (s : State) (ps : Int) : State :=
  let joining := s.cas.acked && !s.cas.joined
  let near := decide (-20000 ≤ ps ∧ ps ≤ 20000)
  { s with cas := { s.cas with
    terr := ps, timed := s.cas.timed || (joining && near)
    slewing := (s.cas.slewing || (joining && !near)) && !decide (-1000 ≤ ps ∧ ps ≤ 1000) } }

theorem timeTake_of_master (hm : s.cas.master = true) : timeTake s mark mt d = s := if_pos hm

theorem timeTake_of_member (hm : s.cas.master = false) :
    timeTake s mark mt d =
      let t := s.timeHeard (terrOf (s.timeError mark mt d))
      if t.conf.time.timeSrc = 2 then timeSteer t (s.timeError mark mt d) else t := if_neg (Bool.eq_false_iff.mp hm)

theorem timeTake_of_steered (hm : s.cas.master = false) (hs : s.conf.time.timeSrc = 2) :
    timeTake s mark mt d = timeSteer (s.timeHeard (terrOf (s.timeError mark mt d))) (s.timeError mark mt d) :=
  (timeTake_of_member hm).trans (if_pos hs)

theorem timeTake_of_unsteered (hm : s.cas.master = false) (hs : s.conf.time.timeSrc ≠ 2) :
    timeTake s mark mt d = s.timeHeard (terrOf (s.timeError mark mt d)) := (timeTake_of_member hm).trans (if_neg hs)

/-! ### SLEW and its limit (21 R459) -/

variable {target rank : Nat} {ec : Int}

theorem slewTake_of_mine (h : target = s.conf.cascade.rank) :
    slewTake s target ec = { s with cas := { s.cas with
      slewing := true, slewTick := s.tim.tick, slews := satAdd 16 s.cas.slews 1
      terr := clampInt (-2147483648) 2147483647 ec } } := if_pos h

theorem slewTake_of_other (h : target ≠ s.conf.cascade.rank) : slewTake s target ec = s := if_neg h

/-- This member slews and is still beyond 20 ns. -/
def State.SlewsLate (s : State) : Prop := s.cas.slewing = true ∧ (s.cas.terr < -20000 ∨ 20000 < s.cas.terr)

/-- The member is still beyond 20 ns by the master's last measure. -/
def State.MeasuredFar (s : State) (rank : Nat) : Prop := s.cas.master = true ∧ 200 < (nth s.cas.members rank {}).terr

theorem refusedHere_six :
    refusedHere s 6 = settleRole { s with cas := { s.cas with
      joined := false, acked := false, timed := false, slewing := false, refuse := 6, excluded := true
      refusals := satAdd 16 s.cas.refusals 1, int := s.cas.int.raise 1 } } := by
  simp only [refusedHere, State.modCas, BEq.rfl, Bool.or_true]

theorem refuseMember_six (h : rank ≠ s.conf.cascade.rank) :
    refuseMember s rank 6 = State.sendRing { s with cas := { s.cas with
      members := modAt s.cas.members rank fun m => { m with joined := false, excluded := true, reason := 6 }
      refusals := satAdd 16 s.cas.refusals 1, int := s.cas.int.raise 1 } } (.joinRefuse rank 6) := by
  simp only [refuseMember, State.modCas, if_neg h, ne_eq, not_true_eq_false, and_false, if_false]

theorem slewOver_of_late (hr : s.inRing = true) (ho : rank = s.conf.cascade.rank) (h : s.SlewsLate) :
    slewOver s rank = refusedHere (s.expire (s.cas.slewTick + secTicks)) 6 :=
  (if_neg (by simp [hr])).trans ((if_pos ho).trans (if_pos h))

theorem slewOver_of_far (hr : s.inRing = true) (ho : rank ≠ s.conf.cascade.rank) (h : s.MeasuredFar rank) :
    slewOver s rank = refuseMember (s.expire ((nth s.cas.members rank {}).slewTick + secTicks)) rank 6 :=
  (if_neg (by simp [hr])).trans ((if_neg ho).trans (if_pos h))

theorem slewOver_of_near
    (h : s.inRing = false ∨ rank = s.conf.cascade.rank ∧ ¬ s.SlewsLate ∨ rank ≠ s.conf.cascade.rank ∧ ¬ s.MeasuredFar rank) :
    slewOver s rank = s := by
  by_cases hr : s.inRing = true
  · refine (if_neg (by simp [hr])).trans ?_
    rcases h with h | ⟨ho, h⟩ | ⟨ho, h⟩
    · exact absurd h (by simp [hr])
    · exact (if_pos ho).trans (if_neg h)
    · exact (if_neg ho).trans (if_neg h)
  · exact if_pos (by simp [hr])

/-! ### The SYNC edge of a member (21 R459) -/

variable {inst : Nat}

/-- The edge instant of this member is measured by the master. -/
def State.MeasuresEdge (s : State) (rank : Nat) : Prop := s.cas.master = true ∧ rank < 16 ∧ rank ≠ s.conf.cascade.rank

/-- The error of a member's edge instant, in ps. -/
def State.edgeError (s : State) (inst : Nat) : Int := roundDiv (((inst : Int) - s.cas.syncInst) * 1000) (2 ^ 48)

/-- The edge instant taken as the member's error, in tenths of a nanosecond. -/
def State.edgeMeasured (s : State) (rank inst : Nat) : State :=
  let e : Int := (inst : Int) - s.cas.syncInst
  { s with cas := { s.cas with members := modAt s.cas.members rank fun m => { m with
    terr := min (roundDiv (e.natAbs * 10 : Nat) (2 ^ 48)).toNat 65535 } } }

theorem State.measuresEdge_guard : (!s.cas.master) = true ∨ 16 ≤ rank ∨ rank = s.conf.cascade.rank ↔ ¬ s.MeasuresEdge rank := by
  simp only [State.MeasuresEdge, not_and_or, Bool.not_eq_true', Bool.not_eq_true, Nat.not_lt, ne_eq, not_not]

theorem syncInstant_of_other (h : ¬ s.MeasuresEdge rank) : syncInstant s rank inst = s :=
  if_pos (State.measuresEdge_guard.mpr h)

theorem syncInstant_of_mine (h : s.MeasuresEdge rank) :
    syncInstant s rank inst =
      let t := s.edgeMeasured rank inst
      if s.edgeError inst < -20000 ∨ 20000 < s.edgeError inst then
        let u := t.sendRing (.slew rank (s.edgeError inst))
        { u with cas := { u.cas with
          slews := satAdd 16 u.cas.slews 1, members := modAt u.cas.members rank fun m => { m with slewTick := t.tim.tick } } }
      else t := if_neg (mt State.measuresEdge_guard.mp (not_not.mpr h))

theorem syncInstant_of_near (h : s.MeasuresEdge rank) (hlo : -20000 ≤ s.edgeError inst) (hhi : s.edgeError inst ≤ 20000) :
    syncInstant s rank inst = s.edgeMeasured rank inst :=
  (syncInstant_of_mine h).trans (if_neg (not_or.mpr ⟨not_lt.mpr hlo, not_lt.mpr hhi⟩))

end

/-- Settles O48: TIME and SLEW by whom they concern, the limit and the SYNC edge by the error that is left. -/
theorem ringTime : Obligations.RingTime := by
  refine fun s => ⟨fun hr hm => ?sends, fun h => ?quiet, fun h mark mt d ht => ⟨fun hm => ?master, fun hm hs => ?steered, fun hm hs => ?measured⟩,
    fun h target ec ht => ⟨fun hy => ?slews, fun hn => ?otherSlews⟩,
    fun rank => ⟨fun hr ho h => ?late, fun hr ho h => ?far, fun h => ?inTime⟩,
    fun h inst ht => ⟨fun hn => ?notMeasured, fun hy hlo hhi => ?near, fun hy hb => ?beyond⟩⟩
  case sends => exact leaves_of_eq (timeSend_of_master (State.inRing_iff.mpr hr) hm) rfl
  case quiet => exact leaves_of_eq (timeSend_of_other (h.imp_left State.inRing_false)) rfl
  case master => exact ringTaken_leaves rfl ht (timeTake_of_master hm)
  case steered => exact ringTaken_leaves rfl ht (timeTake_of_steered hm hs)
  case measured => exact ringTaken_leaves rfl ht (timeTake_of_unsteered hm hs)
  case slews => exact ringTaken_leaves rfl ht (slewTake_of_mine hy)
  case otherSlews => exact ringTaken_leaves rfl ht (slewTake_of_other hn)
  case late => exact leaves_of_eq ((slewOver_of_late (State.inRing_iff.mpr hr) ho h).trans refusedHere_six) rfl
  case far => exact leaves_of_eq ((slewOver_of_far (State.inRing_iff.mpr hr) ho h).trans (refuseMember_six ho)) rfl
  case inTime => exact leaves_of_eq (slewOver_of_near (h.imp_left State.inRing_false)) rfl
  case notMeasured => exact ringTaken_leaves rfl ht (syncInstant_of_other hn)
  case near => exact ringTaken_leaves rfl ht (syncInstant_of_near hy hlo hhi)
  case beyond => exact ringTaken_leaves rfl ht ((syncInstant_of_mine hy).trans (if_pos hb))

end Sys2Proof.Machine
end

section
/-! SUPPORT. What the ring shares: the master's state, the SYNC index, and amendments that all vote for (09 R193; 21 R456, R460, R461). -/

namespace Sys2Proof.Machine

section
variable {s : State}

/-! ### STATE and SYNC_IDX (09 R193; 21 R456, R460) -/

variable {st : StateBody} {ns : Nat}

/-- The master's state kept; a member without an epoch joins on it when its time has come. -/
def State.stateKept (s : State) (st : StateBody) : State :=
  let t : State := { s with cas := { s.cas with stateSeen := some st, master := false } }
  if t.prb.epoch = none then joinNow t else t

/-- A joined member waits for its launch in acquisition. -/
def State.WaitsLaunch (t : State) : Prop :=
  t.acquiring = true ∧ t.prb.epoch = none ∧ t.prb.arm = .waitLaunch ∧ t.cas.joined = true

theorem State.stateKept_eq (s : State) (st : StateBody) :
    (let t := s.modCas fun c => { c with stateSeen := some st, master := false }
     if t.prb.epoch.isNone then joinNow t else t) = s.stateKept st :=
  ite_congr (propext Option.isNone_iff_eq_none) (fun _ => rfl) (fun _ => rfl)

theorem stateTake_of_waits (h : (s.stateKept st).WaitsLaunch) :
    stateTake s st =
      let t := takeSchedule (s.stateKept st) st
      settleRole (gridOnMaster t st.ns t.prb.nextR) := by
  unfold stateTake
  dsimp only
  rw [State.stateKept_eq]
  exact congrArg settleRole (if_pos h)

theorem stateTake_of_noWait (h : ¬ (s.stateKept st).WaitsLaunch) : stateTake s st = settleRole (s.stateKept st) := by
  unfold stateTake
  dsimp only
  rw [State.stateKept_eq]
  exact congrArg settleRole (if_neg h)

/-- The module is a joined member, not the master. -/
def State.Member (s : State) : Prop := s.cas.joined = true ∧ s.cas.master = false

theorem State.member_guard : (!s.cas.joined) = true ∨ s.cas.master = true ↔ ¬ s.Member := by
  simp only [State.Member, not_and_or, Bool.not_eq_true', Bool.not_eq_true, Bool.not_eq_false]

theorem syncIdxTake_of_other (h : ¬ s.Member) : syncIdxTake s ns = s := if_pos (State.member_guard.mpr h)

theorem syncIdxTake_of_member (h : s.Member) : syncIdxTake s ns = if s.acquiring = true then takeSync s ns else ignoreSync s :=
  if_neg (mt State.member_guard.mp (not_not.mpr h))

/-! ### Amendments proposed (21 R461) -/

variable {type inst : Nat} {body : List Byte}

/-- The proposal with this record, which takes the place of one with the same type and number. -/
def State.nowProposed (s : State) (type inst : Nat) (body : List Byte) : List GroupRec :=
  s.proposedWith { type := type, inst := inst, body := body }

theorem propTake_of_other (h : ¬ s.Member) : propTake s type inst body = s := if_pos (State.member_guard.mpr h)

theorem propTake_of_valid (h : s.Member) {v : Conf}
    (hv : amendVerdict s ((s.nowProposed type inst body).map GroupRec.raw) = .valid v) :
    propTake s type inst body = State.sendRing { s with cas := { s.cas with
      proposed := s.nowProposed type inst body, proposedTick := s.tim.tick } } (.amendVote 0) := by
  unfold State.nowProposed at hv
  unfold propTake
  dsimp only
  rw [if_neg (mt State.member_guard.mp (not_not.mpr h)), hv]
  rfl

theorem propTake_of_invalid (h : s.Member)
    (hv : ∀ v, amendVerdict s ((s.nowProposed type inst body).map GroupRec.raw) ≠ .valid v) :
    propTake s type inst body = State.sendRing { s with cas := { s.cas with
      proposed := [], proposedTick := s.tim.tick } } (.amendVote 1) := by
  unfold State.nowProposed at hv
  unfold propTake
  dsimp only
  rw [if_neg (mt State.member_guard.mp (not_not.mpr h))]
  cases hr : amendVerdict s ((s.proposedWith { type := type, inst := inst, body := body }).map GroupRec.raw) with
  | valid v => exact absurd hr (hv v)
  | refuse r d => rfl

/-! ### Votes and the commit (21 R461) -/

variable {p : Proposal} {rank result : Nat}

theorem voteTake_of_none (h : s.cas.proposal = none) : voteTake s rank result = s := by
  unfold voteTake
  rw [h]

section
variable (h : s.cas.proposal = some p)
include h

theorem voteTake_of_unawaited (hw : rank ∉ p.waiting) : voteTake s rank result = s := by
  unfold voteTake
  rw [h]
  exact if_pos (by simp [hw])

variable (hw : rank ∈ p.waiting)
include hw

theorem voteTake_of_awaited :
    voteTake s rank result =
      if result ≠ 0 then proposalFails s p
      else if p.waiting.erase rank = [] then
        let r := commitOwn { s with cas := { s.cas with proposal := none } } p.req p.recs
        r.1.answer p.sid p.seq r.2
      else { s with cas := { s.cas with proposal := some { p with waiting := p.waiting.erase rank } } } := by
  unfold voteTake
  rw [h]
  exact if_neg (by simp [hw])

theorem voteTake_of_refusing (hr : result ≠ 0) : voteTake s rank result = proposalFails s p :=
  (voteTake_of_awaited h hw).trans (if_pos hr)

theorem voteTake_of_last (hr : result = 0) (hl : p.waiting.erase rank = []) :
    voteTake s rank result =
      let r := commitOwn { s with cas := { s.cas with proposal := none } } p.req p.recs
      r.1.answer p.sid p.seq r.2 :=
  (voteTake_of_awaited h hw).trans ((if_neg (not_not.mpr hr)).trans (if_pos hl))

theorem voteTake_of_earlier (hr : result = 0) (hl : p.waiting.erase rank ≠ []) :
    voteTake s rank result = { s with cas := { s.cas with proposal := some { p with waiting := p.waiting.erase rank } } } :=
  (voteTake_of_awaited h hw).trans ((if_neg (not_not.mpr hr)).trans (if_neg hl))

end

theorem voteTimeout_of_none (h : s.cas.proposal = none) : voteTimeout s = s := by
  unfold voteTimeout
  rw [h]

theorem voteTimeout_of_some (h : s.cas.proposal = some p) :
    voteTimeout s = proposalFails (s.expire (p.tick + 2 * msTicks)) p := by
  unfold voteTimeout
  rw [h]

variable {period : Nat}

theorem commitTake_of_none (h : s.cas.master = true ∨ s.cas.proposed = []) : commitTake s period = s := if_pos h

theorem commitTake_of_some (hm : s.cas.master = false) (hp : s.cas.proposed ≠ []) :
    commitTake s period =
      commitAmend { s with cas := { s.cas with proposed := [] } } { req := 0, recs := s.cas.proposed, period := period } :=
  if_neg (by simp [hm, hp])

end

/-- Settles O49: each message by the module's part in the cascade, a vote by the proposal it answers. -/
theorem ringShared : Obligations.RingShared := by
  refine fun s => ⟨fun h st ht => ⟨fun hw => ?waits, fun hw => ?noWait⟩,
    fun h ns ht => ⟨fun hm => ?noSync, fun hm ha => ?sync, fun hm ha => ?ignored⟩,
    fun h type inst body ht => ⟨fun hm => ?noProposal, fun hm hv => ?votesFor, fun hm hv => ?votesAgainst⟩,
    fun h result ht => ⟨fun hp => ?noVote, fun p hp => ⟨fun hw => ?unawaited, fun hw hr => ?refusing, fun hw hr hl => ?last,
      fun hw hr hl => ?earlier⟩⟩,
    fun hp => ?noTimeout, fun p hp => ?timeout, fun h period ht => ⟨fun hn => ?noCommit, fun hm hp => ?commits⟩⟩
  case waits => exact ringTaken_leaves rfl ht (stateTake_of_waits hw)
  case noWait => exact ringTaken_leaves rfl ht (stateTake_of_noWait hw)
  case noSync => exact ringTaken_leaves rfl ht (syncIdxTake_of_other hm)
  case sync => exact ringTaken_leaves rfl ht ((syncIdxTake_of_member hm).trans (if_pos ha))
  case ignored => exact ringTaken_leaves rfl ht ((syncIdxTake_of_member hm).trans (if_neg (Bool.eq_false_iff.mp ha)))
  case noProposal => exact ringTaken_leaves rfl ht (propTake_of_other hm)
  case votesFor =>
    obtain ⟨v, hv⟩ := hv
    exact ringTaken_leaves rfl ht (propTake_of_valid hm hv)
  case votesAgainst => exact ringTaken_leaves rfl ht (propTake_of_invalid hm hv)
  case noVote => exact ringTaken_leaves rfl ht (voteTake_of_none hp)
  case unawaited => exact ringTaken_leaves rfl ht (voteTake_of_unawaited hp hw)
  case refusing => exact ringTaken_leaves rfl ht (voteTake_of_refusing hp hw hr)
  case last => exact ringTaken_leaves rfl ht (voteTake_of_last hp hw hr hl)
  case earlier => exact ringTaken_leaves rfl ht (voteTake_of_earlier hp hw hr hl)
  case noTimeout => exact leaves_of_eq (voteTimeout_of_none hp) rfl
  case timeout => exact leaves_of_eq (voteTimeout_of_some hp) rfl
  case noCommit => exact ringTaken_leaves rfl ht (commitTake_of_none hn)
  case commits => exact ringTaken_leaves rfl ht (commitTake_of_some hm hp)

end Sys2Proof.Machine
end

section
/-! SUPPORT. The seeding of a standby by the active of its pair (21 R470 to R472). -/

namespace Sys2Proof.Machine

section
variable {s : State}

/-! ### The beginning (21 R470, R471) -/

/-- The partner is joined as standby. -/
def State.PartnerWaits (s : State) : Prop := s.partnerMem.present = true ∧ s.partnerMem.joined = true ∧ s.partnerMem.pairRole = 2

theorem State.partnerStandby_iff : s.partnerStandby = true ↔ s.PartnerWaits := by
  simp only [State.partnerStandby, State.PartnerWaits, Bool.and_eq_true, beq_iff_eq, and_assoc]

/-- The processed blocks asked for, in order. -/
def State.seedBlocks (s : State) : List Nat := (List.range s.procBlocks).filter fun b => s.cas.seedAsk.contains b

/-- The active begins a seeding. -/
def State.SeedStarts (s : State) : Prop :=
  s.isPair = true ∧ s.cas.seeding = false ∧ s.cas.pairRole = 1 ∧ s.seedBlocks ≠ [] ∧ s.PartnerWaits ∧ s.prb.epoch.isSome = true

theorem State.seedStarts_guard :
    (!s.isPair) = true ∨ s.cas.seeding = true ∨ s.cas.pairRole ≠ 1 ∨ s.seedBlocks = [] ∨ (!s.partnerStandby) = true ∨
      s.prb.epoch.isNone = true ↔ ¬ s.SeedStarts := by
  simp only [State.SeedStarts, not_and_or, Bool.not_eq_true', Bool.not_eq_true, Bool.not_eq_false, ne_eq, not_not,
    ← State.partnerStandby_iff, Option.isSome_eq_false_iff]

theorem seedStart_of_starts (h : s.SeedStarts) :
    seedStart s =
      let t := s.sendRing .seedBegin
      { t with cas := { t.cas with
        seeding := true, seedAsk := [], seedAcked := [], seedLeft := s.seedBlocks, seedBuf := []
        seedR0 := some (boundaryIdx s.planSegs s.nextM) } } := if_neg (mt State.seedStarts_guard.mp (not_not.mpr h))

theorem seedStart_of_idle (h : ¬ s.SeedStarts) : seedStart s = s := if_pos (State.seedStarts_guard.mpr h)

/-- The standby begins to be seeded. -/
def State.SeedBegins (s : State) : Prop := s.isPair = true ∧ s.cas.seeding = false ∧ s.cas.pairRole = 2

theorem State.seedBegins_guard : (s.isPair = true ∧ (!s.cas.seeding) = true ∧ s.cas.pairRole = 2) ↔ s.SeedBegins := by
  rw [Bool.not_eq_true', State.SeedBegins]

theorem seedBegun_of_begins (h : s.SeedBegins) : seedBegun s = { s with cas := { s.cas with seeding := true } } :=
  if_pos (State.seedBegins_guard.mpr h)

theorem seedBegun_of_other (h : ¬ s.SeedBegins) : seedBegun s = s := if_neg (mt State.seedBegins_guard.mp h)

/-! ### The chunks (21 R471, R472) -/

variable {b : Nat}

theorem State.chunkReady_iff {r0 : Nat} : s.chunkReady b r0 = true ↔ ∀ k < s.conf.probe.slots,
    (∃ e ∈ s.cas.seedBuf, e.1 = tokenKey b k) ∨ r0 + s.conf.probe.slots ≤ smGet 0 s.til.tokens (tokenKey b k) := by
  simp [State.chunkReady]

/-- The chunk of block b sent; `rest` is left. -/
def State.chunkSent (s : State) (b : Nat) (rest : List Nat) : State :=
  let t := s.sendRing (.seedChunk b (seedChunkBytes s b))
  { t with cas := { t.cas with seedLeft := rest, seedBuf := t.cas.seedBuf.filter fun e => e.1 / 128 != b } }

theorem chunkSend_of_next {r0 : Nat} {rest : List Nat} (hr : s.cas.seedR0 = some r0) (hl : s.cas.seedLeft = b :: rest)
    (hs : s.cas.seeding = true) (ha : s.cas.pairRole = 1) (hc : s.chunkReady b r0 = true) :
    chunkSend s b =
      let u := s.chunkSent b rest
      if rest ≠ [] then u
      else
        let v := u.sendRing .seedEnd
        { v with cas := { v.cas with
          seeding := false, seedR0 := none, seedBuf := [], seeds := satAdd 16 v.cas.seeds 1, int := v.cas.int.raise 4 } } := by
  unfold chunkSend
  rw [hr, hl]
  exact if_neg (by simp [hs, ha, hc])

theorem chunkSend_of_idle (h : s.cas.seedR0 = none ∨ s.cas.seedLeft.head? ≠ some b ∨ s.cas.seeding = false ∨ s.cas.pairRole ≠ 1) :
    chunkSend s b = s := by
  unfold chunkSend
  split
  · rename_i r0 b' rest hr hl
    refine if_pos ?_
    rcases h with h | h | h | h
    · exact absurd (hr.symm.trans h) (Option.some_ne_none r0)
    · rw [hl] at h
      exact .inl fun he => h (congrArg some he.symm)
    · exact .inr (.inl (by simp [h]))
    · exact .inr (.inr (.inl h))
  · rfl

variable {data : List Byte}

/-- A whole chunk for a block of the standby's plan. -/
def State.ChunkWhole (s : State) (b : Nat) (data : List Byte) : Prop :=
  s.isPair = true ∧ s.cas.pairRole = 2 ∧ b < s.procBlocks ∧ data.length = chunkLen s.fuses.order s.conf

theorem chunkTake_of_whole (h : s.ChunkWhole b data) :
    chunkTake s b data = { s with cas := { s.cas with
      seedRx := (s.cas.seedRx.filter fun x => x.block != b) ++ [chunkOf s b data] } } := by
  obtain ⟨hp, hr, hb, hl⟩ := h
  exact (if_neg (by simp [hp])).trans (if_neg (by simp [hr, hb, hl]))

theorem chunkTake_of_other (h : ¬ s.ChunkWhole b data) : chunkTake s b data = s := by
  by_cases hp : s.isPair = true
  · refine (if_neg (by simp [hp])).trans (if_pos (by_contra fun hnot => h ?_))
    simp only [not_or, ne_eq, not_not, Nat.not_le] at hnot
    exact ⟨hp, hnot⟩
  · exact if_pos (by simp [hp])

theorem seedCommitted_of_active (h : s.isPair = true ∧ s.cas.pairRole = 1) :
    seedCommitted s b = { s with cas := { s.cas with seedAcked := addOnce s.cas.seedAcked b } } := if_pos h

theorem seedCommitted_of_other (h : ¬ (s.isPair = true ∧ s.cas.pairRole = 1)) : seedCommitted s b = s := if_neg h

/-! ### The end, and seeding again (21 R470 to R472) -/

theorem seedEnded_of_ends (h : s.isPair = true ∧ s.cas.pairRole = 2 ∧ s.cas.seeding = true) :
    seedEnded s = { s with cas := { s.cas with
      seeding := false, seeds := satAdd 16 s.cas.seeds 1, int := s.cas.int.raise 4 } } := if_pos h

theorem seedEnded_of_other (h : ¬ (s.isPair = true ∧ s.cas.pairRole = 2 ∧ s.cas.seeding = true)) : seedEnded s = s := if_neg h

/-- The active is due to seed its standby again. -/
def State.SeedsAgain (s : State) : Prop :=
  s.isPair = true ∧ s.cas.pairRole = 1 ∧ s.PartnerWaits ∧ s.conf.pair.reseedS ≠ 0

theorem State.seedsAgain_guard :
    (s.isPair = true ∧ s.cas.pairRole = 1 ∧ s.partnerStandby = true ∧ s.conf.pair.reseedS ≠ 0) ↔ s.SeedsAgain := by
  rw [State.partnerStandby_iff, State.SeedsAgain]

theorem reseed_of_again (h : s.SeedsAgain) : reseed s = askSeeds s := if_pos (State.seedsAgain_guard.mpr h)

theorem reseed_of_not (h : ¬ s.SeedsAgain) : reseed s = s := if_neg (mt State.seedsAgain_guard.mp h)

end

/-- Settles O50: the beginning, the chunks and the end by the roles of the pair, and a chunk by whether it is the next. -/
theorem pairSeeding : Obligations.PairSeeding := by
  refine fun s => ⟨fun h ht => ⟨fun hb => ?begins, fun hb => ?noBegin⟩, fun hs => ?starts, fun hs => ?noStart,
    fun b => ⟨fun r0 rest hr hl hs ha hc => ⟨fun hm => ?chunk, fun hm => ?lastChunk⟩, fun h => ?noChunk,
      fun h data ht => ⟨fun hw => ?taken, fun hw => ?notTaken⟩, fun h ht => ⟨fun ha => ?committed, fun ha => ?notActive⟩⟩,
    fun h ht => ⟨fun he => ?ends, fun he => ?noEnd⟩, ⟨fun ha => ?again, fun ha => ?notAgain⟩⟩
  case begins => exact ringTaken_leaves rfl ht (seedBegun_of_begins hb)
  case noBegin => exact ringTaken_leaves rfl ht (seedBegun_of_other hb)
  case starts => exact leaves_of_eq (seedStart_of_starts hs) rfl
  case noStart => exact leaves_of_eq (seedStart_of_idle hs) rfl
  case chunk => exact leaves_of_eq ((chunkSend_of_next hr hl hs ha (State.chunkReady_iff.mpr hc)).trans (if_pos hm)) rfl
  case lastChunk =>
    exact leaves_of_eq ((chunkSend_of_next hr hl hs ha (State.chunkReady_iff.mpr hc)).trans (if_neg (not_not.mpr hm))) rfl
  case noChunk => exact leaves_of_eq (chunkSend_of_idle h) rfl
  case taken => exact ringTaken_leaves rfl ht (chunkTake_of_whole hw)
  case notTaken => exact ringTaken_leaves rfl ht (chunkTake_of_other hw)
  case committed => exact ringTaken_leaves rfl ht (seedCommitted_of_active ha)
  case notActive => exact ringTaken_leaves rfl ht (seedCommitted_of_other ha)
  case ends => exact ringTaken_leaves rfl ht (seedEnded_of_ends he)
  case noEnd => exact ringTaken_leaves rfl ht (seedEnded_of_other he)
  case again => exact leaves_of_eq (reseed_of_again ha) rfl
  case notAgain => exact leaves_of_eq (reseed_of_not ha) rfl

end Sys2Proof.Machine
end

section
/-! SUPPORT. Taking and giving the role of a pair, and PAIR_SWITCH (21 R465 to R467, R473, R474; 18 R400). -/

namespace Sys2Proof.Machine

section
variable {s : State}

/-! ### Events that move the role (21 R465 to R467, R473) -/

theorem releaseTake_of_waiting {last : Nat} (hp : s.isPair = true) (hr : s.cas.pairRole ≠ 1) :
    releaseTake s last = settleRole { s with cas := { s.cas with released := some last, takeover := some (last + 1) } } :=
  if_neg (by simp [hp, hr])

theorem releaseTake_of_other {last : Nat} (h : s.isPair = false ∨ s.cas.pairRole = 1) : releaseTake s last = s :=
  if_pos (by rwa [Bool.not_eq_true'])

theorem takeAsked_of_gives (h : s.isPair = true ∧ s.cas.pairRole = 1 ∧ s.conf.pair.arbMode = 1) :
    takeAsked s = settleRole { s with cas := { s.cas with switchPending := true } } := if_pos h

theorem takeAsked_of_other (h : ¬ (s.isPair = true ∧ s.cas.pairRole = 1 ∧ s.conf.pair.arbMode = 1)) : takeAsked s = s := if_neg h

theorem grantChange_of_arbiter {low : Bool} (hp : s.isPair = true) (hm : s.conf.pair.arbMode = 0) :
    grantChange s low = settleRole { s with pads := { s.pads with granted := low } } := if_pos ⟨hp, hm⟩

theorem grantChange_of_other {low : Bool} (h : ¬ s.isPair = true ∨ s.conf.pair.arbMode ≠ 0) : grantChange s low = s :=
  if_neg (not_and_or.mpr h)

theorem arbLost_of_partner (hp : s.isPair = true) (hm : s.conf.pair.arbMode = 1) :
    arbLost s = settleRole { s with cas := { s.cas with hbLost := true } } := if_pos ⟨hp, hm⟩

theorem arbLost_of_other (h : ¬ s.isPair = true ∨ s.conf.pair.arbMode ≠ 1) : arbLost s = s := if_neg (not_and_or.mpr h)

theorem soakOver_of_not (h : s.cas.soaking = false ∨ s.soakable = false) : soakOver s = s :=
  if_pos (by rwa [Bool.not_eq_true', Bool.not_eq_true'])

/-- The soak has ended at its tick. -/
def State.soaked (s : State) : State :=
  let x := s.advance s.cas.soakEndTick
  { x with cas := { x.cas with soaking := false, int := x.cas.int.raise 6 } }

theorem soakOver_of_due (hs : s.cas.soaking = true) (hk : s.soakable = true) : soakOver s = askRole s.soaked :=
  if_neg (by simp [hs, hk])

theorem askRole_of_partner (hm : s.conf.pair.arbMode = 1) :
    askRole s =
      let u := s.sendRing .takeReq
      { u with cas := { u.cas with switchPending := true } } := if_pos hm

theorem askRole_of_arbiter (hm : s.conf.pair.arbMode ≠ 1) : askRole s = { s with cas := { s.cas with takebackReq := true } } :=
  if_neg hm

/-! ### PAIR_SWITCH (21 R474; 18 R400) -/

variable {action force : Nat}

/-- A seeding runs or a switch is pending. -/
def State.SwitchBusy (s : State) : Prop := s.cas.seeding = true ∨ s.cas.switchPending = true

/-- The active may hand its role to its partner. -/
def State.PartnerFit (s : State) (force : Nat) : Prop :=
  s.cas.pairRole = 1 ∧ s.partnerMem.present = true ∧ s.partnerMem.eligible = true ∧ (force = 0 → 100 ≤ s.partnerMem.hotPct)

/-- The standby may take the role back. -/
def State.OwnFit (s : State) (force : Nat) : Prop := s.cas.pairRole = 2 ∧ s.eligible = true ∧ (force = 0 → 100 ≤ s.hotPct)

theorem State.partnerFit_guard (hp : s.isPair = true) :
    (!s.isPair) = true ∨ s.cas.pairRole ≠ 1 ∨ (!s.partnerMem.present) = true ∨ (!s.partnerMem.eligible) = true ∨
      (force = 0 ∧ s.partnerMem.hotPct < 100) ↔ ¬ s.PartnerFit force := by
  simp only [State.PartnerFit, hp, not_and_or, Bool.not_true, Bool.false_eq_true, false_or, Bool.not_eq_true', Bool.not_eq_true,
    Classical.not_imp, Nat.not_le, ne_eq]

theorem State.ownFit_guard :
    s.cas.pairRole ≠ 2 ∨ (!s.eligible) = true ∨ (force = 0 ∧ s.hotPct < 100) ↔ ¬ s.OwnFit force := by
  simp only [State.OwnFit, not_and_or, Bool.not_eq_true', Bool.not_eq_true, Classical.not_imp, Nat.not_le, ne_eq]

theorem switchAway_of_busy (h : s.SwitchBusy) : switchAway s force = .error .busy := if_pos h

theorem switchAway_of_unfit (hb : ¬ s.SwitchBusy) (hp : s.isPair = true) (h : ¬ s.PartnerFit force) :
    switchAway s force = .error .denied := (if_neg hb).trans (if_pos ((State.partnerFit_guard hp).mpr h))

theorem switchAway_of_fit (hb : ¬ s.SwitchBusy) (hp : s.isPair = true) (h : s.PartnerFit force) :
    switchAway s force = .ok (giveRole s) := (if_neg hb).trans (if_neg (mt (State.partnerFit_guard hp).mp (not_not.mpr h)))

theorem takeBack_of_busy (h : s.SwitchBusy) : takeBack s force = .error .busy := if_pos h

theorem takeBack_of_unfit (hb : ¬ s.SwitchBusy) (h : ¬ s.OwnFit force) : takeBack s force = .error .denied :=
  (if_neg hb).trans (if_pos (State.ownFit_guard.mpr h))

theorem takeBack_of_fit (hb : ¬ s.SwitchBusy) (h : s.OwnFit force) :
    takeBack s force = .ok (askRole { s with cas := { s.cas with soaking := false } }) :=
  (if_neg hb).trans (if_neg (mt State.ownFit_guard.mp (not_not.mpr h)))

theorem giveRole_of_partner (hm : s.conf.pair.arbMode = 1) : giveRole s = { s with cas := { s.cas with switchPending := true } } :=
  if_pos hm

theorem giveRole_of_arbiter (hm : s.conf.pair.arbMode ≠ 1) :
    giveRole s = { s with pads := { s.pads with arbHb := false }, cas := { s.cas with switchPending := true, releaseReq := true } } :=
  if_neg hm

/-- The switch takes the role back to this module, the preferred one. -/
def State.TakesBack (s : State) (action : Nat) : Prop := action = 1 ∧ s.conf.pair.preferred = s.conf.cascade.rank

/-- What a switch asked for comes to. -/
def State.switchTried (s : State) (action force : Nat) : Except Result State :=
  if action = 0 ∨ (!(s.conf.pair.preferred == s.conf.cascade.rank)) = true then switchAway s force else takeBack s force

theorem State.switchTried_of_away (ha : action ≤ 2) (hn : action ≠ 2) (h : ¬ s.TakesBack action) :
    s.switchTried action force = switchAway s force := by
  refine if_pos (or_iff_not_imp_left.mpr fun h0 => ?_)
  have h1 : action = 1 := by omega
  simpa using fun hr => h ⟨h1, hr⟩

theorem State.switchTried_of_back (h : s.TakesBack action) : s.switchTried action force = takeBack s force := by
  obtain ⟨rfl, hr⟩ := h
  exact if_neg (by simp [hr])

theorem pairSwitch_of_invalid (h : 2 < action ∨ 1 < force) : pairSwitch s action force = (s, plain .invalid) := if_pos h

section
variable (ha : action ≤ 2) (hf : force ≤ 1)
include ha hf

theorem pairSwitch_of_single (hp : s.isPair = false) : pairSwitch s action force = (s, plain .denied) :=
  (if_neg (not_or.mpr ⟨Nat.not_lt.mpr ha, Nat.not_lt.mpr hf⟩)).trans (if_pos (by simp [hp]))

variable (hp : s.isPair = true)
include hp

theorem pairSwitch_of_cancel (hc : action = 2) :
    pairSwitch s action force =
      ({ s with cas := { s.cas with soaking := false, soakSkip := s.cas.soaking || s.cas.soakSkip } }, plain .ok) :=
  (if_neg (not_or.mpr ⟨Nat.not_lt.mpr ha, Nat.not_lt.mpr hf⟩)).trans ((if_neg (by simp [hp])).trans (if_pos hc))

variable (hn : action ≠ 2)
include hn

theorem pairSwitch_of_error {e : Result} (h : s.switchTried action force = .error e) :
    pairSwitch s action force = (s, plain e) := by
  refine (if_neg (not_or.mpr ⟨Nat.not_lt.mpr ha, Nat.not_lt.mpr hf⟩)).trans ((if_neg (by simp [hp])).trans ((if_neg hn).trans ?_))
  change (match s.switchTried action force with | .error e => (s, plain e) | .ok t => _) = _
  rw [h]

theorem pairSwitch_of_ok {t : State} (h : s.switchTried action force = .ok t) :
    pairSwitch s action force =
      (settleRole t, withData .deferred (leBytes 8 (if s.prb.epoch.isSome then s.nextM else 0))) := by
  refine (if_neg (not_or.mpr ⟨Nat.not_lt.mpr ha, Nat.not_lt.mpr hf⟩)).trans ((if_neg (by simp [hp])).trans ((if_neg hn).trans ?_))
  change (match s.switchTried action force with | .error _ => _ | .ok t => (settleRole t, withData .deferred (leBytes 8 s.releaseIndex))) = _
  rw [h]
  rfl

theorem pairSwitch_of_busy (hb : s.SwitchBusy) : pairSwitch s action force = (s, plain .busy) := by
  refine pairSwitch_of_error ha hf hp hn ?_
  by_cases ho : s.TakesBack action
  · exact (State.switchTried_of_back ho).trans (takeBack_of_busy hb)
  · exact (State.switchTried_of_away ha hn ho).trans (switchAway_of_busy hb)

end

theorem pairSwitch_leaves {h : Hdr} {x : Session} (hr : Ready s h 0x0071 1 x) {u : State} {r : Response}
    (e : pairSwitch (s.entered h) action force = (u, r)) : Leaves (.pairSwitch h action force) s (u.answer h.sid h.seq r) :=
  command1_leaves hr (fun s _ => pairSwitch s action force) rfl e

end

/-- Settles O51: each event by the pair and its arbitration, PAIR_SWITCH by whose role moves and whether it may. -/
theorem pairRoles : Obligations.PairRoles := by
  refine ⟨fun s => ⟨fun h last ht => ⟨fun hp hr => ?released, fun hn => ?notReleased⟩, fun h ht => ⟨fun hg => ?gives, fun hg => ?keeps⟩,
      fun low => ⟨fun hp hm => ?granted, fun hn => ?notGranted⟩, fun hp hm => ?beatLost, fun hn => ?noBeat, fun hn => ?noSoak,
      fun hs hk => ⟨fun hm => ?asksPartner, fun hm => ?asksArbiter⟩⟩,
    fun s h x hr action force => ⟨fun hi => ?invalid, fun ha hf => ⟨fun hp => ?single, fun hp => ⟨fun hc => ?cancel, fun hn =>
      ⟨fun hb => ?busy, fun hb ho hfit => ?unfit, fun hb ho hfit hm => ?toPartner, fun hb ho hfit hm => ?toArbiter,
        fun hb ho hfit => ?ownUnfit, fun hb ho hfit => ?back⟩⟩⟩⟩⟩
  case released => exact ringTaken_leaves rfl ht (releaseTake_of_waiting hp hr)
  case notReleased => exact ringTaken_leaves rfl ht (releaseTake_of_other hn)
  case gives => exact ringTaken_leaves rfl ht (takeAsked_of_gives hg)
  case keeps => exact ringTaken_leaves rfl ht (takeAsked_of_other hg)
  case granted => exact leaves_of_eq (congrArg State.settled (grantChange_of_arbiter hp hm)) rfl
  case notGranted => exact leaves_of_eq (congrArg State.settled (grantChange_of_other hn)) rfl
  case beatLost => exact leaves_of_eq (arbLost_of_partner hp hm) rfl
  case noBeat => exact leaves_of_eq (arbLost_of_other hn) rfl
  case noSoak => exact leaves_of_eq (soakOver_of_not hn) rfl
  case asksPartner => exact leaves_of_eq ((soakOver_of_due hs hk).trans (askRole_of_partner hm)) rfl
  case asksArbiter => exact leaves_of_eq ((soakOver_of_due hs hk).trans (askRole_of_arbiter hm)) rfl
  case invalid => exact pairSwitch_leaves hr (pairSwitch_of_invalid hi)
  case single => exact pairSwitch_leaves hr (pairSwitch_of_single ha hf hp)
  case cancel => exact pairSwitch_leaves hr (pairSwitch_of_cancel ha hf hp hc)
  case busy => exact pairSwitch_leaves hr (pairSwitch_of_busy ha hf hp hn hb)
  case unfit =>
    exact pairSwitch_leaves hr (pairSwitch_of_error ha hf hp hn
      ((State.switchTried_of_away ha hn ho).trans (switchAway_of_unfit hb hp hfit)))
  case toPartner =>
    have ht := (State.switchTried_of_away ha hn ho).trans (switchAway_of_fit hb hp hfit)
    rw [giveRole_of_partner hm] at ht
    exact pairSwitch_leaves hr (pairSwitch_of_ok ha hf hp hn ht)
  case toArbiter =>
    have ht := (State.switchTried_of_away ha hn ho).trans (switchAway_of_fit hb hp hfit)
    rw [giveRole_of_arbiter hm] at ht
    exact pairSwitch_leaves hr (pairSwitch_of_ok ha hf hp hn ht)
  case ownUnfit =>
    exact pairSwitch_leaves hr (pairSwitch_of_error ha hf hp hn ((State.switchTried_of_back ho).trans (takeBack_of_unfit hb hfit)))
  case back =>
    exact pairSwitch_leaves hr (pairSwitch_of_ok ha hf hp hn ((State.switchTried_of_back ho).trans (takeBack_of_fit hb hfit)))

end Sys2Proof.Machine
end

section
/-! SUPPORT. The scrubbers, the end of an SRAM row test and the flash writer (22 R478 to R481, R484, R485, R490; 05 R125). -/

namespace Sys2Proof.Machine

section
variable {s : State}

theorem State.coreRuns_iff : s.coreRuns = true ↔ s.tim.counting = true ∧ s.sec.restarting = false := by
  simp [State.coreRuns]

theorem State.coreRuns_false (h : ¬ (s.tim.counting = true ∧ s.sec.restarting = false)) : s.coreRuns = false :=
  Bool.eq_false_iff.mpr (mt State.coreRuns_iff.mp h)

/-! ### SRAM (22 R478 to R480, R484, R485) -/

variable {bank row word : Nat} {ecc : EccResult} {syn : Nat}

/-- The SRAM scrubber has moved on by one word; a pass begins with the word at bank 0, row 0, word 0 (log 64). -/
def State.scrubbedOn (s : State) (bank row word : Nat) : State :=
  let a := startTask s 0 0 (20 * secTicks)
  if (bank = 0 ∧ row = 0 ∧ word = 0) ∨ s.bgw.sramPos = 0 then { a with bgw := { a.bgw with
    sramPasses := if a.bgw.sramPos = 0 then a.bgw.sramPasses else wrapAdd 32 a.bgw.sramPasses 1, sramPos := 1 } }
  else { s with bgw := { s.bgw with sramPos := s.bgw.sramPos + 1 } }

theorem State.scrubbedOn_eq (s : State) (bank row word : Nat) :
    (if (bank == 0 && row == 0 && word == 0) = true ∨ s.bgw.sramPos = 0 then
        (startTask s 0 0 (20 * secTicks)).modBgw fun b => { b with
          sramPasses := if b.sramPos = 0 then b.sramPasses else wrapAdd 32 b.sramPasses 1, sramPos := 1 }
      else s.modBgw fun b => { b with sramPos := b.sramPos + 1 }) = s.scrubbedOn bank row word :=
  ite_congr (by simp only [Bool.and_eq_true, beq_iff_eq, and_assoc]) (fun _ => rfl) (fun _ => rfl)

/-- An error that the scrubber found starts a row test. -/
def State.scrubTested (u : State) (bank row syn : Nat) : State :=
  startSramTest u { bank := bank, row := row, syndrome := syn, requester := 6 }

theorem sramScrub_of_stopped (hr : s.coreRuns = false) : sramScrub s bank row word ecc = s := if_pos (by simp [hr])

section
variable (hr : s.coreRuns = true)
include hr

theorem sramScrub_of_clean : sramScrub s bank row word .clean = s.scrubbedOn bank row word := by
  unfold sramScrub
  rw [if_neg (by simp [hr])]
  exact State.scrubbedOn_eq s bank row word

theorem sramScrub_of_corrected :
    sramScrub s bank row word (.corrected syn) =
      let t := s.scrubbedOn bank row word
      State.scrubTested { t with bgw := { t.bgw with sramCe := satAdd 32 t.bgw.sramCe 1 } } bank row syn := by
  unfold sramScrub
  dsimp only
  rw [if_neg (by simp [hr]), State.scrubbedOn_eq]
  rfl

theorem sramScrub_of_uncorrectable :
    sramScrub s bank row word (.uncorrectable syn) =
      let t := s.scrubbedOn bank row word
      badWord (State.scrubTested { t with bgw := { t.bgw with sramUe := satAdd 16 t.bgw.sramUe 1 } } bank row syn) bank row word := by
  unfold sramScrub
  dsimp only
  rw [if_neg (by simp [hr]), State.scrubbedOn_eq]
  rfl

end

/-- The block whose state the word holds; none in a bank beyond the position state memory. -/
def State.blockOfWord (u : State) (bank row word : Nat) : Option Nat :=
  if 64 ≤ bank then none else u.blockOfByte (2 ^ 20 * bank + 1024 * row + 8 * word)

theorem badWord_of_none (h : s.blockOfWord bank row word = none) : badWord s bank row word = s := by
  unfold State.blockOfWord at h
  unfold badWord
  split
  · rfl
  · rename_i hb
    rw [if_neg hb] at h
    rw [h]

theorem badWord_of_some {b : Nat} (h : s.blockOfWord bank row word = some b) :
    badWord s bank row word = s.askRestart (some [b]) false 0 := by
  unfold State.blockOfWord at h
  unfold badWord
  split
  · rename_i hb
    rw [if_pos hb] at h
    cases h
  · rename_i hb
    rw [if_neg hb] at h
    rw [h]

/-- The row test has found a lasting fault. -/
def State.rowLasting (s : State) (bank row : Nat) : State :=
  let r := s.sramTestOf bank row
  r.2.lasting 0x0501 bank r.1.data

/-- The bank has a spare row left. -/
def State.HasSpare (t : State) (bank : Nat) : Prop := (t.aos.sram.filter fun e => e.1 == bank).length < 4

theorem sramRowTest_of_transient :
    sramRowTest s bank row false =
      let r := s.sramTestOf bank row
      r.2.transient 0x0501 bank r.1.data := rfl

theorem sramRowTest_of_beyond (hb : 64 ≤ bank) : sramRowTest s bank row true = s.rowLasting bank row := if_pos hb

theorem sramRowTest_of_spare (hb : bank < 64) (h : (s.rowLasting bank row).HasSpare bank) :
    sramRowTest s bank row true =
      let t := s.rowLasting bank row
      { t with aos := { t.aos with sram := t.aos.sram ++ [(bank, row)] } } := (if_neg (Nat.not_le.mpr hb)).trans (if_pos h)

theorem sramRowTest_of_none (hb : bank < 64) (h : ¬ (s.rowLasting bank row).HasSpare bank) :
    sramRowTest s bank row true =
      let t := s.rowLasting bank row
      State.log { t with aos := { t.aos with sramSpareOut := true }, bgw := { t.bgw with int := t.bgw.int.raise 5 } }
        0x0502 2 bank (leBytes 4 row) := (if_neg (Nat.not_le.mpr hb)).trans (if_neg h)

/-! ### DRAM (22 R478, R479, R481) -/

theorem dramScrub_of_stopped (h : s.coreRuns = false ∨ s.mapEnd = 0) : dramScrub s ecc = s := if_pos (by rwa [Bool.not_eq_true'])

/-- A pass of the DRAM scrubber starts where none is under way. -/
def State.dramPassOn (s : State) : State :=
  if s.bgw.dramPos = 0 ∧ s.bgw.dramSkipped = [] then startTask s 1 s.bgw.acqFrom (8 * 3600 * secTicks) else s

section
variable (hr : s.coreRuns = true) (hm : s.mapEnd ≠ 0)
include hr hm

theorem dramScrub_of_passedOver {t : State} (ht : s.dramPassOn = t) {q : Nat}
    (hq : (t.bgw.dramSkipped.find? fun q => !t.asleepAt q) = some q) :
    dramScrub s ecc = scrubPass (scrubUnit { t with bgw := { t.bgw with dramSkipped := t.bgw.dramSkipped.erase q } } q ecc) := by
  unfold dramScrub
  dsimp only
  rw [if_neg (by simp [hr, hm]), ← State.dramPassOn, ht, hq]
  rfl

theorem dramScrub_of_next {t : State} (ht : s.dramPassOn = t) (hq : (t.bgw.dramSkipped.find? fun q => !t.asleepAt q) = none) :
    dramScrub s ecc =
      let p := t.bgw.dramPos
      let u : State := { t with bgw := { t.bgw with dramPos := p + 8 } }
      if t.mapEnd ≤ p then t
      else scrubPass (if t.asleepAt p = true then { u with bgw := { u.bgw with dramSkipped := u.bgw.dramSkipped ++ [p] } }
        else scrubUnit u p ecc) := by
  unfold dramScrub
  dsimp only
  rw [if_neg (by simp [hr, hm]), ← State.dramPassOn, ht, hq]
  rfl

end

/-! ### The flash writer (22 R490) -/

theorem flashRun_of_stopped (hr : s.coreRuns = false) : flashRun s = s := if_pos (by simp [hr])

/-- The budget refilled, as many waiting entries as it allows are written. -/
def State.flushed (s : State) : State :=
  let t := refillBucket (endTask (startTask s 5 0 (secTicks / 4)) 5)
  let n := min t.bgw.bucket t.bgw.queue.length
  (t.bgw.queue.take n).foldl writeEntry { t with bgw := { t.bgw with queue := t.bgw.queue.drop n, bucket := t.bgw.bucket - n } }

theorem flashRun_of_quiet (hr : s.coreRuns = true) {u : State} (hu : s.flushed = u) (h : u.bgw.dropped = none ∨ 256 ≤ u.bgw.queue.length) :
    flashRun s = u := by
  subst hu
  refine (if_neg (by simp [hr])).trans ?_
  change (match s.flushed.bgw.dropped with
    | some (count, first) => if s.flushed.bgw.queue.length < 256 then _ else s.flushed
    | none => s.flushed) = s.flushed
  cases hd : s.flushed.bgw.dropped with
  | none => rfl
  | some x => exact if_neg (Nat.not_lt.mpr (h.resolve_left (by simp [hd])))

theorem flashRun_of_lost (hr : s.coreRuns = true) {u : State} (hu : s.flushed = u) {count oldest : Nat}
    (hd : u.bgw.dropped = some (count, oldest)) (hl : u.bgw.queue.length < 256) :
    flashRun s = State.logNew { u with bgw := { u.bgw with dropped := none } } 0x0B01 0 0 (leBytes 4 count ++ leBytes 4 oldest) := by
  subst hu
  refine (if_neg (by simp [hr])).trans ?_
  change (match s.flushed.bgw.dropped with
    | some (count, first) => if s.flushed.bgw.queue.length < 256 then _ else s.flushed
    | none => s.flushed) = _
  rw [hd]
  exact if_pos hl

theorem sramScrub_leaves {t : State} (h : sramScrub s bank row word ecc = t) : Leaves (.sramScrub bank row word ecc) s t :=
  leaves_of_eq h rfl

theorem dramScrub_leaves {t : State} (h : dramScrub s ecc = t) : Leaves (.dramScrub ecc) s t := leaves_of_eq h rfl

theorem sramRowTestDone_leaves {bad : Bool} {t : State} (h : sramRowTest s bank row bad = t) :
    Leaves (.sramRowTestDone bank row bad) s t := leaves_of_eq h rfl

end

/-- Settles O59: the scrubbers by what they read, a row test by what it found and the spare rows left, the flash writer by what was lost. -/
theorem backgroundWork : Obligations.BackgroundWork := by
  refine fun s => ⟨fun bank row word ecc => ⟨fun hr => ?noScrub, fun hr => ⟨?clean, fun syn => ?corrected, fun syn => ?uncorrectable⟩⟩,
    fun ecc => ⟨fun h => ?noDram, fun hr hm => ⟨fun q hq => ?passedOver, fun hq => ⟨fun he => ?passEnds, fun hp ha => ?asleep, fun hp ha => ?awake⟩⟩⟩,
    fun bank row => ⟨?transient, fun hb => ?beyond, fun hb hf => ?spare, fun hb hf => ?noSpare⟩,
    fun hr => ?noFlash, fun hr => ⟨fun h => ?written, fun count oldest hd hl => ?lost⟩⟩
  case noScrub => exact sramScrub_leaves (sramScrub_of_stopped (State.coreRuns_false hr))
  case clean => exact sramScrub_leaves (sramScrub_of_clean (State.coreRuns_iff.mpr hr))
  case corrected => exact sramScrub_leaves (sramScrub_of_corrected (State.coreRuns_iff.mpr hr))
  case uncorrectable =>
    refine sramScrub_leaves ((sramScrub_of_uncorrectable (State.coreRuns_iff.mpr hr)).trans ?_)
    split
    · rename_i b hb
      exact badWord_of_some hb
    · rename_i hb
      exact badWord_of_none hb
  case noDram => exact dramScrub_leaves (dramScrub_of_stopped (h.imp_left State.coreRuns_false))
  case passedOver => exact dramScrub_leaves (dramScrub_of_passedOver (State.coreRuns_iff.mpr hr) hm rfl hq)
  case passEnds => exact dramScrub_leaves ((dramScrub_of_next (State.coreRuns_iff.mpr hr) hm rfl hq).trans (if_pos he))
  case asleep =>
    exact dramScrub_leaves ((dramScrub_of_next (State.coreRuns_iff.mpr hr) hm rfl hq).trans
      ((if_neg (Nat.not_le.mpr hp)).trans (congrArg scrubPass (if_pos ha))))
  case awake =>
    exact dramScrub_leaves ((dramScrub_of_next (State.coreRuns_iff.mpr hr) hm rfl hq).trans
      ((if_neg (Nat.not_le.mpr hp)).trans (congrArg scrubPass (if_neg (Bool.eq_false_iff.mp ha)))))
  case transient => exact sramRowTestDone_leaves sramRowTest_of_transient
  case beyond => exact sramRowTestDone_leaves (sramRowTest_of_beyond hb)
  case spare => exact sramRowTestDone_leaves (sramRowTest_of_spare hb hf)
  case noSpare => exact sramRowTestDone_leaves (sramRowTest_of_none hb hf)
  case noFlash => exact leaves_of_eq (flashRun_of_stopped (State.coreRuns_false hr)) rfl
  case written => exact leaves_of_eq (flashRun_of_quiet (State.coreRuns_iff.mpr hr) rfl h) rfl
  case lost => exact leaves_of_eq (flashRun_of_lost (State.coreRuns_iff.mpr hr) rfl hd hl) rfl

end Sys2Proof.Machine
end

section
/-! SUPPORT. The handshake: datagrams that arrive, HELLO, PROOF and the ends of sessions (18 R383, R391 to R400; 15 R325). -/

namespace Sys2Proof.Machine

section
variable {s a : State} {v : Via}

/-! ### Datagrams (15 R317, R325; 18 R391, R396) -/

/-- The session engine takes the datagrams of this kind. -/
def NetRec.FitsMgmt (c : NetRec) (v : Via) : Prop :=
  v.rx.vlan = (if c.vlanEn = 1 then some c.vid else none) ∧ v.frag = false ∧ v.dstIp = c.ip ∧ v.dstUdp = c.mgmtUdp

theorem NetRec.takesMgmt_iff (c : NetRec) (v : Via) : c.takesMgmt v = true ↔ c.FitsMgmt v := by
  simp only [NetRec.takesMgmt, NetRec.FitsMgmt, Bool.and_eq_true, NetRec.takes_iff, Bool.not_eq_true', beq_iff_eq, and_assoc]

theorem State.arrives_of_spi (hp : portOf v.tr = none) : s.arrives v = some s := by
  unfold State.arrives
  rw [hp]

section
variable {p : Nat} (hp : portOf v.tr = some p)
include hp

theorem State.arrives_of_port :
    s.arrives v = if ((s.net.port p).up && s.conf.net.takesMgmt v) = true then some (s.received p v.rx) else none := by
  unfold State.arrives
  rw [hp]

theorem State.arrives_of_fits (hu : (s.net.port p).up = true) (hf : s.conf.net.FitsMgmt v) :
    s.arrives v = some (s.received p v.rx) :=
  (State.arrives_of_port hp).trans (if_pos (by rw [hu, (NetRec.takesMgmt_iff _ _).mpr hf]; rfl))

theorem State.arrives_of_unfit (hu : (s.net.port p).up = true) (hf : ¬ s.conf.net.FitsMgmt v) : s.arrives v = none :=
  (State.arrives_of_port hp).trans (if_neg (by rw [hu, Bool.true_and, NetRec.takesMgmt_iff]; exact hf))

theorem State.arrives_of_down (hu : (s.net.port p).up = false) : s.arrives v = none :=
  (State.arrives_of_port hp).trans (if_neg (by rw [hu]; exact Bool.false_ne_true))

theorem State.turnedAway_of_port : s.turnedAway v = if (s.net.port p).up = true then s.discard p v.rx else s := by
  unfold State.turnedAway
  rw [hp]

end

theorem tagFail_of_none (ha : s.arrives v = none) : tagFail s v = s.turnedAway v := by
  unfold tagFail
  rw [ha]

theorem tagFail_of_some (ha : s.arrives v = some a) :
    tagFail s v = if a.answers = true then
      { a with sec := { a.sec with tagFail := satAdd 32 a.sec.tagFail 1, int := a.sec.int.raise 4 } } else a := by
  unfold tagFail
  rw [ha]
  rfl

/-! ### HELLO (18 R383, R393, R394) -/

variable {tr : Transport} {src cred : Nat} {nh : List Byte}

/-- The half-open session of an earlier HELLO with this CRED_ID and nonce. -/
def State.halfFor (s : State) (cred : Nat) (nh : List Byte) : Option Session :=
  s.sec.sess.find? fun x => !x.isOpen && x.credId == cred && x.nh == nh

/-- A HELLO at a module that answers. -/
def State.HelloShaped (a : State) (cred : Nat) (nh : List Byte) : Prop := a.answers = true ∧ cred < 65536 ∧ nh.length = 32

theorem State.helloShaped_guard : (!a.answers) = true ∨ 65536 ≤ cred ∨ nh.length ≠ 32 ↔ ¬ a.HelloShaped cred nh := by
  simp only [State.HelloShaped, not_and_or, Bool.not_eq_true', Bool.not_eq_true, Nat.not_lt, ne_eq]

theorem hello_of_none (ha : s.arrives v = none) : hello s v cred nh = s.turnedAway v := by
  unfold hello
  rw [ha]

theorem hello_of_unshaped (ha : s.arrives v = some a) (h : ¬ a.HelloShaped cred nh) : hello s v cred nh = a := by
  unfold hello
  rw [ha]
  exact if_pos (State.helloShaped_guard.mpr h)

theorem hello_of_shaped (ha : s.arrives v = some a) (h : a.HelloShaped cred nh) : hello s v cred nh = helloHere a v.tr v.src cred nh := by
  unfold hello
  rw [ha]
  exact if_neg (mt State.helloShaped_guard.mp (not_not.mpr h))

theorem helloHere_of_half {x : Session} (hh : a.halfFor cred nh = some x) :
    helloHere a tr src cred nh = a.sendMgmt { transport := tr, dst := src, msg := x.challenge } := by
  unfold State.halfFor at hh
  unfold helloHere
  rw [hh]

theorem helloHere_of_full (hh : a.halfFor cred nh = none) (hn : 4 ≤ a.sec.sess.length) :
    helloHere a tr src cred nh =
      State.sendMgmt { a with sec := { a.sec with busy := satAdd 16 a.sec.busy 1 } } { transport := tr, dst := src, msg := .refuse 0 .busy } := by
  unfold State.halfFor at hh
  unfold helloHere
  rw [hh]
  exact if_pos hn

/-- The session a HELLO half opens, and the state with its random bytes drawn. -/
def State.halfOpened (a : State) (tr : Transport) (src cred : Nat) (nh : List Byte) : Session × State :=
  let loc : Bool := cred == 0 && nh == zeros 32 && tr == .spi && a.fuses.lifecycle == 0
  let slot := (a.flash.credSlot cred).filter fun i => !nth a.sec.locked i false
  let r := drawBytes a 2
  let b := drawBytes r.2 32
  let d := drawBytes b.2 16
  let si := match slot.bind a.flash.cred with
    | some k => (k.salt, k.iter)
    | none => if loc then (d.1, Config.freeNat d.2.free % 2 ^ 32) else (d.2.decoySalt cred, decoyIter cred)
  ({ sid := freeSid (a.sec.sess.map Session.sid) 5 (leNat r.1), slot := freeSlot a.sec.sess, isOpen := false, role := 0, localSess := loc
     transport := tr, src := src, credId := cred, credSlot := slot, nh := nh, nd := b.1, salt := si.1, iter := si.2, hMax := 0, window := []
     lastCmd := a.tim.tick, salts := [], latches := [], group := none, kH2m := [], kM2h := [] }, d.2)

/-- The half-open session is added. -/
def State.withHalf (x : Session × State) : State :=
  { x.2 with free := x.2.free + 1, sec := { x.2.sec with sess := x.2.sec.sess ++ [x.1] } }

theorem helloHere_of_room (hh : a.halfFor cred nh = none) (hn : a.sec.sess.length < 4) :
    helloHere a tr src cred nh =
      (State.withHalf (a.halfOpened tr src cred nh)).sendMgmt
        { transport := tr, dst := src, msg := (a.halfOpened tr src cred nh).1.challenge } := by
  unfold State.halfFor at hh
  unfold helloHere
  rw [hh]
  exact if_neg (Nat.not_le.mpr hn)

/-! ### PROOF (18 R391, R393 to R395) -/

variable {sid : Nat} {hp : List Byte}

/-- The half-open session with this SID. -/
def State.halfOf (s : State) (sid : Nat) : Option Session := s.sec.sess.find? fun x => !x.isOpen && x.sid == sid

/-- The reply kept for this PROOF. -/
def State.replyTo (s : State) (sid : Nat) (hp : List Byte) : Option ProofReply := s.sec.replies.find? fun m => m.sid == sid && m.hp == hp

theorem proofIn_of_none (ha : s.arrives v = none) : proofIn s v sid hp = s.turnedAway v := by
  unfold proofIn
  rw [ha]

theorem proofIn_of_some (ha : s.arrives v = some a) :
    proofIn s v sid hp = if a.answers = true then proofHere a v sid hp else a := by
  unfold proofIn
  rw [ha]

theorem proofIn_of_answers (ha : s.arrives v = some a) (hans : a.answers = true) : proofIn s v sid hp = proofHere a v sid hp :=
  (proofIn_of_some ha).trans (if_pos hans)

theorem proofHere_of_unknown (hh : a.halfOf sid = none) (hr : a.replyTo sid hp = none) : proofHere a v sid hp = a := by
  unfold State.halfOf at hh
  unfold State.replyTo at hr
  unfold proofHere
  rw [hh]
  dsimp only
  rw [hr]

theorem proofHere_of_repeated {m : ProofReply} (hh : a.halfOf sid = none) (hr : a.replyTo sid hp = some m) :
    proofHere a v sid hp = a.sendMgmt { m.msg with transport := v.tr, dst := v.src } := by
  unfold State.halfOf at hh
  unfold State.replyTo at hr
  unfold proofHere
  rw [hh]
  dsimp only
  rw [hr]

section
variable {z : Session} (hh : a.halfOf sid = some z)
include hh

theorem proofHere_of_good {kc : List Byte} (hk : (a.modSession sid fun y => y.from v).proofKey (z.from v) = some kc)
    (he : hp = hostProof (z.from v) kc) :
    proofHere a v sid hp = proofGood (a.modSession sid fun y => y.from v) (z.from v) hp kc := by
  unfold State.halfOf at hh
  unfold proofHere
  rw [hh]
  dsimp only
  rw [hk]
  exact if_pos he

theorem proofHere_of_bad (hk : (a.modSession sid fun y => y.from v).proofKey (z.from v) = none ∨
    ∃ kc, (a.modSession sid fun y => y.from v).proofKey (z.from v) = some kc ∧ hp ≠ hostProof (z.from v) kc) :
    proofHere a v sid hp = proofBad (a.modSession sid fun y => y.from v) (z.from v) hp := by
  unfold State.halfOf at hh
  unfold proofHere
  rw [hh]
  dsimp only
  rcases hk with hk | ⟨kc, hk, hn⟩
  · rw [hk]
  · rw [hk]
    exact if_neg hn

end

variable {x : Session}

/-- A proof that fails counts against its credential, unless the credential is unknown or locked. -/
def State.proofCounted (a : State) (x : Session) : State :=
  match x.credSlot with
  | some i => if x.localSess = true ∨ a.proofKey x = none then a else wrongProof a i
  | none => a

theorem proofBad_eq :
    proofBad a x hp =
      let t := a.proofCounted x
      (State.closeSession { t with sec := { t.sec with
        hsFail := satAdd 16 t.sec.hsFail 1, int := t.sec.int.raise 2 } } x.sid).proofReply x hp (.refuse x.sid .denied) := by
  unfold proofBad State.proofCounted
  simp only [Option.isNone_iff_eq_none]
  rfl

/-! ### Ends (18 R391, R394, R399) -/

theorem spiFetch_of_nil (h : s.sec.spiTx = []) : spiFetch s = { s with sec := { s.sec with spiLast := none } } := by
  unfold spiFetch
  rw [h]
  rfl

theorem spiFetch_of_cons {m : MgmtSend} {l : List MgmtSend} (h : s.sec.spiTx = m :: l) :
    spiFetch s = { s with sec := { s.sec with spiLast := some m, spiTx := l } } := by
  unfold spiFetch
  rw [h]
  rfl

theorem proofTimeout_of_half (h : s.halfOf sid = some x) :
    proofTimeout s sid = (s.expire (x.lastCmd + 5 * secTicks)).closeSession sid := by
  unfold State.halfOf at h
  unfold proofTimeout
  rw [h]

theorem proofTimeout_of_none (h : ∀ x ∈ s.sec.sess, x.isOpen = false → x.sid ≠ sid) : proofTimeout s sid = s := by
  have hn : (s.sec.sess.find? fun x => !x.isOpen && x.sid == sid) = none :=
    List.find?_eq_none.mpr fun x hx hs => by
      simp only [Bool.and_eq_true, Bool.not_eq_true', beq_iff_eq] at hs
      exact h x hx hs.1 hs.2
  unfold proofTimeout
  rw [hn]

theorem sessionTimeoutEv_of_none (h : s.session sid = none) : sessionTimeoutEv s sid = s := by
  unfold sessionTimeoutEv
  rw [h]

theorem sessionTimeoutEv_of_open (h : s.session sid = some x) :
    sessionTimeoutEv s sid = (s.expire (x.lastCmd + s.conf.sessionTimeout * secTicks)).closeSession sid := by
  unfold sessionTimeoutEv
  rw [h]

variable {slot : Nat}

theorem lockEnd_of_locked (h : nth s.sec.locked slot false = true) :
    lockEnd s slot =
      let t := s.expire (nth s.sec.lockTicks slot 0 + 60 * secTicks)
      { t with sec := { t.sec with locked := modAt t.sec.locked slot fun _ => false } } := if_pos h

theorem lockEnd_of_unlocked (h : nth s.sec.locked slot false = false) : lockEnd s slot = s := if_neg (Bool.eq_false_iff.mp h)

/-- A command with an effect after its response leaves what that effect leaves. -/
theorem commandThen_leaves {c : Instr} {h : Hdr} {code role : Nat} (hr : Ready s h code role x)
    (f : State → Session → State × Option Response × (State → State)) (hc : exec c s = s.done (s.commandThen h code role f))
    {u : State} {r : Response} {g : State → State} (hf : f (s.entered h) (x.entered s h) = (u, some r, g)) :
    Leaves c s (g (u.answer h.sid h.seq r)) :=
  leaves_of_done (by rw [hc, commandThen_ready hr, hf])

theorem hello_leaves {t : State} (h : hello s v cred nh = t) : Leaves (.hello v cred nh) s t := leaves_of_eq h rfl

theorem proof_leaves {t : State} (h : proofIn s v sid hp = t) : Leaves (.proof v sid hp) s t := leaves_of_eq h rfl

theorem mgmtTagFail_leaves {t : State} (h : tagFail s v = t) : Leaves (.mgmtTagFail v) s t := leaves_of_eq h rfl

end

end Sys2Proof.Machine

namespace Sys2Proof

open Machine

/-- Settles O53: a datagram by where it comes in, HELLO and PROOF by the session they meet, the ends by the session or lock they name. -/
theorem handshake : Obligations.Handshake := by
  refine ⟨fun s v => ⟨fun hp => State.arrives_of_spi hp, fun p hp => ⟨fun hu hf => ?arrives, fun hu hf => ?unfit, fun hu => ?down⟩,
      fun a ha => ⟨fun hans => ?tagFail, fun hans => ?deafTag⟩⟩,
    fun s v cred nh => ⟨fun ha => ?noHello, fun a ha => ⟨fun h => ?unshaped, fun x h hh => ?again, fun h hh hn => ?full, fun h hh hn => ?half⟩⟩,
    fun s v sid hp => ⟨fun ha => ?noProof, fun a ha => ⟨fun hans => ?deaf, fun hans hh hr => ?unknown, fun m hans hh hr => ?repeated,
      fun z hans hh => ⟨fun kc hk he => ?good, fun hk => ?bad⟩⟩⟩,
    fun s => ⟨fun h => ?noFetch, fun m l h => ?fetch, fun sid => ⟨fun x h => ?proofOver, fun h => ?noProofOver, fun h => ?noSession,
      fun x h => ?sessionOver⟩, fun slot => ⟨fun h => ?lockOver, fun h => ?noLock⟩⟩,
    fun s h x hr => ?close⟩
  case arrives => exact State.arrives_of_fits hp hu hf
  case unfit =>
    have ha := State.arrives_of_unfit hp hu hf
    exact ⟨ha, mgmtTagFail_leaves ((tagFail_of_none ha).trans ((State.turnedAway_of_port hp).trans (if_pos hu)))⟩
  case down =>
    have ha := State.arrives_of_down hp hu
    exact ⟨ha, mgmtTagFail_leaves ((tagFail_of_none ha).trans ((State.turnedAway_of_port hp).trans (if_neg (Bool.eq_false_iff.mp hu))))⟩
  case tagFail => exact mgmtTagFail_leaves ((tagFail_of_some ha).trans (if_pos hans))
  case deafTag => exact mgmtTagFail_leaves ((tagFail_of_some ha).trans (if_neg (Bool.eq_false_iff.mp hans)))
  case noHello => exact hello_leaves (hello_of_none ha)
  case unshaped => exact hello_leaves (hello_of_unshaped ha h)
  case again => exact hello_leaves ((hello_of_shaped ha h).trans (helloHere_of_half hh))
  case full => exact hello_leaves ((hello_of_shaped ha h).trans (helloHere_of_full hh hn))
  case half => exact hello_leaves ((hello_of_shaped ha h).trans (helloHere_of_room hh hn))
  case noProof => exact proof_leaves (proofIn_of_none ha)
  case deaf => exact proof_leaves ((proofIn_of_some ha).trans (if_neg (Bool.eq_false_iff.mp hans)))
  case unknown => exact proof_leaves ((proofIn_of_answers ha hans).trans (proofHere_of_unknown hh hr))
  case repeated => exact proof_leaves ((proofIn_of_answers ha hans).trans (proofHere_of_repeated hh hr))
  case good => exact proof_leaves ((proofIn_of_answers ha hans).trans (proofHere_of_good hh hk he))
  case bad => exact proof_leaves ((proofIn_of_answers ha hans).trans ((proofHere_of_bad hh hk).trans proofBad_eq))
  case noFetch => exact leaves_of_eq (spiFetch_of_nil h) rfl
  case fetch => exact leaves_of_eq (spiFetch_of_cons h) rfl
  case proofOver => exact leaves_of_eq (proofTimeout_of_half h) rfl
  case noProofOver => exact leaves_of_eq (proofTimeout_of_none h) rfl
  case noSession => exact leaves_of_eq (sessionTimeoutEv_of_none h) rfl
  case sessionOver => exact leaves_of_eq (sessionTimeoutEv_of_open h) rfl
  case lockOver => exact leaves_of_eq (lockEnd_of_locked h) rfl
  case noLock => exact leaves_of_eq (lockEnd_of_unlocked h) rfl
  case close => exact commandThen_leaves hr (fun s x => (s, some (plain .ok), fun s => s.closeSession x.sid)) rfl rfl

end Sys2Proof
end

section
/-! SUPPORT. The replay window (18 R397). -/

namespace Sys2Proof.Machine

section
variable {s a : State} {h : Hdr} {x : Session}

/-! ### What the window says of a SEQ -/

variable {seq : Nat}

theorem Session.replay_of_zero (hz : seq = 0) : x.replay seq = .zero := if_pos hz

theorem Session.replay_of_stale (hz : seq ≠ 0) (hs : seq + 63 < x.hMax) : x.replay seq = .stale := by
  have hle : ¬ x.hMax < seq := by omega
  exact (if_neg hz).trans ((if_neg hle).trans (if_pos hs))

theorem Session.replay_of_window (hz : seq ≠ 0) (hlo : x.hMax ≤ seq + 63) (hhi : seq ≤ x.hMax) :
    x.replay seq = match x.window.find? fun d => d.seq == seq with
      | some d => .seen d
      | none => .run :=
  (if_neg hz).trans ((if_neg (Nat.not_lt.mpr hhi)).trans (if_neg (Nat.not_lt.mpr hlo)))

theorem Session.replay_of_seen {d : Cached} (hz : seq ≠ 0) (hlo : x.hMax ≤ seq + 63) (hhi : seq ≤ x.hMax)
    (hd : (x.window.find? fun d => d.seq == seq) = some d) : x.replay seq = .seen d := by
  rw [Session.replay_of_window hz hlo hhi, hd]

theorem Session.replay_of_new (hz : seq ≠ 0) (hlo : x.hMax ≤ seq + 63) (hn : x.hMax < seq ∨ ∀ d ∈ x.window, d.seq ≠ seq) :
    x.replay seq = .run := by
  by_cases hhi : x.hMax < seq
  · exact (if_neg hz).trans (if_pos hhi)
  · have hd : (x.window.find? fun d => d.seq == seq) = none :=
      List.find?_eq_none.mpr fun d hd he => (hn.resolve_left hhi) d hd (by simpa using he)
    rw [Session.replay_of_window hz hlo (Nat.not_lt.mp hhi), hd]

/-! ### What an accepted SEQ leaves of the window -/

theorem Session.entered_window_mem (hlo : x.hMax ≤ h.seq + 63) :
    ({ seq := h.seq, resp := none, copies := 0 } : Cached) ∈ (x.entered s h).window ∧
    (∀ d ∈ (x.entered s h).window, (x.entered s h).hMax ≤ d.seq + 63) ∧
    ∀ d ∈ x.window, (x.entered s h).hMax ≤ d.seq + 63 → d ∈ (x.entered s h).window := by
  have hw : (x.entered s h).window =
      { seq := h.seq, resp := none, copies := 0 } :: x.window.filter fun d => decide (max x.hMax h.seq ≤ d.seq + 63) := rfl
  have hm : (x.entered s h).hMax = max x.hMax h.seq := rfl
  rw [hw, hm]
  refine ⟨List.mem_cons_self, fun d hd => ?_, fun d hd hle => List.mem_cons_of_mem _ (List.mem_filter.mpr ⟨hd, decide_eq_true hle⟩)⟩
  rcases List.mem_cons.mp hd with rfl | hd
  · exact Nat.max_le.mpr ⟨hlo, Nat.le_add_right _ _⟩
  · exact of_decide_eq_true (List.mem_filter.mp hd).2

/-! ### What becomes of a command -/

/-- The session's command has arrived. -/
def State.heardFrom (a : State) (h : Hdr) : State := a.modSession h.sid fun y => { y.from h.via with lastCmd := a.tim.tick }

theorem State.answers_of_arrives {v : Via} (ha : s.arrives v = some a) : a.answers = s.answers := by
  rw [State.arrives_parts ha]
  rfl

section
variable (hx : s.session h.sid = some x) (ha : s.arrives h.via = some a) (hans : s.answers = true)
include hx ha hans

theorem command1_of_notRun {code role : Nat} {f : State → Session → State × Response} {p : Replay}
    (hp : x.replay h.seq = p) (hn : p ≠ .run) :
    s.command1 h code role f = match (generalizing := false) p with
      | .zero => (a.heardFrom h).respond (x.from h.via) h.seq (plain .invalid)
      | .stale => State.respond { a.heardFrom h with sec := { (a.heardFrom h).sec with stale := satAdd 16 (a.heardFrom h).sec.stale 1 } }
          (x.from h.via) h.seq (plain .stale)
      | .seen d => (a.heardFrom h).duplicate (x.from h.via) d
      | .run => s := by
  have hreplay : (x.from h.via).replay h.seq = p := hp
  unfold State.command1 State.command State.commandThen
  rw [hx]
  dsimp only
  rw [ha]
  dsimp only
  rw [State.answers_of_arrives ha, hans, hreplay]
  cases p with
  | run => exact absurd rfl hn
  | _ => rfl

end

theorem State.duplicate_of_kept {d : Cached} {r : Response} (hr : d.resp = some r) :
    s.duplicate x d = State.respond { s with sec := { s.sec with dup := satAdd 16 s.sec.dup 1 } } x d.seq r := by
  unfold State.duplicate
  rw [hr]

theorem State.duplicate_of_running {d : Cached} (hr : d.resp = none) :
    s.duplicate x d = s.modSession x.sid fun y => { y with
      window := y.window.map fun k => if k.seq = d.seq then { k with copies := k.copies + 1 } else k } := by
  unfold State.duplicate
  rw [hr]

/-- The response of an open session's command is kept, then sent once, and once more for each copy that waits. -/
theorem State.answer_of_open {sid : Nat} (hx : s.session sid = some x) (r : Response) :
    s.answer sid seq r =
      (List.range (((x.window.find? fun d => d.seq == seq).map Cached.copies).getD 0 + 1)).foldl (fun t _ => t.respond x seq r)
        (s.modSession sid fun z => z.keep seq r) := by
  unfold State.answer
  rw [hx]

/-! ### The window of a new session -/

theorem State.turnedAway_sec (s : State) (v : Via) : (s.turnedAway v).sec = s.sec := by
  unfold State.turnedAway
  split
  · rfl
  · split <;> rfl

theorem helloHere_sess {tr : Transport} {src cred : Nat} {nh : List Byte} (y : Session)
    (hy : y ∈ (helloHere a tr src cred nh).sec.sess) :
    y ∈ a.sec.sess ∨ (y.isOpen = false ∧ y.hMax = 0 ∧ y.window = []) := by
  cases hh : a.halfFor cred nh with
  | some x =>
    rw [helloHere_of_half hh, State.sendMgmt_sess] at hy
    exact .inl hy
  | none =>
    rcases Nat.lt_or_ge a.sec.sess.length 4 with hn | hn
    · rw [helloHere_of_room hh hn, State.sendMgmt_sess] at hy
      rcases List.mem_append.mp hy with hy | hy
      · exact .inl hy
      · rw [List.mem_singleton.mp hy]
        exact .inr ⟨rfl, rfl, rfl⟩
    · rw [helloHere_of_full hh hn, State.sendMgmt_sess] at hy
      exact .inl hy

theorem hello_sess {v : Via} {cred : Nat} {nh : List Byte} (y : Session) (hy : y ∈ (hello s v cred nh).sec.sess) :
    y ∈ s.sec.sess ∨ (y.isOpen = false ∧ y.hMax = 0 ∧ y.window = []) := by
  cases ha : s.arrives v with
  | none =>
    rw [hello_of_none ha, State.turnedAway_sec] at hy
    exact .inl hy
  | some a =>
    have hs : a.sec = s.sec := by rw [State.arrives_parts ha]
    by_cases hf : a.HelloShaped cred nh
    · rw [hello_of_shaped ha hf] at hy
      rw [← hs]
      exact helloHere_sess y hy
    · rw [hello_of_unshaped ha hf, hs] at hy
      exact .inl hy

end

/-- Settles O52: a command by what the window says of its SEQ; a response by the copies that wait; a new session by its HELLO. -/
theorem replayWindow : Obligations.ReplayWindow := by
  refine ⟨fun c h code role f hc s a x hx ha hans => ⟨fun hz => ?zero, fun hz hs => ?stale, fun hz hlo hhi d hd =>
      ⟨fun r hr => ?cached, fun hr => ?waits⟩, fun hz hlo hn hrole hlife => ?runs⟩,
    fun s y sid seq r hy => State.answer_of_open hy r, fun s t v cred nh ht y hy => ?newSession⟩
  case zero =>
    exact leaves_of_eq (command1_of_notRun hx ha hans (Session.replay_of_zero hz) Replay.noConfusion) (hc s)
  case stale =>
    exact leaves_of_eq (command1_of_notRun hx ha hans (Session.replay_of_stale hz hs) Replay.noConfusion) (hc s)
  case cached =>
    have e := command1_of_notRun hx ha hans (Session.replay_of_seen hz hlo hhi hd) (code := code) (role := role) (f := f) Replay.noConfusion
    exact leaves_of_eq (e.trans (State.duplicate_of_kept hr)) (hc s)
  case waits =>
    have e := command1_of_notRun hx ha hans (Session.replay_of_seen hz hlo hhi hd) (code := code) (role := role) (f := f) Replay.noConfusion
    exact leaves_of_eq (e.trans (State.duplicate_of_running hr)) (hc s)
  case runs =>
    have hr : Ready s h code role x :=
      ⟨hx, by rw [ha]; rfl, hans, Session.replay_of_new hz hlo hn, hrole, .inl hlife⟩
    obtain ⟨hnew, hbound, hkept⟩ := Session.entered_window_mem (s := s) hlo
    exact ⟨command1_leaves hr f (hc s) rfl, State.entered_session hx, rfl, hnew, hbound, hkept⟩
  case newSession =>
    have he : exec (.hello v cred nh) s = s.done (hello s v cred nh) := rfl
    rw [he, State.done_eq] at ht
    cases ht
    exact hello_sess y hy

end Sys2Proof.Machine
end

section
/-! SUPPORT. Credentials (18 R389, R390, R399, R400; log 70). -/

namespace Sys2Proof.Machine

section
variable {s : State} {h : Hdr} {y x : Session} {slot : Nat}

/-- A session ready for a command that SCRAPPED forbids is ready for every command of the same role. -/
theorem Ready.recode {code role : Nat} (hr : Ready s h code role x) (hc : scrappedAllows code = false) (new : Nat) :
    Ready s h new role x :=
  { hr with life := .inl (hr.life.resolve_right (by rw [hc]; exact Bool.false_ne_true)) }

/-! ### CRED_SALT (18 R390) -/

theorem credSalt_of_beyond (hs : 8 ≤ slot) : credSalt s y slot = (s, plain .invalid) := if_pos hs

theorem credSalt_of_slot (hs : slot < 8) :
    credSalt s y slot =
      let d := drawBytes s 16
      (d.2.modSession y.sid fun z => { z with salts := (slot, d.1) :: z.salts.filter fun a => a.1 != slot }, withData .ok d.1) :=
  if_neg (Nat.not_le.mpr hs)

/-! ### CRED_SET and CRED_CLEAR (18 R390; log 70) -/

/-- The slot holds the last ADMIN credential of a module in PROVISIONED or SECURED. -/
def State.HoldsLastAdmin (s : State) (slot : Nat) : Prop :=
  (s.fuses.lifecycle = 1 ∨ s.fuses.lifecycle = 2) ∧ s.flash.admins = [slot]

theorem State.lastAdmin_iff : s.lastAdmin slot = true ↔ s.HoldsLastAdmin slot := by
  simp only [State.lastAdmin, State.HoldsLastAdmin, Bool.and_eq_true, Bool.or_eq_true, beq_iff_eq]

variable {id role iter : Nat} {kc : List Byte}

/-- Another slot holds the CRED_ID. -/
def Flash.heldElsewhere (f : Flash) (id slot : Nat) : Bool :=
  match f.credSlot id with
  | some i => i != slot
  | none => false

theorem Flash.heldElsewhere_false (f : Flash) : f.heldElsewhere id slot = false ↔ ∀ i, f.credSlot id = some i → i = slot := by
  unfold Flash.heldElsewhere
  cases f.credSlot id <;> simp

/-- The credential may stand in the slot. -/
def State.CredFits (s : State) (slot id role iter : Nat) (kc : List Byte) : Prop :=
  slot < 8 ∧ 0 < id ∧ id < 65536 ∧ role ≤ 2 ∧ 10000 ≤ iter ∧ iter ≤ 10000000 ∧ kc.length = 32 ∧
    ∀ i, s.flash.credSlot id = some i → i = slot

theorem State.credFits_guard :
    8 ≤ slot ∨ id = 0 ∨ 65536 ≤ id ∨ s.flash.heldElsewhere id slot = true ∨ 2 < role ∨ iter < 10000 ∨ 10000000 < iter ∨ kc.length ≠ 32 ↔
      ¬ s.CredFits slot id role iter kc := by
  simp only [State.CredFits, ← Flash.heldElsewhere_false, not_and_or, Nat.not_lt, Nat.not_le, Nat.le_zero, Bool.not_eq_false, ne_eq]
  tauto

theorem credSet_of_unfit (hf : ¬ s.CredFits slot id role iter kc) : credSet s y slot id role iter kc = (s, plain .invalid, false) :=
  if_pos (State.credFits_guard.mpr hf)

theorem credSet_of_unsalted (hs : (y.salts.find? fun a => a.1 == slot) = none) :
    credSet s y slot id role iter kc = (s, plain .invalid, false) := by
  unfold credSet
  dsimp only
  rw [hs, ite_self]

theorem credSet_of_salted (hf : s.CredFits slot id role iter kc) {a : Nat × List Byte}
    (hs : (y.salts.find? fun a => a.1 == slot) = some a) :
    credSet s y slot id role iter kc =
      if s.lastAdmin slot = true ∧ role ≠ 2 then (s, plain .denied, false)
      else (s.setCred slot (some { credId := id, role := role, salt := a.2, iter := iter, kc := kc }), plain .ok, true) := by
  refine (if_neg (mt State.credFits_guard.mp (not_not.mpr hf))).trans ?_
  rw [hs]

theorem credClear_of_beyond (hs : 8 ≤ slot) : credClear s slot = (s, plain .invalid, false) := if_pos hs

theorem credClear_of_last (hs : slot < 8) (hl : s.HoldsLastAdmin slot) : credClear s slot = (s, plain .denied, false) :=
  (if_neg (Nat.not_le.mpr hs)).trans (if_pos (State.lastAdmin_iff.mpr hl))

theorem credClear_of_other (hs : slot < 8) (hl : ¬ s.HoldsLastAdmin slot) : credClear s slot = (s.setCred slot none, plain .ok, true) :=
  (if_neg (Nat.not_le.mpr hs)).trans (if_neg (mt State.lastAdmin_iff.mp hl))

/-! ### The commands -/

variable {u : State} {r : Response}

theorem credSalt_leaves (hr : Ready s h 0x0060 2 x) (e : credSalt (s.entered h) (x.entered s h) slot = (u, r)) :
    Leaves (.credSalt h slot) s (u.answer h.sid h.seq r) := command1_leaves hr (fun s x => credSalt s x slot) rfl e

/-- What follows the response of a credential command: the sessions under its slot close where it changed the slot. -/
def afterCred (slot : Nat) (changed : Bool) : State → State := if changed then closeUnder slot else fun t => t

theorem credSet_leaves (hr : Ready s h 0x0060 2 x) {b : Bool}
    (e : credSet (s.entered h) (x.entered s h) slot id role iter kc = (u, r, b)) :
    Leaves (.credSet h slot id role iter kc) s (afterCred slot b (u.answer h.sid h.seq r)) := by
  refine commandThen_leaves (hr.recode rfl 0x0061) (fun s x => ((credSet s x slot id role iter kc).1,
    some (credSet s x slot id role iter kc).2.1, if (credSet s x slot id role iter kc).2.2 then closeUnder slot else fun t => t)) rfl ?_
  rw [e]
  rfl

theorem credClear_leaves (hr : Ready s h 0x0060 2 x) {b : Bool} (e : credClear (s.entered h) slot = (u, r, b)) :
    Leaves (.credClear h slot) s (afterCred slot b (u.answer h.sid h.seq r)) := by
  refine commandThen_leaves (hr.recode rfl 0x0062) (fun s _ => ((credClear s slot).1,
    some (credClear s slot).2.1, if (credClear s slot).2.2 then closeUnder slot else fun t => t)) rfl ?_
  rw [e]
  rfl

end

/-- Settles O54: each command by the slot, the credential's shape, the bound salt and the last ADMIN. -/
theorem credentials : Obligations.Credentials := by
  refine fun s h x hr slot => ⟨fun hs => ?noSalt, fun hs => ?salt, fun id role iter kc => ⟨fun hn => ?invalid, fun a hf hs =>
      ⟨fun hl hrole => ?lastAdmin, fun hok => ?set⟩⟩, fun hs => ?noClear, fun hs hl => ?lastClear, fun hs hl => ?clear⟩
  case noSalt => exact credSalt_leaves hr (credSalt_of_beyond hs)
  case salt => exact credSalt_leaves hr (credSalt_of_slot hs)
  case invalid => exact credSet_leaves hr (hn.elim credSet_of_unfit credSet_of_unsalted)
  case lastAdmin => exact credSet_leaves hr ((credSet_of_salted hf hs).trans (if_pos ⟨State.lastAdmin_iff.mpr hl, hrole⟩))
  case set =>
    refine credSet_leaves hr ((credSet_of_salted hf hs).trans (if_neg ?_))
    rintro ⟨hl, hrole⟩
    exact hok.elim (fun hn => hn (State.lastAdmin_iff.mp hl)) hrole
  case noClear => exact credClear_leaves hr (credClear_of_beyond hs)
  case lastClear => exact credClear_leaves hr (credClear_of_last hs hl)
  case clear => exact credClear_leaves hr (credClear_of_other hs hl)

end Sys2Proof.Machine
end

section
/-! SUPPORT. Signing keys, the lifecycle and restarts of the management core (18 R381, R382, R388, R399, R400; 01 R21; log 70). -/

namespace Sys2Proof.Machine

section
variable {s : State} {h : Hdr} {x : Session} {slot : Nat}

/-! ### KEY_FUSE and KEY_REVOKE (18 R388) -/

variable {hash : List Byte}

/-- A key slot may still be fused. -/
def State.KeyFree (s : State) (slot : Nat) : Prop := s.fuses.lifecycle < 2 ∧ nth s.fuses.keys slot none = none

theorem State.keyFree_guard : 2 ≤ s.fuses.lifecycle ∨ (nth s.fuses.keys slot none).isSome = true ↔ ¬ s.KeyFree slot := by
  rw [State.KeyFree, not_and_or, Nat.not_lt, Option.isSome_iff_ne_none]

theorem keyFuse_of_misshapen (hs : ¬ (slot < 3 ∧ hash.length = 32)) : keyFuse s slot hash = (s, plain .invalid) :=
  if_pos (by rwa [not_and_or, Nat.not_lt] at hs)

section
variable (hs : slot < 3 ∧ hash.length = 32)
include hs

theorem keyFuse_of_used (hf : ¬ s.KeyFree slot) : keyFuse s slot hash = (s, plain .denied) :=
  (if_neg (by simp [hs])).trans (if_pos (State.keyFree_guard.mpr hf))

theorem keyFuse_of_free (hf : s.KeyFree slot) :
    keyFuse s slot hash = ({ s with fuses := { s.fuses with keys := modAt s.fuses.keys slot fun _ => some hash } }, plain .ok) :=
  (if_neg (by simp [hs])).trans (if_neg (mt State.keyFree_guard.mp (not_not.mpr hf)))

end

variable {signer : Nat} {pub sig : List Byte}

/-- The slot holds a fused key that is not revoked. -/
def Fuses.Lives (f : Fuses) (slot : Nat) : Prop := (nth f.keys slot none).isSome = true ∧ nth f.revoked slot false = false

theorem Fuses.keyLives_iff (f : Fuses) : f.keyLives slot = true ↔ f.Lives slot := by
  simp only [Fuses.keyLives, Fuses.Lives, Bool.and_eq_true, Bool.not_eq_true']

/-- A revocation of the right shape, of a key that lives. -/
def State.RevokeShaped (s : State) (slot signer : Nat) (pub sig : List Byte) : Prop :=
  s.fuses.Lives slot ∧ signer < 3 ∧ pub.length = 65 ∧ sig.length = 64

/-- Another key lives. -/
def State.OtherLives (s : State) (slot : Nat) : Prop := ∃ i < 3, i ≠ slot ∧ s.fuses.Lives i

/-- The revocation is signed under another key that lives. -/
def State.RevokeSigned (s : State) (slot signer : Nat) (pub sig : List Byte) : Prop :=
  signer ≠ slot ∧ s.fuses.Lives signer ∧ nth s.fuses.keys signer none = some (sha256 pub) ∧
    ecdsaOk pub (sha256 (ascii "KT7-REVOKE" ++ leBytes 8 s.fact.serial ++ leBytes 1 slot)) sig = true

theorem State.revokeShaped_guard :
    (!s.fuses.keyLives slot) = true ∨ 3 ≤ signer ∨ pub.length ≠ 65 ∨ sig.length ≠ 64 ↔ ¬ s.RevokeShaped slot signer pub sig := by
  simp only [State.RevokeShaped, not_and_or, ← Fuses.keyLives_iff, Bool.not_eq_true', Bool.not_eq_true, Nat.not_lt, ne_eq]

theorem State.otherLives_guard :
    ((List.range 3).all fun i => i == slot || !s.fuses.keyLives i) = true ↔ ¬ s.OtherLives slot := by
  simp only [State.OtherLives, not_exists, not_and, ← Fuses.keyLives_iff, List.all_eq_true, List.mem_range, Bool.or_eq_true, beq_iff_eq,
    Bool.not_eq_true', ne_eq, Bool.not_eq_true, or_iff_not_imp_left]

theorem State.revokeSigned_guard :
    signer = slot ∨ (!s.fuses.keyLives signer) = true ∨ some (sha256 pub) ≠ nth s.fuses.keys signer none ∨
      (!ecdsaOk pub (sha256 (s.revokeText slot)) sig) = true ↔ ¬ s.RevokeSigned slot signer pub sig := by
  simp only [State.RevokeSigned, not_and_or, ← Fuses.keyLives_iff, Bool.not_eq_true', Bool.not_eq_true, ne_eq, not_not,
    eq_comm (a := some (sha256 pub)), State.revokeText]

theorem keyRevoke_of_misshapen (hs : ¬ s.RevokeShaped slot signer pub sig) : keyRevoke s slot signer pub sig = (s, plain .invalid) :=
  if_pos (State.revokeShaped_guard.mpr hs)

section
variable (hs : s.RevokeShaped slot signer pub sig)
include hs

theorem keyRevoke_of_last (ho : ¬ s.OtherLives slot) : keyRevoke s slot signer pub sig = (s, plain .denied) :=
  (if_neg (mt State.revokeShaped_guard.mp (not_not.mpr hs))).trans (if_pos (State.otherLives_guard.mpr ho))

variable (ho : s.OtherLives slot)
include ho

theorem keyRevoke_of_unsigned (hg : ¬ s.RevokeSigned slot signer pub sig) : keyRevoke s slot signer pub sig = (s, plain .invalid) :=
  (if_neg (mt State.revokeShaped_guard.mp (not_not.mpr hs))).trans
    ((if_neg (mt State.otherLives_guard.mp (not_not.mpr ho))).trans (if_pos (State.revokeSigned_guard.mpr hg)))

theorem keyRevoke_of_signed (hg : s.RevokeSigned slot signer pub sig) :
    keyRevoke s slot signer pub sig = if s.cfg.imgKey = slot then (s, plain .conflict)
      else ({ s with fuses := { s.fuses with revoked := modAt s.fuses.revoked slot fun _ => true } }, plain .ok) :=
  (if_neg (mt State.revokeShaped_guard.mp (not_not.mpr hs))).trans
    ((if_neg (mt State.otherLives_guard.mp (not_not.mpr ho))).trans (if_neg (mt State.revokeSigned_guard.mp (not_not.mpr hg))))

end

/-! ### LIFECYCLE (18 R381, R382) -/

variable {target confirm : Nat}

/-- No enabled stream of the active image is sent in the clear. -/
def State.NoPlainStream (s : State) : Prop := ∀ i, s.cfg.image = some i → ∀ y ∈ i.streams, y.en = 1 → y.auth ≠ 0

/-- The precondition of the transition holds. -/
def State.MayGoTo (s : State) (target : Nat) : Prop :=
  let now := s.sec.lifePend.getD s.fuses.lifecycle
  (target = 1 ∧ now = 0 ∧ s.flash.admins ≠ [] ∧ (∃ k ∈ s.fuses.keys, k.isSome = true) ∧ s.NoPlainStream) ∨
    (target = 2 ∧ now = 1 ∧ s.fuses.Lives s.cfg.imgKey) ∨ (target = 3 ∧ now ≠ 3)

/-- Every enabled stream of the active image is authenticated. -/
def State.streamsSealed (s : State) : Bool :=
  match s.cfg.image with
  | some c => c.streams.all fun x => x.en != 1 || x.auth != 0
  | none => true

theorem State.streamsSealed_iff : s.streamsSealed = true ↔ s.NoPlainStream := by
  unfold State.NoPlainStream State.streamsSealed
  cases s.cfg.image with
  | none => simp
  | some c =>
    simp only [List.all_eq_true, Bool.or_eq_true, bne_iff_ne, ne_eq, ← imp_iff_not_or, Option.some.injEq, forall_eq']

theorem State.lifecycleOk_provisioned : s.lifecycleOk 1 = true ↔
    s.sec.lifePend.getD s.fuses.lifecycle = 0 ∧ s.flash.admins ≠ [] ∧ (∃ k ∈ s.fuses.keys, k.isSome = true) ∧ s.NoPlainStream := by
  rw [← State.streamsSealed_iff, ← List.any_eq_true]
  change (_ && s.flash.admins != [] && s.fuses.keys.any Option.isSome && s.streamsSealed) = true ↔ _
  simp only [Bool.and_eq_true, beq_iff_eq, bne_iff_ne, ne_eq, and_assoc]

theorem State.lifecycleOk_iff : s.lifecycleOk target = true ↔ s.MayGoTo target := by
  unfold State.MayGoTo
  match target with
  | 0 => simp [State.lifecycleOk]
  | 1 => simp [State.lifecycleOk_provisioned]
  | 2 => simp [State.lifecycleOk, Fuses.keyLives_iff]
  | 3 => simp [State.lifecycleOk]
  | n + 4 => simp [State.lifecycleOk]

/-- The command names a state, and confirms it for this module. -/
def State.KnownTarget (s : State) (target confirm : Nat) : Prop :=
  target ≤ 3 ∧ confirm = (s.fact.serial % 2 ^ 32) ^^^ 0xA5A5A5A5

theorem lifecycleCmd_of_unknown (hk : ¬ s.KnownTarget target confirm) : lifecycleCmd s target confirm = (s, plain .invalid) :=
  if_pos (by rwa [State.KnownTarget, not_and_or, Nat.not_le] at hk)

theorem lifecycleCmd_of_known (hk : s.KnownTarget target confirm) :
    lifecycleCmd s target confirm =
      if s.lifecycleOk target = true then ({ s with sec := { s.sec with lifePend := some target } }, plain .ok) else (s, plain .denied) :=
  if_neg (not_or.mpr ⟨Nat.not_lt.mpr hk.1, not_not.mpr hk.2⟩)

/-- The fuses of a pending transition written. -/
def State.lifeFused (s : State) (target : Nat) : State :=
  State.modOpt { s with
    fuses := { s.fuses with lifecycle := target, debugLock := s.fuses.debugLock || target == 2 }
    sec := { s.sec with lifePend := none, int := s.sec.int.raise 6 } } id

theorem lifecycleWrite_of_none (hp : s.sec.lifePend = none) : lifecycleWrite s = s := by
  unfold lifecycleWrite
  rw [hp]

theorem lifecycleWrite_of_some (hp : s.sec.lifePend = some target) :
    lifecycleWrite s = mgmtRestart (stopCheck (if target = 3 then scrap (s.lifeFused target) else s.lifeFused target)) := by
  unfold lifecycleWrite
  rw [hp]
  rfl

theorem mgmtResume_of_running (hr : s.sec.restarting = false) : mgmtResume s = s := if_pos (by simp [hr])

theorem mgmtResume_of_restarting (hr : s.sec.restarting = true) :
    mgmtResume s = selectFirmware { s with sec := { s.sec with restarting := false }, cfg := { s.cfg with fell := false } } :=
  if_neg (by simp [hr])

/-! ### The commands -/

variable {u : State} {r : Response}

theorem keyFuse_leaves (hr : Ready s h 0x0063 2 x) (e : keyFuse (s.entered h) slot hash = (u, r)) :
    Leaves (.keyFuse h slot hash) s (u.answer h.sid h.seq r) := command1_leaves hr (fun s _ => keyFuse s slot hash) rfl e

theorem keyRevoke_leaves (hr : Ready s h 0x0063 2 x) (e : keyRevoke (s.entered h) slot signer pub sig = (u, r)) :
    Leaves (.keyRevoke h slot signer pub sig) s (u.answer h.sid h.seq r) :=
  command1_leaves (hr.recode rfl 0x0064) (fun s _ => keyRevoke s slot signer pub sig) rfl e

theorem lifecycle_leaves (hr : Ready s h 0x0063 2 x) (e : lifecycleCmd (s.entered h) target confirm = (u, r)) :
    Leaves (.lifecycle h target confirm) s (u.answer h.sid h.seq r) :=
  command1_leaves (hr.recode rfl 0x0065) (fun s _ => lifecycleCmd s target confirm) rfl e

end

/-- Settles O55: each command by its checks in their order, the fuse write and the restart's end by what is pending. -/
theorem keysAndLifecycle : Obligations.KeysAndLifecycle := by
  refine ⟨fun s h x hr => ⟨fun slot hash => ⟨fun hs => ?fuseShape, fun hs hf => ?used, fun hs hf => ?fused⟩,
      fun slot signer pub sig => ⟨fun hs => ?revokeShape, fun hs ho => ?last, fun hs ho hg => ?unsigned, fun hs ho hg hk => ?active,
        fun hs ho hg hk => ?revoked⟩,
      fun target confirm => ⟨fun hk => ?unknown, fun hk hm => ?forbidden, fun hk hm => ?pending⟩, ?restart⟩,
    fun s => ⟨fun hp => ?noWrite, fun t hp => ?written, fun hr => ?noResume, fun hr => ?resumed⟩⟩
  case fuseShape => exact keyFuse_leaves hr (keyFuse_of_misshapen hs)
  case used => exact keyFuse_leaves hr (keyFuse_of_used hs hf)
  case fused => exact keyFuse_leaves hr (keyFuse_of_free hs hf)
  case revokeShape => exact keyRevoke_leaves hr (keyRevoke_of_misshapen hs)
  case last => exact keyRevoke_leaves hr (keyRevoke_of_last hs ho)
  case unsigned => exact keyRevoke_leaves hr (keyRevoke_of_unsigned hs ho hg)
  case active => exact keyRevoke_leaves hr ((keyRevoke_of_signed hs ho hg).trans (if_pos hk))
  case revoked => exact keyRevoke_leaves hr ((keyRevoke_of_signed hs ho hg).trans (if_neg hk))
  case unknown => exact lifecycle_leaves hr (lifecycleCmd_of_unknown hk)
  case forbidden => exact lifecycle_leaves hr ((lifecycleCmd_of_known hk).trans (if_neg (mt State.lifecycleOk_iff.mp hm)))
  case pending => exact lifecycle_leaves hr ((lifecycleCmd_of_known hk).trans (if_pos (State.lifecycleOk_iff.mpr hm)))
  case restart => exact commandThen_leaves (hr.recode rfl 0x0070) (fun s _ => (s, some (plain .ok), mgmtRestart)) rfl rfl
  case noWrite => exact leaves_of_eq (lifecycleWrite_of_none hp) rfl
  case written => exact leaves_of_eq (lifecycleWrite_of_some hp) rfl
  case noResume => exact leaves_of_eq (mgmtResume_of_running hr) rfl
  case resumed => exact leaves_of_eq (mgmtResume_of_restarting hr) rfl

end Sys2Proof.Machine
end

section
/-! SUPPORT. Attestation, the certificate and the stream keys (18 R384, R385, R402, R403; log 70). -/

namespace Sys2Proof.Machine

section
variable {s : State} {h : Hdr} {x : Session}

/-! ### Attestation and the certificate (18 R384, R385) -/

variable {nonce : List Byte} {ofs count : Nat}

theorem attestCmd_of_misshapen (hn : nonce.length ≠ 32) : attestCmd s nonce = (s, plain .invalid) := if_pos hn

theorem attestCmd_of_nonce (hn : nonce.length = 32) :
    attestCmd s nonce =
      let d := drawBytes s 32
      let b := s.attestBody nonce
      (d.2, withData .ok (b ++ ecdsaSign s.fact.devKey (sha256 b) (1 + beNat d.1 % (p256N - 1)))) := if_neg (not_not.mpr hn)

theorem certRead_of_beyond (hb : 1024 < count ∨ 65536 ≤ ofs) : certRead s ofs count = (s, plain .invalid) := if_pos hb

theorem certRead_of_within (hc : count ≤ 1024) (ho : ofs < 65536) :
    certRead s ofs count = (s, withData .ok ((s.fact.cert.drop ofs).take count)) :=
  if_neg (not_or.mpr ⟨Nat.not_lt.mpr hc, Nat.not_le.mpr ho⟩)

/-! ### Stream keys (18 R402, R403; log 70) -/

variable {stream epoch : Nat}

theorem streamKeyCmd_of_known {k : List Byte} (hk : s.ksmOf epoch = some k) (hs : stream < 16) :
    streamKeyCmd s stream epoch = (s, withData .ok (streamKeyOf k s.fact.serial stream epoch)) := by
  unfold streamKeyCmd
  rw [hk]
  exact if_pos hs

theorem streamKeyCmd_of_unknown (hn : s.ksmOf epoch = none ∨ 16 ≤ stream) : streamKeyCmd s stream epoch = (s, plain .invalid) := by
  unfold streamKeyCmd
  cases hk : s.ksmOf epoch with
  | none => rfl
  | some k => exact if_neg (Nat.not_lt.mpr (hn.resolve_left (by simp [hk])))

theorem streamRekey_of_busy (hb : s.acquiring = false ∨ s.sec.rekeyPend = true) : streamRekey s = (s, plain .busy) :=
  if_pos (by rwa [Bool.not_eq_true'])

/-- The next key epoch is pending, with a new master secret where it is 0. -/
def State.rekeyed (s : State) : State :=
  let d := drawBytes s 32
  if (s.sec.kepoch + 1) % 256 = 0 then { d.2 with sec := { d.2.sec with ksmPend := some d.1, rekeyPend := true } }
  else { s with sec := { s.sec with rekeyPend := true } }

theorem State.rekeyed_eq (s : State) :
    (if (s.sec.kepoch + 1) % 256 = 0 then (drawBytes s 32).2.modSec fun c => { c with ksmPend := some (drawBytes s 32).1 } else s).modSec
      (fun c => { c with rekeyPend := true }) = s.rekeyed := by
  unfold State.rekeyed
  split <;> rfl

theorem streamRekey_of_acquiring (ha : s.acquiring = true) (hp : s.sec.rekeyPend = false) :
    streamRekey s =
      ((List.range 16).foldl (fun u n => if (u.strCfg n).en = 1 then u else moveEpoch u n) s.rekeyed,
        withData .deferred (leBytes 1 ((s.sec.kepoch + 1) % 256))) := by
  rw [← State.rekeyed_eq]
  exact if_neg (by simp [ha, hp])

/-! ### The commands -/

variable {u : State} {r : Response}

theorem attest_leaves (hr : Ready s h 0x0050 0 x) (e : attestCmd (s.entered h) nonce = (u, r)) :
    Leaves (.attest h nonce) s (u.answer h.sid h.seq r) := command1_leaves hr (fun s _ => attestCmd s nonce) rfl e

theorem certRead_leaves (hr : Ready s h 0x0050 0 x) (e : certRead (s.entered h) ofs count = (u, r)) :
    Leaves (.certRead h ofs count) s (u.answer h.sid h.seq r) :=
  have hcert : Ready s h 0x0051 0 x := { hr with life := .inr rfl }
  command1_leaves hcert (fun s _ => certRead s ofs count) rfl e

theorem streamKey_leaves (hr : Ready s h 0x0053 1 x) (e : streamKeyCmd (s.entered h) stream epoch = (u, r)) :
    Leaves (.streamKey h stream epoch) s (u.answer h.sid h.seq r) :=
  have hkey : Ready s h 0x0052 0 x := { hr.recode rfl 0x0052 with role := Nat.zero_le _ }
  command1_leaves hkey (fun s _ => streamKeyCmd s stream epoch) rfl e

theorem streamRekey_leaves (hr : Ready s h 0x0053 1 x) (e : streamRekey (s.entered h) = (u, r)) :
    Leaves (.streamRekey h) s (u.answer h.sid h.seq r) := command1_leaves hr (fun s _ => streamRekey s) rfl e

end

/-- Settles O56: each command by the shape of its request and the key epochs. -/
theorem attestAndStreamKeys : Obligations.AttestAndStreamKeys := by
  refine ⟨fun s h x hr => ⟨fun nonce => ⟨fun hn => ?misshapen, fun hn => ?report⟩, fun ofs count => ⟨fun hb => ?beyond, fun hc ho => ?bytes⟩⟩,
    fun s h x hr => ⟨fun stream epoch => ⟨fun k hk hs => ?key, fun hn => ?noKey⟩, fun hb => ?busy, fun ha hp => ?rekey⟩⟩
  case misshapen => exact attest_leaves hr (attestCmd_of_misshapen hn)
  case report => exact attest_leaves hr (attestCmd_of_nonce hn)
  case beyond => exact certRead_leaves hr (certRead_of_beyond hb)
  case bytes => exact certRead_leaves hr (certRead_of_within hc ho)
  case key => exact streamKey_leaves hr (streamKeyCmd_of_known hk hs)
  case noKey => exact streamKey_leaves hr (streamKeyCmd_of_unknown hn)
  case busy => exact streamRekey_leaves hr (streamRekey_of_busy hb)
  case rekey => exact streamRekey_leaves hr (streamRekey_of_acquiring ha hp)

end Sys2Proof.Machine
end

section
/-! SUPPORT. AMEND: the parts of a group and what becomes of it, and AMEND_STATUS (19 R420 to R423; 18 R401; 21 R461). -/

namespace Sys2Proof.Machine

section
variable {s u : State} {x : Session} {seq req type inst group : Nat} {more : Bool} {body : List Byte} {recs : List GroupRec}

/-! ### A complete group (19 R421 to R423; 21 R461) -/

/-- The group refused, with its answer. -/
def State.groupRefused (u : State) (req : Nat) (r : Result) (d : List Byte) : State × Option Response :=
  ((refuseAmend u req r d).1, some (refuseAmend u req r d).2)

/-- The amendment changes a value that the joined members of the cascade share. -/
def State.ChangesShared (u : State) (v : Conf) : Prop :=
  u.conf.cascade.role ≠ 0 ∧ fingerBytes v ≠ fingerBytes (u.pendConf true) ∧ u.cas.joined = true

/-- The group proposed to the members. -/
def State.proposed (u : State) (recs : List GroupRec) : State := recs.foldl (fun w g => w.sendRing (.amendProp g.type g.inst g.body)) u

theorem State.changesShared_iff {v : Conf} :
    ((u.conf.cascade.role != 0 && fingerBytes v != fingerBytes (u.pendConf true)) && u.cas.joined) = true ↔ u.ChangesShared v := by
  simp only [State.ChangesShared, Bool.and_eq_true, bne_iff_ne, and_assoc]

theorem submitGroup_of_golden (hg : u.cfg.activeSlot = 2) : submitGroup u x seq req recs = u.groupRefused req .denied [] := if_pos hg

section
variable (hg : u.cfg.activeSlot ≠ 2)
include hg

theorem submitGroup_of_unconfigured (hm : u.mode = 0) : submitGroup u x seq req recs = u.groupRefused req .busy [] :=
  (if_neg hg).trans (if_pos (by simp [State.isConfigured, hm]))

variable (hm : u.mode ≠ 0)
include hm

theorem submitGroup_of_refused {r : Result} {d : List Byte} (hv : amendVerdict u (recs.map GroupRec.raw) = .refuse r d) :
    submitGroup u x seq req recs = u.groupRefused req r d := by
  refine (if_neg hg).trans ((if_neg (by simp [State.isConfigured, hm])).trans ?_)
  rw [hv]
  rfl

variable {v : Conf} (hv : amendVerdict u (recs.map GroupRec.raw) = .valid v)
include hv

theorem submitGroup_of_shared (hs : u.ChangesShared v) :
    submitGroup u x seq req recs =
      if (!u.cas.master) = true then u.groupRefused req .conflict []
      else if u.cas.proposal.isSome = true then u.groupRefused req .busy []
      else
        let w := u.proposed recs
        if w.joinedRanks = [] then ((commitOwn w req recs).1, some (commitOwn w req recs).2)
        else ({ w with cas := { w.cas with proposal := some {
          req := req, tick := w.tim.tick, sid := x.sid, seq := seq, recs := recs, waiting := recs.flatMap fun _ => w.joinedRanks } } }, none) := by
  have hshared := State.changesShared_iff.mpr hs
  unfold submitGroup
  dsimp only
  rw [if_neg hg, if_neg (by simp [State.isConfigured, hm]), hv]
  dsimp only
  rw [hshared, Bool.true_and, if_pos rfl]
  rfl

theorem submitGroup_of_member (hs : u.ChangesShared v) (ha : u.cas.master = false) :
    submitGroup u x seq req recs = u.groupRefused req .conflict [] :=
  (submitGroup_of_shared hg hm hv hs).trans (if_pos (by simp [ha]))

section
variable (hs : u.ChangesShared v) (ha : u.cas.master = true)
include hs ha

theorem submitGroup_of_proposing (ho : u.cas.proposal ≠ none) : submitGroup u x seq req recs = u.groupRefused req .busy [] :=
  (submitGroup_of_shared hg hm hv hs).trans ((if_neg (by simp [ha])).trans (if_pos (Option.isSome_iff_ne_none.mpr ho)))

variable (ho : u.cas.proposal = none)
include ho

theorem submitGroup_of_alone (hj : (u.proposed recs).joinedRanks = []) :
    submitGroup u x seq req recs = ((commitOwn (u.proposed recs) req recs).1, some (commitOwn (u.proposed recs) req recs).2) :=
  (submitGroup_of_shared hg hm hv hs).trans ((if_neg (by simp [ha])).trans ((if_neg (by simp [ho])).trans (if_pos hj)))

theorem submitGroup_of_joined (hj : (u.proposed recs).joinedRanks ≠ []) :
    submitGroup u x seq req recs =
      let w := u.proposed recs
      ({ w with cas := { w.cas with proposal := some {
        req := req, tick := w.tim.tick, sid := x.sid, seq := seq, recs := recs, waiting := recs.flatMap fun _ => w.joinedRanks } } }, none) :=
  (submitGroup_of_shared hg hm hv hs).trans ((if_neg (by simp [ha])).trans ((if_neg (by simp [ho])).trans (if_neg hj)))

end

theorem submitGroup_of_own (hs : ¬ u.ChangesShared v) :
    submitGroup u x seq req recs =
      let a := acceptGroup u req v (recs.map GroupRec.raw)
      (rejoin a.1, some (withData (if a.2.1 then .deferred else .ok) (reqData req a.2.2))) := by
  have hown := Bool.eq_false_iff.mpr (mt State.changesShared_iff.mp hs)
  unfold submitGroup
  dsimp only
  rw [if_neg hg, if_neg (by simp [State.isConfigured, hm]), hv]
  dsimp only
  rw [hown, Bool.false_and]
  rfl

end

/-! ### The parts of a group (19 R420) -/

/-- A part of the group with request `req`, after the parts `parts` of it. -/
def amendStep (t : State) (x : Session) (seq type inst : Nat) (more : Bool) (body : List Byte) (req : Nat) (parts : List GroupRec) :
    State × Option Response :=
  if !fitsGroup parts type body then (t, some (plain .invalid))
  else if more then (t.modSession x.sid fun y => { y with group := some { req := req, parts := addPart parts type inst body } },
    some (withData .ok (reqData req 0)))
  else submitGroup (t.modSession x.sid fun y => { y with group := none }) x seq req (addPart parts type inst body)

/-- The part begins the group with request `req`, or goes on with the open one. -/
def Session.PartOf (x : Session) (e : State) (group : Nat) (body : List Byte) (req : Nat) (t : State) (parts : List GroupRec) : Prop :=
  (x.group = none ∧ group = 0 ∧ body.length ≤ 2 ^ 20 ∧ (req, t) = e.newReq ∧ parts = []) ∨
    ∃ g, x.group = some g ∧ group = g.req ∧ req = g.req ∧ t = e ∧ parts = g.parts

theorem amendPart_of_stray
    (hb : (x.group = none ∧ (group ≠ 0 ∨ 2 ^ 20 < body.length)) ∨ ∃ g, x.group = some g ∧ group ≠ g.req) :
    amendPart s x seq type inst more group body = (s, some (plain .invalid)) := by
  unfold amendPart
  dsimp only
  rcases hb with ⟨hn, hb⟩ | ⟨g, hg, hb⟩
  · rw [hn]
    exact if_pos hb
  · rw [hg]
    exact if_neg hb

theorem amendPart_of_part {t : State} {parts : List GroupRec} (hp : x.PartOf s group body req t parts) :
    amendPart s x seq type inst more group body = amendStep t x seq type inst more body req parts := by
  unfold amendPart
  dsimp only
  rcases hp with ⟨hn, hz, hlen, hreq, rfl⟩ | ⟨g, hg, rfl, rfl, rfl, rfl⟩
  · rw [hn]
    refine (if_neg (not_or.mpr ⟨not_not.mpr hz, Nat.not_lt.mpr hlen⟩)).trans ?_
    rw [← hreq]
    rfl
  · rw [hg]
    exact if_pos rfl

variable {t : State} {parts : List GroupRec}

theorem amendStep_of_unfit (hf : fitsGroup parts type body = false) :
    amendStep t x seq type inst more body req parts = (t, some (plain .invalid)) := if_pos (by simp [hf])

theorem amendStep_of_more (hf : fitsGroup parts type body = true) :
    amendStep t x seq type inst true body req parts =
      (t.modSession x.sid fun y => { y with group := some { req := req, parts := addPart parts type inst body } },
        some (withData .ok (reqData req 0))) := if_neg (by simp [hf])

theorem amendStep_of_last (hf : fitsGroup parts type body = true) :
    amendStep t x seq type inst false body req parts =
      submitGroup (t.modSession x.sid fun y => { y with group := none }) x seq req (addPart parts type inst body) := if_neg (by simp [hf])

theorem amendPart_of_last (hp : x.PartOf s group body req t parts) (hf : fitsGroup parts type body = true) :
    amendPart s x seq type inst false group body =
      submitGroup (t.modSession x.sid fun y => { y with group := none }) x seq req (addPart parts type inst body) :=
  (amendPart_of_part hp).trans (amendStep_of_last hf)

/-! ### The commands -/

variable {h : Hdr} {r : Response}

theorem amend_leaves (hr : Ready s h 0x0003 1 x)
    (e : amendPart (s.entered h) (x.entered s h) h.seq type inst more group body = (u, some r)) :
    Leaves (.amend h type inst more group body) s (u.answer h.sid h.seq r) := by
  refine commandThen_leaves (g := id) hr (fun s x => ((amendPart s x h.seq type inst more group body).1,
    (amendPart s x h.seq type inst more group body).2, id)) rfl ?_
  rw [e]

theorem amend_leaves_unanswered (hr : Ready s h 0x0003 1 x)
    (e : amendPart (s.entered h) (x.entered s h) h.seq type inst more group body = (u, none)) :
    Leaves (.amend h type inst more group body) s u := by
  have hx : exec (.amend h type inst more group body) s = s.done (s.commandThen h 0x0003 1 fun s x =>
    ((amendPart s x h.seq type inst more group body).1, (amendPart s x h.seq type inst more group body).2, id)) := rfl
  rw [commandThen_ready hr, e] at hx
  exact leaves_of_done hx

theorem amendStatus_leaves {id : Nat} (hr : Ready s h 0x0004 0 x) {l : List Byte} (e : reqStatus (s.entered h) id = l) :
    Leaves (.amendStatus h id) s ((s.entered h).answer h.sid h.seq (withData .ok l)) :=
  command1_leaves hr (fun s _ => (s, withData .ok (reqStatus s id))) rfl (by rw [e])

theorem reqStatus_of_known {id : Nat} {q : ReqStat} (hq : (s.sec.reqs.find? fun q => q.id == id) = some q) :
    reqStatus s id = leBytes 1 q.state.code ++ leBytes 8 q.index := by
  unfold reqStatus
  rw [hq]

theorem reqStatus_of_unknown {id : Nat} (hq : (s.sec.reqs.find? fun q => q.id == id) = none) :
    reqStatus s id = leBytes 1 4 ++ leBytes 8 0 := by
  unfold reqStatus
  rw [hq]

end

/-- Settles O57: a part by the open group, a complete group by its verdict and by what the cascade shares. -/
theorem amendCommand : Obligations.AmendCommand := by
  refine ⟨fun s h x hr type inst more group body => ⟨fun hb => ?stray, fun req t parts hp => ⟨fun hf => ?unfit, fun hf hm => ?more,
      fun hf hm => ⟨fun hg => ?golden, fun hg hc => ?unconfigured, fun hg hc => ⟨fun r d hv => ?refused, fun v hv =>
        ⟨fun hs ha => ?member, fun hs ha ho => ?proposing, fun hs ha ho hj => ?alone, fun hs ha ho hj => ?proposed, fun hs => ?own⟩⟩⟩⟩⟩,
    fun s h x hr id => ⟨fun q hq => ?known, fun hq => ?unknown⟩⟩
  case stray => exact amend_leaves hr (amendPart_of_stray hb)
  case unfit => exact amend_leaves hr ((amendPart_of_part hp).trans (amendStep_of_unfit hf))
  case more =>
    subst hm
    exact amend_leaves hr ((amendPart_of_part hp).trans (amendStep_of_more hf))
  case golden =>
    subst hm
    exact amend_leaves hr ((amendPart_of_last hp hf).trans (submitGroup_of_golden hg))
  case unconfigured =>
    subst hm
    exact amend_leaves hr ((amendPart_of_last hp hf).trans (submitGroup_of_unconfigured hg hc))
  case refused =>
    subst hm
    exact amend_leaves hr ((amendPart_of_last hp hf).trans (submitGroup_of_refused hg hc hv))
  case member =>
    subst hm
    exact amend_leaves hr ((amendPart_of_last hp hf).trans (submitGroup_of_member hg hc hv hs ha))
  case proposing =>
    subst hm
    exact amend_leaves hr ((amendPart_of_last hp hf).trans (submitGroup_of_proposing hg hc hv hs ha ho))
  case alone =>
    subst hm
    exact amend_leaves hr ((amendPart_of_last hp hf).trans (submitGroup_of_alone hg hc hv hs ha ho hj))
  case proposed =>
    subst hm
    exact amend_leaves_unanswered hr ((amendPart_of_last hp hf).trans (submitGroup_of_joined hg hc hv hs ha ho hj))
  case own =>
    subst hm
    exact amend_leaves hr ((amendPart_of_last hp hf).trans (submitGroup_of_own hg hc hv hs))
  case known => exact amendStatus_leaves hr (reqStatus_of_known hq)
  case unknown => exact amendStatus_leaves hr (reqStatus_of_unknown hq)

end Sys2Proof.Machine
end

section
/-! SUPPORT. ACTIVATE: what it writes, and what follows its response (19 R417, R419; 18 R386; 21 R475; log 69). -/

namespace Sys2Proof.Machine

section
variable {s : State} {mode slot : Nat}

theorem activateCmd_of_unchecked (h : 2 < mode ∨ s.cfg.stage ≠ .checked) : activateCmd s mode = (s, plain .invalid, .nothing) := if_pos h

section
variable (hm : mode ≤ 2) (hc : s.cfg.stage = .checked)
include hm hc

theorem activateCmd_of_image (hn : s.cfg.stageTarget < 2) : activateCmd s mode = activateImage s mode s.cfg.stageTarget :=
  (if_neg (by simp [hm, hc])).trans (if_pos hn)

theorem activateCmd_of_firmware (hn : 2 ≤ s.cfg.stageTarget) :
    activateCmd s mode = activateFirmware s mode (s.cfg.stageTarget - 2) :=
  (if_neg (by simp [hm, hc])).trans (if_neg (Nat.not_lt.mpr hn))

end

/-! ### An image (19 R419; 21 R475) -/

theorem activateImage_of_invalid {e : Rej} (hv : validate s.vctx (s.flash.img slot) = .error e) :
    activateImage s mode slot = (s, plain .invalid, .nothing) := by
  unfold activateImage
  rw [hv]

/-- The image has the fingerprint of the pair. -/
def State.SamePair (s : State) (c : Conf) : Prop :=
  s.isPair = true ∧ c.cascade.role = 3 ∧ fingerprint c = fingerprint s.conf

theorem State.samePair_iff {c : Conf} :
    (s.isPair && c.cascade.role == 3 && fingerprint c == fingerprint s.conf) = true ↔ s.SamePair c := by
  simp only [State.SamePair, Bool.and_eq_true, beq_iff_eq, and_assoc]

section
variable {v : ImgOk} (hv : validate s.vctx (s.flash.img slot) = .ok v)
include hv

theorem activateImage_of_reset : activateImage s 0 slot = (dropPending (writeBoot s slot v.head.recs), plain .ok, .resetC) := by
  unfold activateImage
  rw [hv]
  rfl

theorem activateImage_of_next :
    activateImage s 1 slot = ((writeBoot s slot v.head.recs).modCfg fun c => { c with actNext := true }, plain .ok, .nothing) := by
  unfold activateImage
  rw [hv]
  rfl

theorem activateImage_of_otherPair (hs : ¬ s.SamePair v.conf) : activateImage s 2 slot = (s, plain .conflict, .nothing) := by
  unfold activateImage
  rw [hv]
  exact if_pos (by rw [Bool.not_eq_true', Bool.eq_false_iff]; exact mt State.samePair_iff.mp hs)

variable (hs : s.SamePair v.conf)
include hs

theorem activateImage_of_pair :
    activateImage s 2 slot =
      if s.cas.pairRole = 1 then
        match switchAway s 0 with
        | .error e => (s, plain e, .nothing)
        | .ok t => ((dropPending (writeBoot t slot v.head.recs)).modCfg fun c => { c with actSwitch := true }, plain .ok, .nothing)
      else (dropPending (writeBoot s slot v.head.recs), plain .ok, .resetC) := by
  unfold activateImage
  rw [hv]
  refine (if_neg ?_).trans rfl
  rw [State.samePair_iff.mpr hs]
  decide

theorem activateImage_of_standby (hr : s.cas.pairRole ≠ 1) :
    activateImage s 2 slot = (dropPending (writeBoot s slot v.head.recs), plain .ok, .resetC) :=
  (activateImage_of_pair hv hs).trans (if_neg hr)

variable (hr : s.cas.pairRole = 1)
include hr

theorem activateImage_of_kept {e : Result} (hw : switchAway s 0 = .error e) : activateImage s 2 slot = (s, plain e, .nothing) := by
  rw [activateImage_of_pair hv hs, if_pos hr, hw]

theorem activateImage_of_switch {t : State} (hw : switchAway s 0 = .ok t) :
    activateImage s 2 slot =
      ((dropPending (writeBoot t slot v.head.recs)).modCfg fun c => { c with actSwitch := true }, plain .ok, .nothing) := by
  rw [activateImage_of_pair hv hs, if_pos hr, hw]

end

/-! ### A firmware (18 R386; 19 R419) -/

theorem activateFirmware_of_switch (hm : mode = 2) : activateFirmware s mode slot = (s, plain .conflict, .nothing) := if_pos hm

theorem activateFirmware_of_restart (hm : mode ≠ 2) :
    activateFirmware s mode slot =
      let t := s.modOpt fun b => { b with fw := { slot := slot, trial := true, tries := 0 } }
      ({ t with
        cfg := { t.cfg with stage := .none, staged := [] }
        fuses := { t.fuses with svnMin := max t.fuses.svnMin (Config.fwSvn (s.flash.fw slot)) } }, plain .ok, .restart) := if_neg hm

theorem activate_leaves {h : Hdr} {x : Session} (hr : Ready s h 0x0043 2 x) {u : State} {r : Response} {a : Activation}
    (e : activateCmd (s.entered h) mode = (u, r, a)) :
    Leaves (.activate h mode) s (followUp (u.answer h.sid h.seq r) a) := by
  refine commandThen_leaves (g := fun t => followUp t a) hr (fun s _ => ((activateCmd s mode).1, some (activateCmd s mode).2.1,
    fun t => followUp t (activateCmd s mode).2.2)) rfl ?_
  rw [e]

end

/-- Settles O58: an image or a firmware, by the mode; in mode 2 by the pair and its role. -/
theorem activation : Obligations.Activation := by
  refine fun s h x hr mode => ⟨fun hb => ?unchecked, fun hm hc => ⟨fun hn => ⟨fun err hv => ?invalid, fun v hv =>
      ⟨fun hz => ?reset, fun hz => ?next, fun hz hs => ?otherPair, fun hz hs hp => ?standby, fun hz hs hp =>
        ⟨fun r hw => ?kept, fun t hw => ?switch⟩⟩⟩, fun hn hz => ?noSwitch, fun hn hz => ?restart⟩⟩
  case unchecked => exact activate_leaves hr (activateCmd_of_unchecked hb)
  case invalid => exact activate_leaves hr ((activateCmd_of_image hm hc hn).trans (activateImage_of_invalid hv))
  case reset =>
    subst hz
    exact activate_leaves hr ((activateCmd_of_image hm hc hn).trans (activateImage_of_reset hv))
  case next =>
    subst hz
    exact activate_leaves hr ((activateCmd_of_image hm hc hn).trans (activateImage_of_next hv))
  case otherPair =>
    subst hz
    exact activate_leaves hr ((activateCmd_of_image hm hc hn).trans (activateImage_of_otherPair hv hs))
  case standby =>
    subst hz
    exact activate_leaves hr ((activateCmd_of_image hm hc hn).trans (activateImage_of_standby hv hs hp))
  case kept =>
    subst hz
    exact activate_leaves hr ((activateCmd_of_image hm hc hn).trans (activateImage_of_kept hv hs hp hw))
  case switch =>
    subst hz
    exact activate_leaves hr ((activateCmd_of_image hm hc hn).trans (activateImage_of_switch hv hs hp hw))
  case noSwitch => exact activate_leaves hr ((activateCmd_of_firmware hm hc hn).trans (activateFirmware_of_switch hz))
  case restart => exact activate_leaves hr ((activateCmd_of_firmware hm hc hn).trans (activateFirmware_of_restart hz))

end Sys2Proof.Machine
end

section
/-! SUPPORT. The supply monitors and the wake sources (20 R425, R426, R431, R447). -/

namespace Sys2Proof.Machine

section
variable {s : State} {mv : Nat}

/-! ### The feeds and VWARN (20 R425, R426) -/

theorem feedLost_of_a (h : s.pwr.feedAOk = true) :
    feedLost s 0 mv =
      ((({ s with pwr := { s.pwr with feedAOk := false, feedALosses := satAdd 16 s.pwr.feedALosses 1, int := s.pwr.int.raise 2 } } :
        State).pulse).logAny 0x0102 2 0 (leBytes 2 mv)) := if_neg (by simp [h])

theorem feedLost_of_b (h : s.pwr.feedBOk = true) :
    feedLost s 1 mv =
      ((({ s with pwr := { s.pwr with feedBOk := false, feedBLosses := satAdd 16 s.pwr.feedBLosses 1, int := s.pwr.int.raise 2 } } :
        State).pulse).logAny 0x0102 2 1 (leBytes 2 mv)) := if_neg (by simp [h])

theorem feedLost_of_lostA (h : s.pwr.feedAOk = false) : feedLost s 0 mv = s := if_pos (by simp [h])

theorem feedLost_of_lostB (h : s.pwr.feedBOk = false) : feedLost s 1 mv = s := if_pos (by simp [h])

theorem feedLost_of_beyond {f : Nat} (hf : 2 ≤ f) : feedLost s f mv = s := if_pos (.inl hf)

theorem feedRestored_of_a (h : s.pwr.feedAOk = false) :
    feedRestored s 0 = { s with pwr := { s.pwr with feedAOk := true, int := s.pwr.int.raiseIf s.pwr.configured 3 } } := if_neg (by simp [h])

theorem feedRestored_of_b (h : s.pwr.feedBOk = false) :
    feedRestored s 1 = { s with pwr := { s.pwr with feedBOk := true, int := s.pwr.int.raiseIf s.pwr.configured 3 } } := if_neg (by simp [h])

theorem feedRestored_of_okA (h : s.pwr.feedAOk = true) : feedRestored s 0 = s := if_pos (by simp [h])

theorem feedRestored_of_okB (h : s.pwr.feedBOk = true) : feedRestored s 1 = s := if_pos (by simp [h])

theorem feedRestored_of_beyond {f : Nat} (hf : 2 ≤ f) : feedRestored s f = s := if_pos (.inl hf)

theorem vwarnAssert_of_clear (h : s.pwr.vwarnMon = false) :
    vwarnAssert s mv =
      (({ s with pwr := { s.pwr with vwarnMon := true, warn := true, warns := satAdd 16 s.pwr.warns 1, int := s.pwr.int.raise 0 } } :
        State).logAny 0x0103 0 0 (leBytes 2 mv)) := if_neg (by simp [h])

theorem vwarnAssert_of_set (h : s.pwr.vwarnMon = true) : vwarnAssert s mv = s := if_pos h

theorem vwarnRelease_of_set (h : s.pwr.vwarnMon = true) :
    vwarnRelease s =
      let t := if s.pwr.warn then s.holdFlags else s
      { t with pwr := { t.pwr with vwarnMon := false, warn := false, int := t.pwr.int.raiseIf t.pwr.configured 1 } } :=
  if_neg (by simp [h])

theorem vwarnRelease_of_clear (h : s.pwr.vwarnMon = false) : vwarnRelease s = s := if_pos (by simp [h])

/-! ### Wake sources (20 R431, R447) -/

variable {both rising : Bool}

/-- PWR_WAKE_CAUSE of an edge on WAKE_IN, with the timer in the same crystal period or not. -/
theorem wakeBits_of_pin (b : Bool) : wakeBits b true = if b = true then 3#3 else 2#3 := by cases b <;> rfl

/-- PWR_WAKE_CAUSE of the wake timer, with an edge in the same crystal period or not. -/
theorem wakeBits_of_timer (b : Bool) : wakeBits true b = if b = true then 3#3 else 1#3 := by cases b <;> rfl

theorem wakeEdge_of_standby (hp : s.pwr.phase = .standby) (hw : s.pinWakes = true) :
    wakeEdge s (!bit s.cfg.wakePolicy 2) both = wakeUp s (if (both && s.timerWakes) = true then 3#3 else 2#3) := by
  rw [← wakeBits_of_pin]
  exact if_neg (by simp [hp, hw])

theorem wakeEdge_of_otherPolarity : wakeEdge s (bit s.cfg.wakePolicy 2) both = s := if_pos (.inr (.inr rfl))

theorem wakeEdge_of_asleep (h : s.pwr.phase ≠ .standby ∨ s.pinWakes = false) : wakeEdge s rising both = s :=
  if_pos (h.imp_right fun h => .inl (by simp [h]))

theorem wakeTimer_of_standby (hp : s.pwr.phase = .standby) :
    wakeTimer s both = if s.timerWakes = true then wakeUp s (if (both && s.pinWakes) = true then 3#3 else 1#3) else s := by
  rw [← wakeBits_of_timer]
  unfold wakeTimer
  rw [hp]

theorem wakeTimer_of_sleep (hp : s.pwr.phase = .sleep) :
    wakeTimer s both =
      if s.pwr.survey = true ∧ s.pwr.wakeTimer.isSome = true ∧ s.pwr.standbyWait = none then startAcq s else s := by
  unfold wakeTimer
  rw [hp]

theorem wakeTimer_of_other (hp : s.pwr.phase ≠ .standby) (hs : s.pwr.phase ≠ .sleep) : wakeTimer s both = s := by
  unfold wakeTimer
  split
  · rename_i h
    exact absurd h hp
  · rename_i h
    exact absurd h hs
  · rfl

theorem wakeInEdge_leaves {t : State} (h : wakeEdge s rising both = t) : Leaves (.wakeInEdge rising both) s t := leaves_of_eq h rfl

theorem wakeTimerExpiry_leaves {t : State} (h : wakeTimer s both = t) : Leaves (.wakeTimerExpiry both) s t := leaves_of_eq h rfl

end

/-- Settles O13: each monitor by what it has reported already, each wake source by the mode and whether WAKE_POLICY enables it. -/
theorem suppliesAndWake : Obligations.SuppliesAndWake := by
  refine ⟨fun s mv => ⟨fun h => ?lostA, fun h => ?lostB, fun h => ?staysA, fun h => ?staysB, fun f hf => ⟨?noFeed, ?noRestore⟩,
      fun h => ?backA, fun h => ?backB, fun h => ?okA, fun h => ?okB, fun h => ?warns, fun h => ?warned, fun h => ?clears, fun h => ?clear⟩,
    fun s both => ⟨fun hp hw => ?edge, ?otherPolarity, fun rising h => ?noEdge, fun hp ht => ?timer, fun hp ht => ?noTimer,
      fun hp hs ht hw => ?survey, fun hp h => ?noSurvey, fun hp hs => ?awake⟩⟩
  case lostA => exact leaves_of_eq (feedLost_of_a h) rfl
  case lostB => exact leaves_of_eq (feedLost_of_b h) rfl
  case staysA => exact leaves_of_eq (feedLost_of_lostA h) rfl
  case staysB => exact leaves_of_eq (feedLost_of_lostB h) rfl
  case noFeed => exact leaves_of_eq (feedLost_of_beyond hf) rfl
  case noRestore => exact leaves_of_eq (feedRestored_of_beyond hf) rfl
  case backA => exact leaves_of_eq (feedRestored_of_a h) rfl
  case backB => exact leaves_of_eq (feedRestored_of_b h) rfl
  case okA => exact leaves_of_eq (feedRestored_of_okA h) rfl
  case okB => exact leaves_of_eq (feedRestored_of_okB h) rfl
  case warns => exact leaves_of_eq (vwarnAssert_of_clear h) rfl
  case warned => exact leaves_of_eq (vwarnAssert_of_set h) rfl
  case clears => exact leaves_of_eq (vwarnRelease_of_set h) rfl
  case clear => exact leaves_of_eq (vwarnRelease_of_clear h) rfl
  case edge => exact wakeInEdge_leaves (wakeEdge_of_standby hp hw)
  case otherPolarity => exact wakeInEdge_leaves wakeEdge_of_otherPolarity
  case noEdge => exact wakeInEdge_leaves (wakeEdge_of_asleep h)
  case timer => exact wakeTimerExpiry_leaves ((wakeTimer_of_standby hp).trans (if_pos ht))
  case noTimer => exact wakeTimerExpiry_leaves ((wakeTimer_of_standby hp).trans (if_neg (Bool.eq_false_iff.mp ht)))
  case survey => exact wakeTimerExpiry_leaves ((wakeTimer_of_sleep hp).trans (if_pos ⟨hs, ht, hw⟩))
  case noSurvey =>
    refine wakeTimerExpiry_leaves ((wakeTimer_of_sleep hp).trans (if_neg ?_))
    rintro ⟨hs, ht, hw⟩
    simp [hs, hw, Option.isSome_iff_ne_none.mp ht] at h
  case awake => exact wakeTimerExpiry_leaves (wakeTimer_of_other hp hs)

end Sys2Proof.Machine
end

section
/-! SUPPORT. The reset sources and the main power-on (20 R425, R427, R431 to R435). -/

namespace Sys2Proof.Machine

section
variable {s : State} {bus a b : Nat}

/-- The state after the power-loss entry and record of VRST (20 R427). -/
def State.powerLost (s : State) (bus a b : Nat) : State :=
  let t := s.logAos 0x0101 3 0 (leBytes 2 bus ++ leBytes 2 a ++ leBytes 2 b)
  { t with
    aos := { t.aos with lossBoot := s.pwr.bootCount, lossRtc := t.rtcSec, lossCause := 2 }
    pwr := { s.pwr with vrst := true, causeVrst := true } }

/-- WAKE_POLICY as the option bytes give it. -/
def State.bootPolicy (s : State) : Nat := if s.flash.opt.good then s.flash.opt.wakePolicy else ({} : OptBytes).wakePolicy

theorem State.bootPolicy_eq (s : State) : s.bootPolicy = s.flash.options.wakePolicy := by
  unfold State.bootPolicy Flash.options
  exact (apply_ite OptBytes.wakePolicy _ _ _).symm

/-! ### The resets by their step (20 R432, R433) -/

theorem reachB_of_standby (h : s.pwr.phase = .standby) : reachB s = s := by
  unfold reachB
  rw [h]

theorem reachB_of_started (h : s.pwr.phase ≠ .standby) :
    reachB s = mainReset { s with pwr := { s.pwr with woken := false } } .rails false false := by
  unfold reachB
  split
  · rename_i e
    exact absurd e h
  · rfl

theorem reachC_of_rails (h : s.pwr.phase = .rails) : reachC s = s := by
  unfold reachC
  rw [h]

theorem reachC_of_powered (h : s.pwr.phase ≠ .rails) :
    reachC s = mainReset { s with pwr := { s.pwr with woken := false } } .pll true true := by
  unfold reachC
  split
  · rename_i e
    exact absurd e h
  · rfl

/-! ### RST_N (20 R434) -/

/-- The state once RST_N has been seen low (20 R435). -/
def State.rstNoted (s : State) : State := { s with pwr := { s.pwr with rstHeld := true, causeRst := true } }

theorem rstLow_of_standby (h : s.pwr.phase = .standby) : rstLow s = s.rstNoted := by
  unfold rstLow
  change (match s.pwr.phase with | .standby => _ | _ => _) = _
  rw [h]
  rfl

theorem rstLow_of_started (h : s.pwr.phase ≠ .standby) : rstLow s = reachC s.rstNoted := by
  unfold rstLow
  dsimp only
  split
  · rename_i e
    exact absurd e h
  · rfl

theorem rstLow_of_off (h : s.pwr.phase = .standby ∨ s.pwr.phase = .rails) : rstLow s = s.rstNoted := by
  rcases h with h | h
  · exact rstLow_of_standby h
  · exact (rstLow_of_started (by rw [h]; decide)).trans (reachC_of_rails (s := s.rstNoted) h)

theorem rstLow_of_running (hs : s.pwr.phase ≠ .standby) (hr : s.pwr.phase ≠ .rails) :
    rstLow s = mainReset { s with pwr := { s.pwr with rstHeld := true, causeRst := true, woken := false } } .pll true true :=
  (rstLow_of_started hs).trans (reachC_of_powered (s := s.rstNoted) hr)

/-! ### VRST (20 R425, R427) -/

theorem vrstAssert_of_high (h : s.pwr.vrst = false) : vrstAssert s bus a b = reachB (s.powerLost bus a b) := if_neg (by simp [h])

theorem vrstAssert_of_low (h : s.pwr.vrst = true) : vrstAssert s bus a b = s := if_pos h

theorem vrstRelease_of_plain (hb : s.pwr.busSeen = true) (h : ¬ (s.pwr.phase = .standby ∧ s.pwr.wakeKept = true)) :
    vrstRelease s = { s with pwr := { s.pwr with vrst := false } } := (if_neg (by simp [hb])).trans (if_neg h)

theorem vrstRelease_of_kept (hb : s.pwr.busSeen = true) (hp : s.pwr.phase = .standby) (hw : s.pwr.wakeKept = true) :
    vrstRelease s = { s with pwr := { s.pwr with
      vrst := false, phase := .rails, wakeKept := false, causeWake := true, woken := true, wakeTimer := none } } :=
  (if_neg (by simp [hb])).trans (if_pos ⟨hp, hw⟩)

theorem vrstRelease_of_unseen (hb : s.pwr.busSeen = false) : vrstRelease s = mainPowerOn s := if_pos (by simp [hb])

/-! ### The main power-on (20 R431, R432) -/

theorem mainPowerOn_of_starting (hb : s.pwr.busSeen = false) (hv : s.pwr.vao = false) (hp : s.pwr.phase = .rails)
    (hw : bit s.bootPolicy 3 = false) :
    mainPowerOn s = { s with pwr := { s.pwr with busSeen := true, vrst := false, causeMain := true, wakeCause := 4#3 } } := by
  rw [State.bootPolicy_eq] at hw
  exact (if_neg (by simp [hb, hv, hp])).trans (if_neg (Bool.eq_false_iff.mp hw))

theorem mainPowerOn_of_held (hb : s.pwr.busSeen = false) (hv : s.pwr.vao = false) (hp : s.pwr.phase = .rails)
    (hw : bit s.bootPolicy 3 = true) :
    mainPowerOn s = { s with
      pwr := { s.pwr with busSeen := true, vrst := false, causeMain := true, phase := .standby, wakeTimer := none }
      cfg := { s.cfg with wakePolicy := s.bootPolicy } } := by
  rw [State.bootPolicy_eq] at hw ⊢
  exact (if_neg (by simp [hb, hv, hp])).trans (if_pos hw)

theorem mainPowerOn_of_barred (h : s.pwr.vao = true ∨ s.pwr.phase ≠ .rails) : mainPowerOn s = s := if_pos (.inr h)

theorem mainPowerOn_of_seen (h : s.pwr.busSeen = true) : mainPowerOn s = s := if_pos (.inl h)

/-- While the bus has not been seen, its first valid level is the main power-on, whether MAIN_POWER_ON or VRST_RELEASE reports it. -/
theorem powerOn_leaves {t : State} (hb : s.pwr.busSeen = false) {c : Instr} (hc : c = .mainPowerOn ∨ c = .vrstRelease)
    (h : mainPowerOn s = t) : Leaves c s t := by
  rcases hc with rfl | rfl
  · exact leaves_of_eq h rfl
  · exact leaves_of_eq ((vrstRelease_of_unseen hb).trans h) rfl

end

/-- Settles O14: each source by the step it finds the module in, the main power-on by VAO and HOLD_ON_POWER. -/
theorem resetSources : Obligations.ResetSources := by
  intro s
  refine ⟨?vaoLow, ?vaoHigh, fun h => ?rstOff, fun hs hr => ?rstRunning, ?rstHigh, fun bus a b h => ⟨fun hp => ?vrstStandby,
      fun hp => ?vrstRunning⟩, fun bus a b h => ?vrstAgain, fun hb h => ?vrstEnds, fun hb hp hw => ?vrstWakes,
    fun c hc hb => ⟨fun hv hp hw => ?starts, fun hv hp hw => ?held, fun h => ?barred⟩, fun h => ?seen⟩
  case vaoLow => exact leaves_of_eq (show vaoAssert s = _ from rfl) rfl
  case vaoHigh => exact leaves_of_eq (show vaoRelease s = _ from rfl) rfl
  case rstOff => exact leaves_of_eq (rstLow_of_off h) rfl
  case rstRunning => exact leaves_of_eq (rstLow_of_running hs hr) rfl
  case rstHigh => exact leaves_of_eq (show rstRelease s = _ from rfl) rfl
  case vrstStandby => exact leaves_of_eq ((vrstAssert_of_high h).trans (reachB_of_standby hp)) rfl
  case vrstRunning => exact leaves_of_eq ((vrstAssert_of_high h).trans (reachB_of_started hp)) rfl
  case vrstAgain => exact leaves_of_eq (vrstAssert_of_low h) rfl
  case vrstEnds => exact leaves_of_eq (vrstRelease_of_plain hb h) rfl
  case vrstWakes => exact leaves_of_eq (vrstRelease_of_kept hb hp hw) rfl
  case starts => exact powerOn_leaves hb hc (mainPowerOn_of_starting hb hv hp hw)
  case held => exact powerOn_leaves hb hc (mainPowerOn_of_held hb hv hp hw)
  case barred => exact powerOn_leaves hb hc (mainPowerOn_of_barred h)
  case seen => exact leaves_of_eq (mainPowerOn_of_seen h) rfl

end Sys2Proof.Machine
end

section
/-! SUPPORT. STANDBY's entry, the ends of a survey acquisition and of its drain, and the mode commands (20 R428 to R430, R447). -/

namespace Sys2Proof.Machine

section
variable {s : State} {w : Nat}

/-! ### The instants the model moves to (01 R17) -/

theorem State.advance_eq (s : State) (t : Nat) : s.advance t = { s with tim := { s.tim with
    tick := max s.tim.tick (if s.tim.fromSample then t else (t + 15) / 16 * 16) } } := rfl

/-! ### The ends (20 R430, R447) -/

/-- The state in which a pending STANDBY is carried out (20 R430). -/
def State.standbyDue (s : State) : State :=
  let a := s.advance (s.pwr.standbyTick + 100 * msTicks)
  { a with pwr := { a.pwr with standbyWait := none, survey := false } }

theorem standbyEntry_of_sleep (hw : s.pwr.standbyWait = some w) (hp : s.pwr.phase = .sleep) :
    standbyEntry s = enterStandby s.standbyDue w := by
  unfold standbyEntry
  rw [hw]
  change (match s.pwr.phase with | .sleep => _ | _ => _) = _
  rw [hp]
  rfl

theorem standbyEntry_of_awake (hw : s.pwr.standbyWait = some w) (hp : s.pwr.phase ≠ .sleep) :
    standbyEntry s = stopCheck (beginStop s.standbyDue (.standby w)) := by
  unfold standbyEntry
  rw [hw]
  dsimp only
  split
  · rename_i e
    exact absurd e hp
  · rfl

theorem standbyEntry_of_none (h : s.pwr.standbyWait = none) : standbyEntry s = s := by
  unfold standbyEntry
  rw [h]

theorem surveyAcqEnd_of_launched (hp : s.pwr.phase = .acquisition) (hs : s.pwr.survey = true) (hl : s.prb.launched = true) :
    surveyAcqEnd s = beginStop (s.advance (s.epochTick + s.pwr.cycle.surveyAcqS * secTicks)) .survey :=
  if_pos ⟨(State.acquiring_iff s).mpr hp, hs, hl⟩

theorem surveyAcqEnd_of_other (h : s.pwr.phase ≠ .acquisition ∨ s.pwr.survey = false ∨ s.prb.launched = false) : surveyAcqEnd s = s := by
  refine if_neg ?_
  rintro ⟨hp, hs, hl⟩
  simp [(State.acquiring_iff s).mp hp, hs, hl] at h

theorem surveyDrainEnd_of_draining (hp : s.pwr.phase = .stopping) (hd : s.pwr.draining = true) :
    surveyDrainEnd s = stopCheck { s with pwr := { s.pwr with draining := false } } := if_pos ⟨hp, hd⟩

theorem surveyDrainEnd_of_other (h : s.pwr.phase ≠ .stopping ∨ s.pwr.draining = false) : surveyDrainEnd s = s := by
  refine if_neg ?_
  rintro ⟨hp, hd⟩
  simp [hp, hd] at h

end

/-- Settles O21: each end where it is due and where it is not. -/
theorem stopAndSurvey : Obligations.StopAndSurvey := by
  intro s
  refine ⟨fun w hw => ⟨fun hp => ?asleep, fun hp => ?awake⟩, fun h => ?noStandby, fun hp hs hl => ?acqEnds, fun h => ?noAcqEnd,
    fun hp hd => ?drained, fun h => ?noDrain, ?pulse, s.advance_eq⟩
  case asleep => exact leaves_of_eq (standbyEntry_of_sleep hw hp) rfl
  case awake => exact leaves_of_eq (standbyEntry_of_awake hw hp) rfl
  case noStandby => exact leaves_of_eq (standbyEntry_of_none h) rfl
  case acqEnds => exact leaves_of_eq (surveyAcqEnd_of_launched hp hs hl) rfl
  case noAcqEnd => exact leaves_of_eq (surveyAcqEnd_of_other h) rfl
  case drained => exact leaves_of_eq (surveyDrainEnd_of_draining hp hd) rfl
  case noDrain => exact leaves_of_eq (surveyDrainEnd_of_other h) rfl
  case pulse => exact leaves_of_done rfl

/-! ### The mode commands (18 R400; 20 R428 to R430) -/

section
variable {s : State} {w : Nat}

/-- The mode as an accepted command finds it. -/
theorem State.entered_mode (s : State) (h : Hdr) : (s.entered h).mode = s.mode := by
  unfold State.mode
  rw [State.entered_pwr]

theorem startAcq_mode (s : State) : (startAcq s).mode = 2 := by
  unfold startAcq State.mode
  dsimp only
  rw [acqBegin_phase]

theorem acqStartCmd_of_sleep (hp : s.pwr.phase = .sleep) (hw : s.pwr.standbyWait = none) :
    acqStartCmd s = (startAcq s, plain .deferred) := by
  unfold acqStartCmd
  rw [hp, hw]
  rfl

theorem acqStartCmd_of_acquisition (hp : s.pwr.phase = .acquisition) : acqStartCmd s = (s, plain .ok) := by
  unfold acqStartCmd
  rw [hp]

theorem acqStartCmd_of_golden (hp : s.pwr.phase = .golden) : acqStartCmd s = (s, plain .denied) := by
  unfold acqStartCmd
  rw [hp]

theorem acqStartCmd_of_due (hp : s.pwr.phase = .sleep) (hw : s.pwr.standbyWait.isSome = true) : acqStartCmd s = (s, plain .busy) := by
  unfold acqStartCmd
  rw [hp]
  exact if_pos hw

theorem acqStartCmd_of_other (hs : s.pwr.phase ≠ .sleep) (ha : s.pwr.phase ≠ .acquisition) (hg : s.pwr.phase ≠ .golden) :
    acqStartCmd s = (s, plain .busy) := by
  unfold acqStartCmd
  split
  · rename_i e
    exact absurd e hg
  · rename_i e
    exact absurd e hs
  · rename_i e
    exact absurd e ha
  · rfl

theorem acqStopCmd_of_acquisition (hp : s.pwr.phase = .acquisition) :
    acqStopCmd s = (beginStop s (if s.pwr.survey then .survey else .sleep), plain .ok) := by
  unfold acqStopCmd
  rw [hp]

theorem acqStopCmd_of_other (hp : s.pwr.phase ≠ .acquisition) : acqStopCmd s = (s, plain .ok) := by
  unfold acqStopCmd
  split
  · rename_i e
    exact absurd e hp
  · rfl

/-- The golden image runs in mode 0. -/
theorem State.mode_of_golden (hp : s.pwr.phase = .golden) : s.mode = 0 := by
  unfold State.mode
  rw [hp]

theorem standbyCmd_of_golden (hp : s.pwr.phase = .golden) : standbyCmd s w = (s, plain .denied) :=
  (if_pos (State.mode_of_golden hp)).trans (by rw [if_pos hp])

theorem standbyCmd_of_starting (hm : s.mode = 0) (hp : s.pwr.phase ≠ .golden) : standbyCmd s w = (s, plain .busy) :=
  (if_pos hm).trans (by rw [if_neg hp])

theorem standbyCmd_of_configured (hm : s.mode ≠ 0) :
    standbyCmd s w = ({ s with pwr := { s.pwr with standbyWait := some w, standbyTick := s.tim.tick } }, plain .ok) := if_neg hm

theorem acqStart_leaves {h : Hdr} {x : Session} {u : State} {r : Response} (hr : Ready s h 0x0010 1 x)
    (e : acqStartCmd (s.entered h) = (u, r)) : Leaves (.acqStart h) s (u.answer h.sid h.seq r) :=
  command1_leaves hr (fun s _ => acqStartCmd s) rfl e

theorem acqStop_leaves {h : Hdr} {x : Session} {u : State} {r : Response} (hr : Ready s h 0x0011 1 x)
    (e : acqStopCmd (s.entered h) = (u, r)) : Leaves (.acqStop h) s (u.answer h.sid h.seq r) :=
  command1_leaves hr (fun s _ => acqStopCmd s) rfl e

theorem standby_leaves {h : Hdr} {x : Session} {u : State} {r : Response} (hr : Ready s h 0x0013 2 x)
    (e : standbyCmd (s.entered h) w = (u, r)) : Leaves (.standby h w) s (u.answer h.sid h.seq r) :=
  command1_leaves hr (fun s _ => standbyCmd s w) rfl e

end

/-- Settles O20: each command by the mode it finds, STANDBY and ACQ_START also by the image and a STANDBY that is due. -/
theorem modeCommands : Obligations.ModeCommands := by
  intro s h x
  refine ⟨fun hr => ⟨fun hp hw => ⟨?starts, startAcq_mode _⟩, fun hp => ?runs, fun hp => ?golden, fun hb => ?busy⟩,
    fun hr => ⟨fun hp => ?stops, fun hp => ?stopped⟩, fun hr => ?sleeps,
    fun w hr => ⟨fun hp => ?denied, fun hm hp => ?starting, fun hm => ?due⟩⟩
  case starts =>
    refine acqStart_leaves hr (acqStartCmd_of_sleep ?_ ?_)
    · rw [State.entered_pwr]; exact hp
    · rw [State.entered_pwr]; exact hw
  case runs => exact acqStart_leaves hr (acqStartCmd_of_acquisition (by rw [State.entered_pwr]; exact hp))
  case golden => exact acqStart_leaves hr (acqStartCmd_of_golden (by rw [State.entered_pwr]; exact hp))
  case busy =>
    refine acqStart_leaves hr ?_
    rw [← State.entered_pwr s h] at hb
    rcases hb with ⟨hp, hw⟩ | ⟨hs, ha, hg⟩
    · exact acqStartCmd_of_due hp hw
    · exact acqStartCmd_of_other hs ha hg
  case stops =>
    rw [← State.entered_pwr s h] at hp ⊢
    exact acqStop_leaves hr (acqStopCmd_of_acquisition hp)
  case stopped => exact acqStop_leaves hr (acqStopCmd_of_other (by rw [State.entered_pwr]; exact hp))
  case sleeps => exact command1_leaves hr (fun s _ => sleepCmd s) rfl rfl
  case denied => exact standby_leaves hr (standbyCmd_of_golden (by rw [State.entered_pwr]; exact hp))
  case starting => exact standby_leaves hr (standbyCmd_of_starting ((s.entered_mode h).trans hm) (by rw [State.entered_pwr]; exact hp))
  case due => exact standby_leaves hr (standbyCmd_of_configured (by rw [State.entered_mode]; exact hm))

end Sys2Proof.Machine
end

section
/-! SUPPORT. PWR_PADFUSE and the block resets (20 R437, R445). -/

namespace Sys2Proof.Machine

section
variable {s : State} {x : Session} {h : Hdr}

/-! ### PWR_PADFUSE (20 R437) -/

/-- The code that the three bits written for a GPIO fuse. -/
def padCode (v : Nat) : Option Nat := match v with
  | 0 => none
  | 5 | 6 | 7 => some 0
  | v => some v

theorem fuseCode_eq_padCode {v : Nat} (hv : v < 8) : fuseCode v = padCode v := by interval_cases v <;> rfl

/-- The GPIO codes after a write of `v`: the fields fused already stay (20 R437). -/
def State.padFused (s : State) (v : Nat) : State :=
  { s with fuses := { s.fuses with pads := s.fuses.pads.mapIdx fun i f => match f with
    | some c => some c
    | none => padCode (v / 8 ^ i % 8) } }

/-- PWR_PADFUSE may be written: in lifecycle state OPEN, by an ADMIN or over the local port (20 R437). -/
def State.FusesPads (s : State) (x : Session) : Prop := s.fuses.lifecycle = 0 ∧ (x.role = 2 ∨ x.localSess = true)

theorem fusesPads_guard : (s.fuses.lifecycle ≠ 0 ∨ !(x.role == 2 || x.localSess)) ↔ ¬ s.FusesPads x := by
  simp only [State.FusesPads, not_and_or, Bool.not_eq_true', Bool.or_eq_false_iff, beq_eq_false_iff_ne, ne_eq, not_or, Bool.not_eq_true]

theorem padfuseWrite_of_allowed {v : Nat} (ha : s.FusesPads x) : padfuseWrite s x v = (s.padFused v, plain .ok) := by
  have e : (fun (i : Nat) (f : Option Nat) => match f with
      | some c => some c
      | none => fuseCode (v / 8 ^ i % 8)) = fun i f => match f with
      | some c => some c
      | none => padCode (v / 8 ^ i % 8) := by
    funext i f
    cases f with
    | some c => rfl
    | none => exact fuseCode_eq_padCode (Nat.mod_lt _ (by decide))
  refine (if_neg (mt fusesPads_guard.mp (not_not.mpr ha))).trans ?_
  exact congrArg (fun g => (({ s with fuses := { s.fuses with pads := s.fuses.pads.mapIdx g } } : State), plain .ok)) e

theorem padfuseWrite_of_refused {v : Nat} (ha : ¬ s.FusesPads x) : padfuseWrite s x v = (s, plain .denied) :=
  if_pos (fusesPads_guard.mpr ha)

/-- An accepted command finds the fuses and the session's role as they were. -/
theorem fusesPads_entered : (s.entered h).FusesPads (x.entered s h) ↔ s.FusesPads x := by
  unfold State.FusesPads
  rw [State.entered_fuses]
  exact Iff.rfl

theorem padfuse_answers {val : Word} (hr : Ready s h 0x0002 1 x) (ha : s.FusesPads x) :
    Answers (.pwrPadfuseWrite h val) s h x (plain .ok) (s.padFused val.toNat) :=
  command1_local hr (fun s x => padfuseWrite s x val.toNat) rfl (·.padFused val.toNat) _
    (padfuseWrite_of_allowed (fusesPads_entered.mpr ha)) (fun _ => rfl) fun _ => rfl

theorem padfuse_denied {val : Word} (hr : Ready s h 0x0002 1 x) (ha : ¬ s.FusesPads x) :
    Answers (.pwrPadfuseWrite h val) s h x (plain .denied) s :=
  command1_none hr (fun s x => padfuseWrite s x val.toNat) rfl _ (padfuseWrite_of_refused (mt fusesPads_entered.mp ha))

/-! ### The block resets (20 R445) -/

/-- Block `i` reset, its bit of PWR_BLKRST set until BLKRST_DONE. -/
def State.blockCleared (s : State) (i : Nat) : State :=
  let t := blockReset s i
  { t with pwr := { t.pwr with blkrst := t.pwr.blkrst ||| BitVec.ofNat 4 (2 ^ i) } }

/-- The one block that a write of one bit names. -/
theorem bits_of_two_pow {i : Nat} (hi : i < 4) : ((List.range 4).filter fun j => bit (2 ^ i) j) = [i] := by
  interval_cases i <;> decide

theorem blkrstWrite_of_one {i : Nat} (hi : i < 4) :
    blkrstWrite s (2 ^ i) = if s.blockIdle i = true then (s.blockCleared i, plain .ok) else (s, plain .busy) := by
  unfold blkrstWrite
  rw [bits_of_two_pow hi]
  simp only [List.all_cons, List.all_nil, List.foldl, Bool.and_true]
  rfl

theorem State.blockIdle_iff {i : Nat} : s.blockIdle i = true ↔
    (s.mode ≠ 2 ∧ s.mode ≠ 3) ∧ (i = 3 → ∀ y ∈ s.conf.streams, y.en = 1 → y.stype ≠ 8) := by
  simp only [State.blockIdle, Bool.and_eq_true, Bool.or_eq_true, bne_iff_ne, Bool.not_eq_true', List.any_eq_false, beq_iff_eq, not_and,
    ne_eq, imp_iff_not_or (a := i = 3)]

theorem State.entered_blockIdle (s : State) (h : Hdr) (i : Nat) : (s.entered h).blockIdle i = s.blockIdle i := by
  unfold State.blockIdle
  rw [State.entered_mode, State.entered_conf]

theorem blockReset_sessions (s : State) {i : Nat} (hi : i < 4) : (s.blockCleared i).sec.sess = s.sec.sess := by
  interval_cases i <;> rfl

theorem blockReset_core (s : State) {i : Nat} (hi : i < 4) : (s.blockCleared i).core = (s.core.blockCleared i).core := by
  interval_cases i <;> rfl

theorem blkrst_answers {c : Instr} {i : Nat} (hi : i < 4) (hr : Ready s h 0x0002 1 x)
    (hc : exec c s = s.done (s.command1 h 0x0002 1 fun s _ => blkrstWrite s (2 ^ i))) (hb : s.blockIdle i = true) :
    Answers c s h x (plain .ok) (s.blockCleared i) :=
  command1_local hr (fun s _ => blkrstWrite s (2 ^ i)) hc (·.blockCleared i) _
    ((blkrstWrite_of_one hi).trans (if_pos ((s.entered_blockIdle h i).trans hb))) (fun a => blockReset_core a hi)
    fun a => blockReset_sessions a hi

theorem blkrst_busy {c : Instr} {i : Nat} (hi : i < 4) (hr : Ready s h 0x0002 1 x)
    (hc : exec c s = s.done (s.command1 h 0x0002 1 fun s _ => blkrstWrite s (2 ^ i))) (hb : ¬ s.blockIdle i = true) :
    Answers c s h x (plain .busy) s :=
  command1_none hr (fun s _ => blkrstWrite s (2 ^ i)) hc _
    ((blkrstWrite_of_one hi).trans (if_neg (by rw [State.entered_blockIdle]; exact hb)))

/-! ### The end of a block reset -/

variable {failed : List Nat}

theorem blkrstDone_of_none (hb : s.pwr.blkrst = 0) : blkrstDone s failed = s := if_pos hb

theorem blkrstDone_of_other (hb : s.pwr.blkrst ≠ 0) (h1 : s.pwr.blkrst.getLsbD 1 = false) :
    blkrstDone s failed = { s with pwr := { s.pwr with blkrst := 0, int := s.pwr.int.raise 5 } } := by
  refine (if_neg hb).trans ?_
  rw [h1]
  rfl

theorem blkrstDone_of_tiller (h1 : s.pwr.blkrst.getLsbD 1 = true) :
    blkrstDone s failed =
      let t := retireFailed s failed
      { t with pwr := { t.pwr with blkrst := 0, int := t.pwr.int.raise 5 } } := by
  have hb : s.pwr.blkrst ≠ 0 := by
    intro e
    rw [e] at h1
    exact absurd h1 (by decide)
  refine (if_neg hb).trans ?_
  rw [h1]
  rfl

end

/-- Settles O16: PWR_PADFUSE by lifecycle and role, each block reset by whether its block is idle, BLKRST_DONE by the bits it ends. -/
theorem padFusesAndBlockResets : Obligations.PadFusesAndBlockResets := by
  refine ⟨fun s h x val hr => ⟨fun hl hx => ?fuses, fun hd => ?denied⟩,
    fun s h x hr => ⟨fun h2 h3 => ⟨?receiver, ?tiller, ?zone, fun hk => ?housekeeping⟩, fun hm c hc => ?running, fun y hy he ht => ?stream⟩,
    fun s failed => ⟨fun hb => ?none, fun hb h1 => ?ends, fun h1 => ?tillers⟩⟩
  case fuses => exact padfuse_answers hr ⟨hl, hx⟩
  case denied =>
    refine padfuse_denied hr ?_
    rintro ⟨hl, hx⟩
    rcases hd with hd | ⟨h2, h3⟩
    · exact hd hl
    · simp [h2, h3] at hx
  case receiver => exact blkrst_answers (i := 0) (by decide) hr rfl (State.blockIdle_iff.mpr ⟨⟨h2, h3⟩, nofun⟩)
  case tiller => exact blkrst_answers (i := 1) (by decide) hr rfl (State.blockIdle_iff.mpr ⟨⟨h2, h3⟩, nofun⟩)
  case zone => exact blkrst_answers (i := 2) (by decide) hr rfl (State.blockIdle_iff.mpr ⟨⟨h2, h3⟩, nofun⟩)
  case housekeeping => exact blkrst_answers (i := 3) (by decide) hr rfl (State.blockIdle_iff.mpr ⟨⟨h2, h3⟩, fun _ => hk⟩)
  case running =>
    have hb (i : Nat) : ¬ s.blockIdle i = true := fun e => by
      obtain ⟨⟨h2, h3⟩, -⟩ := State.blockIdle_iff.mp e
      exact hm.elim h2 h3
    rcases hc with rfl | rfl | rfl | rfl
    · exact blkrst_busy (i := 0) (by decide) hr rfl (hb 0)
    · exact blkrst_busy (i := 1) (by decide) hr rfl (hb 1)
    · exact blkrst_busy (i := 2) (by decide) hr rfl (hb 2)
    · exact blkrst_busy (i := 3) (by decide) hr rfl (hb 3)
  case stream =>
    exact blkrst_busy (i := 3) (by decide) hr rfl fun e => (State.blockIdle_iff.mp e).2 rfl y hy he ht
  case none => exact leaves_of_eq (blkrstDone_of_none hb) rfl
  case ends => exact leaves_of_eq (blkrstDone_of_other hb h1) rfl
  case tillers => exact leaves_of_eq (blkrstDone_of_tiller h1) rfl

end Sys2Proof.Machine
end

section
/-! SUPPORT. Steps 1 to 3 of the start-up (20 R440; 19 R407, R414). -/

namespace Sys2Proof.Machine

section
variable {s : State} {ms : Nat} {aosBad : List Nat}

/-- Nothing holds the rails off: reach A and B are released and the bus is valid (20 R433, R440). -/
def State.RailsMay (s : State) : Prop := s.pwr.phase = .rails ∧ s.pwr.vao = false ∧ s.pwr.vrst = false ∧ s.pwr.busSeen = true

theorem railsMay_guard : (s.pwr.phase ≠ .rails ∨ s.pwr.vao ∨ s.pwr.vrst ∨ !s.pwr.busSeen) ↔ ¬ s.RailsMay := by
  simp only [State.RailsMay, not_and_or, Bool.not_eq_false, Bool.not_eq_true', Bool.not_eq_true, ne_eq]

theorem railsGood_of_free (h : s.RailsMay) :
    railsGood s = { s with
      free := s.free + 1
      aos := { s.aos with rtc := (s.aos.rtc + Config.freeNat s.free) % 2 ^ 48 }
      pwr := { s.pwr with phase := .pll, rails := true } } := if_neg (mt railsMay_guard.mp (not_not.mpr h))

theorem railsGood_of_held (h : ¬ s.RailsMay) : railsGood s = s := if_pos (railsMay_guard.mpr h)

theorem pllLock_of_step (hp : s.pwr.phase = .pll) (hr : s.pwr.rstHeld = false) :
    pllLock s ms =
      let o := s.flash.options
      { s with
        pwr := { s.pwr with phase := .mgmt, bootCount := (s.pwr.bootCount + 1) % 2 ^ 32 }
        glb := { s.glb with uptimeBase := ms }
        aos := { s.aos with rtcTick := 0 }
        tim := { s.tim with
          counting := true, tick := 0, map := { xa := 0, t := s.aos.rtc * (10 ^ 9 * 2 ^ 48), rho := 0 }, mapOld := []
          st := if s.aos.rtcSet then .rtc else .free }
        cfg := { s.cfg with wakePolicy := o.wakePolicy, overlay := o.overlay, wakeS := o.wakeS, optBad := !s.flash.opt.good } } :=
  if_neg (by simp [hp, hr])

theorem pllLock_of_other (h : s.pwr.phase ≠ .pll ∨ s.pwr.rstHeld = true) : pllLock s ms = s := if_pos h

/-! ### The firmware (19 R414) -/

/-- The firmware that runs where no trial is on: the preferred slot, the other one, the golden one. -/
def State.bootFw (s : State) : Nat :=
  let p := s.flash.options.fw.slot
  if s.fwRuns p then p else if s.fwRuns (1 - p) then 1 - p else 2

/-- Firmware `n` runs: its version and its slot as the registers show them. -/
def State.runsFw (s : State) (n : Nat) : State :=
  { s with
    fact := { s.fact with fwVersion := Config.fwVersion (s.flash.fw n) % 2 ^ 32, fwSvn := Config.fwSvn (s.flash.fw n) % 2 ^ 32 }
    cfg := { s.cfg with fwSlot := if n = 2 then s.cfg.fwSlot else n, fwGolden := n == 2 } }

theorem selectFirmware_of_settled (ht : s.flash.options.fw.trial = false) :
    selectFirmware s = (if s.bootFw = s.flash.options.fw.slot then s else fallBack s).runsFw s.bootFw := by
  unfold selectFirmware State.runsFw State.bootFw
  simp only [ht, Bool.false_eq_true, false_and, if_false, ite_not]

/-- A fallback counted leaves all but the firmware's counters. -/
theorem fallBack_runsFw (n : Nat) :
    (fallBack s).runsFw n = { fallBack s with
      fact := { s.fact with fwVersion := Config.fwVersion (s.flash.fw n) % 2 ^ 32, fwSvn := Config.fwSvn (s.flash.fw n) % 2 ^ 32 }
      cfg := { (fallBack s).cfg with fwSlot := if n = 2 then s.cfg.fwSlot else n, fwGolden := n == 2 } } := by
  unfold State.runsFw fallBack
  split <;> rfl

theorem fallBack_pwr : (fallBack s).pwr = s.pwr := by
  unfold fallBack
  split <;> rfl

theorem coreStart_of_step (hp : s.pwr.phase = .mgmt) :
    coreStart s aosBad =
      let v := selectFirmware (clearRetained s aosBad)
      { v with pwr := { v.pwr with phase := .image } } := if_neg (not_not.mpr hp)

theorem coreStart_of_other (hp : s.pwr.phase ≠ .mgmt) : coreStart s aosBad = s := if_pos hp

theorem coreStart_of_settled (hp : s.pwr.phase = .mgmt) (ht : (clearRetained s aosBad).flash.options.fw.trial = false) :
    coreStart s aosBad =
      let u := clearRetained s aosBad
      let n := u.bootFw
      let t := if n = u.flash.options.fw.slot then u else fallBack u
      { t with
        pwr := { u.pwr with phase := .image }
        fact := { u.fact with fwVersion := Config.fwVersion (u.flash.fw n) % 2 ^ 32, fwSvn := Config.fwSvn (u.flash.fw n) % 2 ^ 32 }
        cfg := { t.cfg with fwSlot := if n = 2 then u.cfg.fwSlot else n, fwGolden := n == 2 } } := by
  rw [coreStart_of_step hp]
  dsimp only
  rw [selectFirmware_of_settled ht]
  by_cases hn : (clearRetained s aosBad).bootFw = (clearRetained s aosBad).flash.options.fw.slot
  · simp only [if_pos hn]
    rfl
  · simp only [if_neg hn, fallBack_runsFw, fallBack_pwr]

end

/-- Settles O17: each step in its phase and out of it; the management core's start with a firmware trial and without one. -/
theorem startUpSteps : Obligations.StartUpSteps := by
  intro s
  refine ⟨fun hp hv hr hb => ?rails, fun h => ?noRails, fun ms hp hr => ?pll, fun ms h => ?noPll,
    fun aosBad hp => ⟨fun ht => ?settled, fun _ => ?trial⟩, rfl, fun aosBad hp => ?noCore⟩
  case rails => exact leaves_of_eq (railsGood_of_free ⟨hp, hv, hr, hb⟩) rfl
  case noRails =>
    refine leaves_of_eq (railsGood_of_held ?_) rfl
    rintro ⟨hp, hv, hr, hb⟩
    simp [hp, hv, hr, hb] at h
  case pll => exact leaves_of_eq (pllLock_of_step hp hr) rfl
  case noPll => exact leaves_of_eq (pllLock_of_other h) rfl
  case settled => exact leaves_of_eq (coreStart_of_settled hp ht) rfl
  case trial => exact leaves_of_eq (coreStart_of_step hp) rfl
  case noCore => exact leaves_of_eq (coreStart_of_other hp) rfl

end Sys2Proof.Machine
end

section
/-! SUPPORT. Steps 4 to 7 of the start-up: the image, the DRAM check and the first configured state (20 R440, R441; 19 R412 to R416). -/

namespace Sys2Proof.Machine

section
variable {s : State} {bad passing failed : List Nat}

/-! ### IMAGE_VALIDATED (20 R440 step 4) -/

/-- The image slot a boot tries next: the preferred one, then the other one. -/
def State.bootSlot (s : State) : Nat := if s.cfg.tried = [] then s.flash.options.boot.slot else 1 - s.cfg.tried.headD 0

theorem State.bootSlot_eq (s : State) : s.bootSlot = match s.cfg.tried with
    | [] => s.flash.options.boot.slot
    | a :: _ => 1 - a := by
  unfold State.bootSlot
  cases s.cfg.tried <;> rfl

/-- The state once the image of `slot` has been accepted. -/
def State.imageAccepted (s : State) (slot : Nat) (v : ImgOk) : State :=
  { s with
    pwr := { s.pwr with phase := .dram }
    cfg := { s.cfg with
      activeSlot := slot, trial := s.flash.options.boot.trial && s.flash.options.boot.slot == slot, accepted := some v.conf
      imgVersion := v.head.version
      imgHash := sha256 ((s.flash.img slot).take (fieldAt (s.flash.img slot) 8 4)), imgKey := keySlotOf v.head.recs } }

theorem imageStep_of_step (hp : s.pwr.phase = .image) (hl : s.fuses.lifecycle ≠ 3) :
    imageStep s = match validate (trialStart s).vctx ((trialStart s).flash.img (trialStart s).bootSlot) with
      | .error r => rejectSlot (trialStart s) (trialStart s).bootSlot r
      | .ok v => (trialStart s).imageAccepted (trialStart s).bootSlot v := by
  refine (if_neg (by simp [hp, hl])).trans ?_
  rw [State.bootSlot_eq]
  rfl

theorem imageStep_of_ok {v : ImgOk} (hp : s.pwr.phase = .image) (hl : s.fuses.lifecycle ≠ 3)
    (hv : validate (trialStart s).vctx ((trialStart s).flash.img (trialStart s).bootSlot) = .ok v) :
    imageStep s = (trialStart s).imageAccepted (trialStart s).bootSlot v := by rw [imageStep_of_step hp hl, hv]

theorem imageStep_of_error {r : Rej} (hp : s.pwr.phase = .image) (hl : s.fuses.lifecycle ≠ 3)
    (hv : validate (trialStart s).vctx ((trialStart s).flash.img (trialStart s).bootSlot) = .error r) :
    imageStep s = rejectSlot (trialStart s) (trialStart s).bootSlot r := by rw [imageStep_of_step hp hl, hv]

theorem imageStep_of_other (h : s.pwr.phase ≠ .image ∨ s.fuses.lifecycle = 3) : imageStep s = s := if_pos h

/-! ### DRAM_CHECK_DONE (20 R440 step 5; 14 R301, R313) -/

/-- The settings of the accepted image in force after a check without an error, before the waiting requests are granted. -/
def State.imageInForce (w : State) (c : Conf) (passing : List Nat) : State :=
  { w with
    conf := c
    aos := { w.aos with dram := w.aos.dram.filter fun e => match e.2 with
      | some slot => !passing.contains slot
      | none => false }
    pwr := { w.pwr with phase := .step6 }
    mem := { w.mem with ready := true }
    rxf := if c.receiver.mode = 1 ∨ w.rxf.range = c.receiver.fixedRange then w.rxf
      else w.rxf.setRange w.tim.tick c.receiver.fixedRange false
    cfg := { w.cfg with accepted := none, image := some c }
    coh := { w.coh with refReady := true, refBuilds := satAdd 16 w.coh.refBuilds 1, int := w.coh.int.raise 0 }
    hka := { w.hka with len := c.hk.len, rwrap := c.hk.len }
    til := { w.til with x := c.probe.throughput, blocksRun := c.probe.nblocks } }

theorem dramCheck_of_step {c : Conf} (hp : s.pwr.phase = .dram) (hc : s.cfg.accepted = some c) :
    dramCheck s bad passing =
      if bad ≠ [] then rejectSlot (leavePatterns s) (leavePatterns s).cfg.activeSlot (rejFree 10 0)
      else (List.range 8).foldl grantAll ((leavePatterns s).imageInForce c passing) := by
  refine (if_neg (not_not.mpr hp)).trans ?_
  rw [hc]
  rfl

theorem dramCheck_of_passed {c : Conf} (hp : s.pwr.phase = .dram) (hc : s.cfg.accepted = some c) :
    dramCheck s [] passing = (List.range 8).foldl grantAll ((leavePatterns s).imageInForce c passing) :=
  (dramCheck_of_step hp hc).trans (if_neg (not_not.mpr rfl))

theorem dramCheck_of_failed {c : Conf} (hp : s.pwr.phase = .dram) (hc : s.cfg.accepted = some c) (hb : bad ≠ []) :
    dramCheck s bad passing = rejectSlot (leavePatterns s) (leavePatterns s).cfg.activeSlot (rejFree 10 0) :=
  (dramCheck_of_step hp hc).trans (if_pos hb)

theorem dramCheck_of_other (h : s.pwr.phase ≠ .dram ∨ s.cfg.accepted = none) : dramCheck s bad passing = s := by
  by_cases hp : s.pwr.phase = .dram
  · refine (if_neg (not_not.mpr hp)).trans ?_
    rw [h.resolve_left (not_not.mpr hp)]
  · exact if_pos hp

/-! ### STARTUP_STEP6_DONE (20 R440 steps 6 and 7, R441) -/

/-- The option bytes at the first configured state: a trial that got this far has passed (19 R416). -/
def State.trialPassed (u : State) : State :=
  { u with
    flash := if u.cfg.trial then { u.flash with opt := { u.flash.options with
      boot := { slot := u.cfg.activeSlot }, good := true, lifecycle := u.fuses.lifecycle, debugLock := u.fuses.debugLock } } else u.flash
    cfg := { u.cfg with trial := false, int := u.cfg.int.raiseIf u.cfg.trial 2 }
    pwr := { u.pwr with configured := true, survey := u.conf.power.surveyEn == 1, int := u.pwr.int.raise 4 }
    hka := { u.hka with running := true } }

/-- The first sleep, with the local-oscillator watch run. -/
def State.configuredSleep (u : State) : State := enterSleep (loScanStart u.trialPassed)

/-- The first configured state starts acquisition at once: with AUTOSTART, or in a survey woken from standby (20 R441). -/
def State.StartsAtOnce (u : State) : Prop := u.conf.power.autostart = 1 ∨ (u.conf.power.surveyEn = 1 ∧ u.pwr.woken = true)

theorem loScanStart_conf (s : State) : (loScanStart s).conf = s.conf := by
  unfold loScanStart
  split <;> rfl

theorem loScanStart_pwr (s : State) : (loScanStart s).pwr = s.pwr := by
  unfold loScanStart
  split <;> rfl

theorem State.configuredSleep_conf (u : State) : u.configuredSleep.conf = u.conf := loScanStart_conf u.trialPassed

theorem State.configuredSleep_woken (u : State) : u.configuredSleep.pwr.woken = u.pwr.woken :=
  calc u.configuredSleep.pwr.woken
    _ = (loScanStart u.trialPassed).pwr.woken := rfl
    _ = u.trialPassed.pwr.woken := congrArg Pwr.woken (loScanStart_pwr _)

theorem State.configuredSleep_mode (u : State) : u.configuredSleep.mode = 1 := rfl

theorem configuredState_eq (u : State) :
    configuredState u =
      if u.configuredSleep.conf.power.autostart = 1 ∨ ((u.conf.power.surveyEn == 1) = true ∧ u.configuredSleep.pwr.woken = true)
      then startAcq u.configuredSleep else u.configuredSleep := by
  unfold State.configuredSleep State.trialPassed configuredState
  cases u.cfg.trial <;> rfl

theorem configuredState_guard (u : State) :
    (u.configuredSleep.conf.power.autostart = 1 ∨ ((u.conf.power.surveyEn == 1) = true ∧ u.configuredSleep.pwr.woken = true)) ↔
      u.StartsAtOnce := by
  rw [State.configuredSleep_conf, State.configuredSleep_woken, beq_iff_eq]
  exact Iff.rfl

theorem step6Done_of_step (hp : s.pwr.phase = .step6) :
    step6Done s failed = configuredState (copyAosLog (retireFailed s failed)) := if_neg (not_not.mpr hp)

theorem step6Done_of_start (hp : s.pwr.phase = .step6) (h : (copyAosLog (retireFailed s failed)).StartsAtOnce) :
    step6Done s failed = startAcq (copyAosLog (retireFailed s failed)).configuredSleep := by
  rw [step6Done_of_step hp, configuredState_eq, if_pos ((configuredState_guard _).mpr h)]

theorem step6Done_of_sleep (hp : s.pwr.phase = .step6) (h : ¬ (copyAosLog (retireFailed s failed)).StartsAtOnce) :
    step6Done s failed = (copyAosLog (retireFailed s failed)).configuredSleep := by
  rw [step6Done_of_step hp, configuredState_eq, if_neg (mt (configuredState_guard _).mp h)]

theorem step6Done_of_other (hp : s.pwr.phase ≠ .step6) : step6Done s failed = s := if_pos hp

end

/-- Settles O18: each step in its phase and out of it, by what the image, the check and the settings say. -/
theorem imageSteps : Obligations.ImageSteps := by
  intro s
  refine ⟨fun hp hl => ⟨fun v hv => ?accepted, fun r hv => ?rejected⟩, fun h => ?noImage,
    fun hp passing c hc => ⟨?passed, fun bad hb => ?failed⟩, fun bad passing h => ?noCheck,
    fun failed hp => ⟨State.configuredSleep_mode _, fun h => ?starts, fun ha hs => ?sleeps⟩, fun failed hp => ?noStep⟩
  case accepted => exact leaves_of_eq (imageStep_of_ok hp hl hv) rfl
  case rejected => exact leaves_of_eq (imageStep_of_error hp hl hv) rfl
  case noImage => exact leaves_of_eq (imageStep_of_other h) rfl
  case passed => exact leaves_of_eq (dramCheck_of_passed hp hc) rfl
  case failed => exact leaves_of_eq (dramCheck_of_failed hp hc hb) rfl
  case noCheck => exact leaves_of_eq (dramCheck_of_other h) rfl
  case starts => exact leaves_of_eq (step6Done_of_start hp h) rfl
  case sleeps =>
    refine leaves_of_eq (step6Done_of_sleep hp ?_) rfl
    rintro (h | ⟨h, hw⟩)
    · exact ha h
    · exact hs.elim (· h) fun e => Bool.false_ne_true (e.symm.trans hw)
  case noStep => exact leaves_of_eq (step6Done_of_other hp) rfl

end Sys2Proof.Machine
end

section
/-! SUPPORT. Staging a slot: the beginning, the erasure, the writes and the check (19 R417, R418). -/

namespace Sys2Proof.Machine

section
variable {s : State} {h : Hdr} {x : Session} {t force len ofs : Nat} {hash data : List Byte}

/-! ### STAGE_BEGIN -/

/-- The operands of STAGE_BEGIN are in range (19 R417). -/
def StageShape (t force len : Nat) (hash : List Byte) : Prop :=
  t ≤ 3 ∧ force ≤ 1 ∧ len ≤ (if t < 2 then 2 ^ 24 else 2 ^ 22) ∧ hash.length = 32

theorem stageShape_guard :
    (3 < t ∨ 1 < force ∨ (if t < 2 then 2 ^ 24 else 2 ^ 22) < len ∨ hash.length ≠ 32) ↔ ¬ StageShape t force len hash := by
  simp only [StageShape, not_and_or, Nat.not_le, ne_eq]

/-- The staging that STAGE_BEGIN opens. -/
def State.staging (s : State) (t len : Nat) (hash : List Byte) : State :=
  { s with
    flash := s.flash.setTarget t []
    cfg := { s.cfg with stage := .erasing, stageTarget := t, stageLen := len, stageHash := hash, staged := [] } }

theorem stageBegin_of_shapeless (hg : ¬ StageShape t force len hash) : stageBegin s t force len hash = (s, plain .invalid) :=
  if_pos (stageShape_guard.mpr hg)

theorem stageBegin_of_shaped (hg : StageShape t force len hash) :
    stageBegin s t force len hash =
      if s.targetUsed t = true then (s, plain .conflict)
      else if s.cfg.stage ≠ .none ∧ force = 0 then (s, plain .busy)
      else (s.staging t len hash, plain .deferred) := if_neg (mt stageShape_guard.mp (not_not.mpr hg))

theorem stageBegin_of_used (hg : StageShape t force len hash) (hu : s.targetUsed t = true) :
    stageBegin s t force len hash = (s, plain .conflict) := (stageBegin_of_shaped hg).trans (if_pos hu)

theorem stageBegin_of_open (hg : StageShape t force len hash) (hu : s.targetUsed t = false) (hs : s.cfg.stage ≠ .none) (hf : force = 0) :
    stageBegin s t force len hash = (s, plain .busy) := by
  rw [stageBegin_of_shaped hg, if_neg (Bool.eq_false_iff.mp hu), if_pos ⟨hs, hf⟩]

theorem stageBegin_of_free (hg : StageShape t force len hash) (hu : s.targetUsed t = false) (hs : s.cfg.stage = .none ∨ force = 1) :
    stageBegin s t force len hash = (s.staging t len hash, plain .deferred) := by
  have hn : ¬ (s.cfg.stage ≠ .none ∧ force = 0) := by
    rintro ⟨ho, hf⟩
    simp [ho, hf] at hs
  rw [stageBegin_of_shaped hg, if_neg (Bool.eq_false_iff.mp hu), if_neg hn]

/-- An accepted command finds the slots in use as they were. -/
theorem State.entered_targetUsed (s : State) (h : Hdr) (t : Nat) : (s.entered h).targetUsed t = s.targetUsed t := by
  unfold State.targetUsed
  rw [State.entered_flash, State.entered_cfg]

theorem stageBegin_refused {r : Response} (hr : Ready s h 0x0040 2 x)
    (e : stageBegin (s.entered h) t force len hash = (s.entered h, r)) : Answers (.stageBegin h t force len hash) s h x r s :=
  command1_none hr (fun s _ => stageBegin s t force len hash) rfl r e

/-! ### STAGE_ERASE_DONE -/

theorem stageErased_of_erasing (he : s.cfg.stage = .erasing) :
    stageErased s = { s with
      flash := s.flash.setTarget s.cfg.stageTarget (List.replicate s.cfg.stageLen 0xFF)
      cfg := { s.cfg with stage := .opened, int := s.cfg.int.raise 3 } } := if_neg (not_not.mpr he)

theorem stageErased_of_other (he : s.cfg.stage ≠ .erasing) : stageErased s = s := if_pos he

/-! ### STAGE_WRITE -/

/-- Offset and data of a STAGE_WRITE are whole words, 4 to 1,024 bytes (19 R417). -/
def WriteShape (ofs n : Nat) : Prop := ofs % 4 = 0 ∧ n % 4 = 0 ∧ 4 ≤ n ∧ n ≤ 1024

theorem writeShape_guard {n : Nat} :
    (s.cfg.stage = .none ∨ ofs % 4 ≠ 0 ∨ n = 0 ∨ n % 4 ≠ 0 ∨ 1024 < n) ↔ s.cfg.stage = .none ∨ ¬ WriteShape ofs n := by
  refine or_congr_right ?_
  unfold WriteShape
  omega

/-- The span meets bytes written before. -/
def State.stagedOver (s : State) (ofs n : Nat) : Bool := s.cfg.staged.any fun e => decide (e.1 < ofs + n ∧ ofs < e.1 + e.2)

/-- The staged bytes with these at their offset. -/
def State.stagedWith (s : State) (ofs : Nat) (data : List Byte) : State :=
  let l := s.flash.target s.cfg.stageTarget
  { s with
    flash := s.flash.setTarget s.cfg.stageTarget (l.take ofs ++ data ++ l.drop (ofs + data.length))
    cfg := { s.cfg with stage := .opened, staged := s.cfg.staged ++ [(ofs, data.length)] } }

theorem stageWrite_of_shapeless (hg : s.cfg.stage = .none ∨ ¬ WriteShape ofs data.length) :
    stageWrite s ofs data = (s, plain .invalid) := if_pos (writeShape_guard.mpr hg)

theorem stageWrite_of_shaped (hs : s.cfg.stage ≠ .none) (hg : WriteShape ofs data.length) :
    stageWrite s ofs data =
      if s.cfg.stage = .erasing then (s, plain .busy)
      else if s.cfg.stageLen < ofs + data.length then (s, plain .invalid)
      else if s.stagedOver ofs data.length = true then (s, plain .conflict)
      else (s.stagedWith ofs data, plain .ok) :=
  if_neg (mt writeShape_guard.mp (by simp [hs, hg]))

theorem stageWrite_of_erasing (he : s.cfg.stage = .erasing) (hg : WriteShape ofs data.length) :
    stageWrite s ofs data = (s, plain .busy) := by rw [stageWrite_of_shaped (by rw [he]; decide) hg, if_pos he]

/-- A staging that takes writes: erased, and perhaps checked. -/
def State.StageOpen (s : State) : Prop := s.cfg.stage = .opened ∨ s.cfg.stage = .checked

theorem State.StageOpen.begun (ho : s.StageOpen) : s.cfg.stage ≠ .none := by
  rcases ho with e | e <;> rw [e] <;> decide

theorem State.StageOpen.erased (ho : s.StageOpen) : s.cfg.stage ≠ .erasing := by
  rcases ho with e | e <;> rw [e] <;> decide

theorem stageWrite_of_open (ho : s.StageOpen) (hg : WriteShape ofs data.length) :
    stageWrite s ofs data =
      if s.cfg.stageLen < ofs + data.length then (s, plain .invalid)
      else if s.stagedOver ofs data.length = true then (s, plain .conflict)
      else (s.stagedWith ofs data, plain .ok) := by rw [stageWrite_of_shaped ho.begun hg, if_neg ho.erased]

theorem stageWrite_of_beyond (ho : s.StageOpen) (hg : WriteShape ofs data.length) (hl : s.cfg.stageLen < ofs + data.length) :
    stageWrite s ofs data = (s, plain .invalid) := by rw [stageWrite_of_open ho hg, if_pos hl]

theorem stageWrite_of_over (ho : s.StageOpen) (hg : WriteShape ofs data.length) (hl : ofs + data.length ≤ s.cfg.stageLen)
    (hv : s.stagedOver ofs data.length = true) : stageWrite s ofs data = (s, plain .conflict) := by
  rw [stageWrite_of_open ho hg, if_neg (Nat.not_lt.mpr hl), if_pos hv]

theorem stageWrite_of_fresh (ho : s.StageOpen) (hg : WriteShape ofs data.length) (hl : ofs + data.length ≤ s.cfg.stageLen)
    (hv : s.stagedOver ofs data.length = false) : stageWrite s ofs data = (s.stagedWith ofs data, plain .ok) := by
  rw [stageWrite_of_open ho hg, if_neg (Nat.not_lt.mpr hl), if_neg (Bool.eq_false_iff.mp hv)]

theorem stageWrite_refused {r : Response} (hr : Ready s h 0x0041 2 x) (e : stageWrite (s.entered h) ofs data = (s.entered h, r)) :
    Answers (.stageWrite h ofs data) s h x r s := command1_none hr (fun s _ => stageWrite s ofs data) rfl r e

/-! ### STAGE_CHECK -/

/-- The staging after a check that the staged bytes fail with `r`. -/
def State.stageFailed (s : State) (r : Rej) : State :=
  { s with cfg := { s.cfg with stage := .opened, rejStage := r, int := s.cfg.int.raise 4 } }

/-- The staging after a check that the staged bytes pass. -/
def State.stagePassed (s : State) : State := { s with cfg := { s.cfg with stage := .checked, rejStage := {}, int := s.cfg.int.raise 4 } }

theorem stageCheck_of_none (hs : s.cfg.stage = .none) : stageCheck s = (s, plain .invalid) := by
  unfold stageCheck
  rw [hs]

theorem stageCheck_of_erasing (hs : s.cfg.stage = .erasing) : stageCheck s = (s, plain .busy) := by
  unfold stageCheck
  rw [hs]

theorem stageCheck_of_open (ho : s.StageOpen) :
    stageCheck s = match s.stageVerdict with
      | some r => (s.stageFailed r, withData .invalid r.bytes)
      | none => (s.stagePassed, plain .ok) := by
  unfold stageCheck
  rcases ho with e | e <;> rw [e] <;> rfl

theorem stageCheck_of_failed {r : Rej} (ho : s.StageOpen) (hv : s.stageVerdict = some r) :
    stageCheck s = (s.stageFailed r, withData .invalid r.bytes) := by rw [stageCheck_of_open ho, hv]

theorem stageCheck_of_passed (ho : s.StageOpen) (hv : s.stageVerdict = none) : stageCheck s = (s.stagePassed, plain .ok) := by
  rw [stageCheck_of_open ho, hv]

/-! ### What an accepted command finds of the staging -/

theorem State.entered_stage (s : State) (h : Hdr) : (s.entered h).cfg.stage = s.cfg.stage := congrArg CfgB.stage (s.entered_cfg h)

theorem State.entered_stageOpen (s : State) (h : Hdr) : (s.entered h).StageOpen ↔ s.StageOpen := by
  unfold State.StageOpen
  rw [State.entered_stage]

theorem State.entered_stageLen (s : State) (h : Hdr) : (s.entered h).cfg.stageLen = s.cfg.stageLen :=
  congrArg CfgB.stageLen (s.entered_cfg h)

theorem State.entered_stagedOver (s : State) (h : Hdr) (ofs n : Nat) : (s.entered h).stagedOver ofs n = s.stagedOver ofs n := by
  unfold State.stagedOver
  rw [State.entered_cfg]

theorem State.entered_stageVerdict (s : State) (h : Hdr) : (s.entered h).stageVerdict = s.stageVerdict := by
  unfold State.stageVerdict State.vctx State.fwRuns
  rw [State.entered_flash, State.entered_cfg, State.entered_fuses, State.entered_fact]

theorem stageCheck_refused {r : Response} (hr : Ready s h 0x0042 2 x) (e : stageCheck (s.entered h) = (s.entered h, r)) :
    Answers (.stageCheck h) s h x r s := command1_none hr (fun s _ => stageCheck s) rfl r e

end

/-- Settles O19: each command by the shape of its operands and the state of the staging. -/
theorem staging : Obligations.Staging := by
  refine ⟨fun s h x hr t force len hash => ⟨fun hg => ?shapeless, fun hg hu => ?used, fun hg hu hs hf => ?isOpen, fun hg hu hs => ?begins⟩,
    fun s => ⟨fun he => ?erased, fun he => ?noErasure⟩,
    fun s h x hr ofs data => ⟨fun hg => ?noWrite, fun he hg => ?erasing, fun ho hg => ⟨fun hl => ?beyond, fun hl hv => ?overlaps,
      fun hl hv => ?writes⟩⟩,
    fun s h x hr => ⟨fun hs => ?noStaging, fun hs => ?checkBusy, fun ho => ⟨fun r hv => ?fails, fun hv => ?passes⟩⟩⟩
  case shapeless => exact stageBegin_refused hr (stageBegin_of_shapeless hg)
  case used => exact stageBegin_refused hr (stageBegin_of_used hg ((s.entered_targetUsed h t).trans hu))
  case isOpen =>
    refine stageBegin_refused hr (stageBegin_of_open hg ((s.entered_targetUsed h t).trans hu) ?_ hf)
    rw [State.entered_stage]
    exact hs
  case begins =>
    refine command1_local hr (fun s _ => stageBegin s t force len hash) rfl (·.staging t len hash) _
      (stageBegin_of_free hg ((s.entered_targetUsed h t).trans hu) ?_) (fun _ => rfl) fun _ => rfl
    rw [State.entered_stage]
    exact hs
  case erased => exact leaves_of_eq (stageErased_of_erasing he) rfl
  case noErasure => exact leaves_of_eq (stageErased_of_other he) rfl
  case noWrite =>
    refine stageWrite_refused hr (stageWrite_of_shapeless ?_)
    rw [State.entered_stage]
    exact hg
  case erasing => exact stageWrite_refused hr (stageWrite_of_erasing ((s.entered_stage h).trans he) hg)
  case beyond =>
    refine stageWrite_refused hr (stageWrite_of_beyond ((s.entered_stageOpen h).mpr ho) hg ?_)
    rw [State.entered_stageLen]
    exact hl
  case overlaps =>
    refine stageWrite_refused hr
      (stageWrite_of_over ((s.entered_stageOpen h).mpr ho) hg ?_ ((s.entered_stagedOver h ofs data.length).trans hv))
    rw [State.entered_stageLen]
    exact hl
  case writes =>
    refine command1_local hr (fun s _ => stageWrite s ofs data) rfl (·.stagedWith ofs data) _
      (stageWrite_of_fresh ((s.entered_stageOpen h).mpr ho) hg ?_ ((s.entered_stagedOver h ofs data.length).trans hv))
      (fun _ => rfl) fun _ => rfl
    rw [State.entered_stageLen]
    exact hl
  case noStaging => exact stageCheck_refused hr (stageCheck_of_none ((s.entered_stage h).trans hs))
  case checkBusy => exact stageCheck_refused hr (stageCheck_of_erasing ((s.entered_stage h).trans hs))
  case fails =>
    exact command1_local hr (fun s _ => stageCheck s) rfl (·.stageFailed r) _
      (stageCheck_of_failed ((s.entered_stageOpen h).mpr ho) ((s.entered_stageVerdict h).trans hv)) (fun _ => rfl) fun _ => rfl
  case passes =>
    exact command1_local hr (fun s _ => stageCheck s) rfl State.stagePassed _
      (stageCheck_of_passed ((s.entered_stageOpen h).mpr ho) ((s.entered_stageVerdict h).trans hv)) (fun _ => rfl) fun _ => rfl

end Sys2Proof.Machine
end

section
/-! SUPPORT. READ and its forms: the words, the read-clear fields and the latched groups (23 R495, R497, R498, R500). -/

namespace Sys2Proof.Machine

section
variable {s : State} {h : Hdr} {x : Session} {addr count incs low : Nat} {up : List Nat}

/-! ### Latched groups (23 R500) -/

/-- The value a latch set holds for an address. -/
def LatchSet.value (l : LatchSet) (a : Nat) : Word := ((l.find? fun e => e.1 == a).map Prod.snd).getD 0

theorem readWord_of_latched {l : LatchSet} (ha : isLatched addr = true) : readWord s l addr = (l.value addr, l) := if_pos ha

theorem readWord_of_live {l : LatchSet} (ha : isLatched addr = false) :
    readWord s l addr = (BitVec.ofNat 32 (liveWord s addr),
      ((latchedBy addr).map fun a => (a, BitVec.ofNat 32 (liveWord s a))) ++ l.filter fun e => !(latchedBy addr).contains e.1) :=
  if_neg (Bool.eq_false_iff.mp ha)

theorem readWords_cons {l : LatchSet} {as : List Nat} :
    readWords s l (addr :: as) =
      ((readWord s l addr).1 :: (readWords s (readWord s l addr).2 as).1, (readWords s (readWord s l addr).2 as).2) := rfl

/-- Latched words are read from the latch set and leave it. -/
theorem readWords_of_latched (l : LatchSet) {as : List Nat} (ha : ∀ a ∈ as, isLatched a = true) :
    readWords s l as = (as.map l.value, l) := by
  induction as with
  | nil => rfl
  | cons a as ih =>
    rw [readWords_cons, readWord_of_latched (ha a (List.mem_cons_self ..))]
    dsimp only
    rw [ih fun b hb => ha b (List.mem_cons_of_mem _ hb)]
    rfl

/-- What has just been latched for an address is its value. -/
theorem value_of_latched (f : Nat → Word) (rest : LatchSet) {a : Nat} (ha : a ∈ up) :
    LatchSet.value ((up.map fun b => (b, f b)) ++ rest) a = f a := by
  unfold LatchSet.value
  induction up with
  | nil => cases ha
  | cons b bs ih =>
    by_cases e : b = a
    · simp [e]
    · have hb : a ∈ bs := (List.mem_cons.mp ha).resolve_left (Ne.symm e)
      simpa [e] using ih hb

/-- The latch set of a reader that has read the low word of a group. -/
def latchAll (s : State) (up : List Nat) (l : LatchSet) : LatchSet :=
  (up.map fun a => (a, BitVec.ofNat 32 (liveWord s a))) ++ l.filter fun e => !up.contains e.1

/-- What the map says of every latched group: its words follow each other in one region, its low word latches the others and is not
latched itself, and none of them holds a read-clear field. -/
theorem latchGroups_shape : ∀ g ∈ latchGroups, spanOk g.1 (4 + 4 * g.2.length) = true ∧
    spanAddrs g.1 (4 + 4 * g.2.length) = g.1 :: g.2 ∧ latchedBy g.1 = g.2 ∧ isLatched g.1 = false ∧
    (g.2.all isLatched) = true ∧ ((g.1 :: g.2).all fun a => (rcAt a).isEmpty) = true := by
  decide

/-- Reading a whole group from its low word on gives every word as it stands at that instant. -/
theorem readWords_of_group {l : LatchSet} (hg : (low, up) ∈ latchGroups) :
    readWords s l (low :: up) = ((low :: up).map fun a => BitVec.ofNat 32 (liveWord s a), latchAll s up l) := by
  obtain ⟨-, -, hby, hlow, hup, -⟩ := latchGroups_shape _ hg
  dsimp only at hby hlow hup
  rw [readWords_cons, readWord_of_live hlow, hby, readWords_of_latched _ fun a ha => List.all_eq_true.mp hup a ha]
  have e : (up.map fun a => BitVec.ofNat 32 (liveWord s a)) = up.map (LatchSet.value (latchAll s up l)) :=
    List.map_congr_left fun a ha => (value_of_latched (fun b => BitVec.ofNat 32 (liveWord s b)) _ ha).symm
  rw [List.map_cons, e]
  rfl

/-- A word without a read-clear field is left by its store. -/
theorem rcStore_of_none {w : Nat} (ha : rcAt addr = []) : rcStore s addr w = s := by
  unfold rcStore
  rw [ha]
  rfl

theorem rcStores_of_none (g : Nat → Nat) {as : List Nat} (ha : ∀ a ∈ as, rcAt a = []) :
    as.foldl (fun t a => rcStore t a (g a)) s = s := by
  induction as with
  | nil => rfl
  | cons a as ih =>
    rw [List.foldl_cons, rcStore_of_none (ha a (List.mem_cons_self ..))]
    exact ih fun b hb => ha b (List.mem_cons_of_mem _ hb)

/-! ### READ (18 R400) -/

/-- The state after the stores of a READ: 0 in every read-clear field of the span, in those of its first word what was counted. -/
def State.readStored (s : State) (addr count incs : Nat) : State :=
  (spanAddrs addr count).foldl (fun t a => rcStore t a (if a = addr then incs else 0)) s

theorem State.readStored_zero (s : State) : s.readStored addr count 0 = (spanAddrs addr count).foldl (fun t a => rcStore t a 0) s := by
  unfold State.readStored
  simp only [ite_self]

theorem spanAddrs_one : spanAddrs addr 4 = [addr] := rfl

theorem State.readStored_one (s : State) : s.readStored addr 4 incs = rcStore s addr incs := by
  unfold State.readStored
  rw [spanAddrs_one, List.foldl_cons, if_pos rfl]
  rfl

/-- The session with this latch set. -/
def Session.latching (y : Session) (l : LatchSet) : Session := { y with latches := l }

theorem State.session_latching (s : State) (sid : Nat) (l : LatchSet) :
    (s.modSession sid (·.latching l)).session sid = (s.session sid).map (·.latching l) :=
  State.session_modSession s sid (·.latching l) fun _ => ⟨rfl, rfl⟩

/-- The state after a READ: the stores done, the groups latched. -/
def State.afterRead (s : State) (x : Session) (addr count incs : Nat) : State :=
  (s.readStored addr count incs).modSession x.sid (·.latching (readWords s x.latches (spanAddrs addr count)).2)

/-- The response of a READ. -/
def readResponse (s : State) (x : Session) (addr count : Nat) : Response :=
  withData .ok ((readWords s x.latches (spanAddrs addr count)).1.flatMap fun w => leBytes 4 w.toNat)

theorem readCmd_of_bad (hs : spanOk addr count = false) : readCmd s x addr count incs = (s, plain .invalid) := if_pos (by simp [hs])

theorem readCmd_of_span (hs : spanOk addr count = true) :
    readCmd s x addr count incs = (s.afterRead x addr count incs, readResponse s x addr count) := if_neg (by simp [hs])

/-- A session is found under its own SID. -/
theorem State.session_sid {sid : Nat} (hx : s.session sid = some x) : x.sid = sid := by
  have := List.find?_some hx
  simp only [Bool.and_eq_true, beq_iff_eq] at this
  exact this.2

/-- The reading session as a READ leaves it. -/
def Session.afterRead (x : Session) (s : State) (h : Hdr) (addr count : Nat) : Session :=
  (x.entered s h).latching (readWords (s.entered h) x.latches (spanAddrs addr count)).2

theorem afterRead_session (hx : s.session h.sid = some x) :
    ((s.entered h).afterRead (x.entered s h) addr count incs).session h.sid = some (x.afterRead s h addr count) := by
  have hsid : (x.entered s h).sid = h.sid := (rfl : _ = x.sid).trans (State.session_sid hx)
  have hk : ((s.entered h).readStored addr count incs).session h.sid = some (x.entered s h) := by
    rw [← State.entered_session hx]
    unfold State.session State.readStored
    rw [(rcSpan_parts _ (fun a => if a = addr then incs else 0) _).1]
  unfold State.afterRead
  rw [hsid, State.session_latching, hk]
  rfl

theorem read_answers {c : Instr} (hr : Ready s h 0x0001 0 x)
    (hc : exec c s = s.done (s.command1 h 0x0001 0 fun s x => readCmd s x addr count incs)) (hs : spanOk addr count = true) :
    Answers c s h x
      (withData .ok ((readWords (s.entered h) x.latches (spanAddrs addr count)).1.flatMap fun w => leBytes 4 w.toNat))
      ((s.entered h).readStored addr count incs) :=
  command1_answers hr (fun s x => readCmd s x addr count incs) hc _ _ _ (readCmd_of_span hs)
    ⟨_, afterRead_session hr.session, rfl, rfl, rfl, rfl⟩ rfl

theorem read_refused {c : Instr} (hr : Ready s h 0x0001 0 x)
    (hc : exec c s = s.done (s.command1 h 0x0001 0 fun s x => readCmd s x addr count incs)) (hs : spanOk addr count = false) :
    Answers c s h x (plain .invalid) s :=
  command1_none hr (fun s x => readCmd s x addr count incs) hc _ (readCmd_of_bad hs)

/-- A READ leaves its session with the latches it has set. -/
theorem read_session {c : Instr} (hr : Ready s h 0x0001 0 x)
    (hc : exec c s = s.done (s.command1 h 0x0001 0 fun s x => readCmd s x addr count incs)) (hs : spanOk addr count = true) :
    ∃ t y, exec c s = .next t ∧ t.session h.sid = some y ∧
      y.latches = (readWords (s.entered h) x.latches (spanAddrs addr count)).2 := by
  obtain ⟨w, hw⟩ := command1_next hr (fun s x => readCmd s x addr count incs) hc _ _ (readCmd_of_span hs)
  have hy : ((s.entered h).afterRead (x.entered s h) addr count incs).session h.sid = some (x.afterRead s h addr count) :=
    afterRead_session hr.session
  exact ⟨_, _, hw, State.answer_session _ hy, rfl⟩

/-- Every single read-clear field stands in a word that can be read. -/
theorem rcSingles_spanOk : ∀ f ∈ rcSingles, spanOk f.addr 4 = true := by
  have e : (rcSingles.all fun f => spanOk f.addr 4) = true := by decide
  exact List.all_eq_true.mp e

theorem rcFieldRead_field {w : Word} {f : RcField} (hr : Ready s h 0x0001 0 x) (hf : f ∈ rcSingles) :
    ∃ t, exec (.rcFieldRead h f.addr w) s = .next t ∧ f.get t = w.toNat / 2 ^ f.lo % 2 ^ f.width := by
  obtain ⟨t, ht, hcore, -⟩ := read_answers (c := .rcFieldRead h f.addr w) hr rfl (rcSingles_spanOk f hf)
  refine ⟨t, ht, ?_⟩
  calc f.get t
    _ = f.get t.core := (rcSingle_core f hf t).symm
    _ = f.get ((s.entered h).readStored f.addr 4 w.toNat).core := by rw [hcore]
    _ = f.get ((s.entered h).readStored f.addr 4 w.toNat) := rcSingle_core f hf _
    _ = f.get (rcStore (s.entered h) f.addr w.toNat) := by rw [State.readStored_one]
    _ = w.toNat / 2 ^ f.lo % 2 ^ f.width := rcSingle_get f hf _ _

/-- The span that a LATCHED_GROUP_READ of an address without a group reads is its word alone. -/
theorem latchedGroupRead_one (hb : latchedBy addr = []) :
    exec (.latchedGroupRead h addr) s = s.done (s.command1 h 0x0001 0 fun s x => readCmd s x addr 4 0) := by
  have e : exec (.latchedGroupRead h addr) s =
    s.done (s.command1 h 0x0001 0 fun s x => readCmd s x addr (4 + 4 * (latchedBy addr).length) 0) := rfl
  rw [hb] at e
  exact e

/-- The span that a LATCHED_GROUP_READ of a group reads is the group. -/
theorem latchedGroupRead_group (hg : (low, up) ∈ latchGroups) :
    exec (.latchedGroupRead h low) s = s.done (s.command1 h 0x0001 0 fun s x => readCmd s x low (4 + 4 * up.length) 0) := by
  have e : exec (.latchedGroupRead h low) s =
    s.done (s.command1 h 0x0001 0 fun s x => readCmd s x low (4 + 4 * (latchedBy low).length) 0) := rfl
  obtain ⟨-, -, hby, -⟩ := latchGroups_shape _ hg
  dsimp only at hby
  rw [hby] at e
  exact e

end

/-- Settles O10: each form by its span; a group through the shape of the map, a field through its store. -/
theorem readCommands : Obligations.ReadCommands := by
  intro s h x hr
  refine ⟨fun addr count hs => ?bad, fun addr count hs => ?words, fun addr incs hs => ?badField, fun addr incs hs => ?field,
    fun addr incs f hf ha => ?counted, fun low up hg => ⟨?group, ?latches⟩, fun addr hb hs => ?badGroup, fun addr hb hs => ?alone⟩
  case bad => exact read_refused hr rfl hs
  case words =>
    rw [← State.readStored_zero]
    exact read_answers hr rfl hs
  case badField => exact read_refused (count := 4) (incs := incs.toNat) hr rfl hs
  case field =>
    rw [← State.readStored_one]
    exact read_answers (count := 4) hr rfl hs
  case counted =>
    rw [← ha]
    exact rcFieldRead_field hr hf
  case group =>
    obtain ⟨hs, has, -, -, -, hrc⟩ := latchGroups_shape _ hg
    have e := read_answers hr (latchedGroupRead_group hg) hs
    dsimp only at has hrc
    rw [State.readStored_zero, has, readWords_of_group hg,
      rcStores_of_none (fun _ => 0) fun a ha => List.isEmpty_iff.mp (List.all_eq_true.mp hrc a ha), List.flatMap_map] at e
    exact e
  case latches =>
    obtain ⟨hs, has, -⟩ := latchGroups_shape _ hg
    obtain ⟨t, y, ht, hy, hl⟩ := read_session hr (latchedGroupRead_group hg) hs
    dsimp only at has
    rw [has, readWords_of_group hg] at hl
    refine ⟨t, y, ht, hy, fun a ha => ?_⟩
    rw [hl]
    exact List.mem_append_left _ (List.mem_map_of_mem ha)
  case badGroup => exact read_refused hr (latchedGroupRead_one hb) hs
  case alone =>
    rw [← State.readStored_one]
    exact read_answers hr (latchedGroupRead_one hb) hs

end Sys2Proof.Machine
end

section
/-! SUPPORT. WRITE and its forms: the words that act, INT_STATUS and INT_ENABLE, HK_RD, LOG_SEL and GPIO_OUT (23 R495 to R499, R505). -/

namespace Sys2Proof.Machine

section
variable {s : State} {h : Hdr} {x : Session} {addr : Nat} {data : List Word} {w val hw : Word} {r : Result}

/-! ### WRITE (23 R495 to R497) -/

/-- A write to PWR_BLKRST leaves the sessions. -/
theorem blkrstWrite_sessions (s : State) (v : Nat) : (blkrstWrite s v).1.sec.sess = s.sec.sess := by
  have key : ∀ (l : List Nat) (a : State), (l.foldl blockReset a).sec.sess = a.sec.sess := by
    intro l
    induction l with
    | nil => exact fun _ => rfl
    | cons i l ih =>
      intro a
      rw [List.foldl_cons, ih]
      unfold blockReset
      split <;> rfl
  unfold blkrstWrite
  dsimp only
  split
  · exact key _ s
  · rfl

/-- A write to PWR_PADFUSE leaves the sessions. -/
theorem padfuseWrite_sessions (s : State) (x : Session) (v : Nat) : (padfuseWrite s x v).1.sec.sess = s.sec.sess := by
  unfold padfuseWrite
  split <;> rfl

theorem hkWriteRd_sessions (s : State) (v : Nat) : (hkWriteRd s v).sec.sess = s.sec.sess := by
  unfold hkWriteRd
  split <;> rfl

/-- The interrupt pairs lie beside the sessions. -/
theorem intRegs_sessions : ∀ q ∈ intRegs, ∀ (s : State) (p : IntPair), (q.set s p).sec.sess = s.sec.sess := by
  simp only [intRegs, List.forall_mem_cons, List.not_mem_nil, false_implies, implies_true, and_true]

/-- A write to INT_STATUS or INT_ENABLE leaves the sessions. -/
theorem intWrite_sessions (s : State) (addr : Nat) (v hw : Word) : (intWrite s addr v hw).sec.sess = s.sec.sess := by
  unfold intWrite
  split
  · rfl
  · rename_i q hq
    have hk := intRegs_sessions q (List.mem_of_find?_eq_some hq)
    dsimp only
    split <;> exact hk s _

/-- A word written leaves the sessions. -/
theorem writeWord_sessions (s : State) (x : Session) (addr : Nat) (w hw : Word) : (writeWord s x addr w hw).sec.sess = s.sec.sess := by
  unfold writeWord
  dsimp only
  split
  case h_5 => exact blkrstWrite_sessions s _
  case h_6 => exact padfuseWrite_sessions s x _
  case h_9 => exact hkWriteRd_sessions s _
  case h_11 => exact intWrite_sessions s addr w hw
  all_goals rfl

/-- The words of a span written in increasing address. -/
def State.written (s : State) (x : Session) (addr : Nat) (data : List Word) (hw : Word) : State :=
  ((spanAddrs addr (4 * data.length)).zip data).foldl (fun t p => writeWord t x p.1 p.2 hw) s

theorem State.written_sessions (s : State) (x : Session) (addr : Nat) (data : List Word) (hw : Word) :
    (s.written x addr data hw).sec.sess = s.sec.sess := by
  unfold State.written
  generalize (spanAddrs addr (4 * data.length)).zip data = l
  induction l generalizing s with
  | nil => rfl
  | cons p l ih => exact (ih _).trans (writeWord_sessions s x p.1 p.2 hw)

/-- What refuses a WRITE of writable words: the refusal of its first word that refuses. -/
def State.writeRefusal (s : State) (x : Session) (addr : Nat) (data : List Word) : Option Result :=
  ((spanAddrs addr (4 * data.length)).zip data).findSome? fun p => writeRefused s x p.1 p.2

/-- A span of writable words inside one region. -/
def WritableSpan (addr n : Nat) : Prop := spanOk addr (4 * n) = true ∧ ((spanAddrs addr (4 * n)).all writable) = true

theorem writableSpan_guard {n : Nat} :
    ((!spanOk addr (4 * n)) = true ∨ (!(spanAddrs addr (4 * n)).all writable) = true) ↔ ¬ WritableSpan addr n := by
  simp only [WritableSpan, not_and_or, Bool.not_eq_true', Bool.not_eq_true]

theorem writeCmd_of_bad (hs : ¬ WritableSpan addr data.length) : writeCmd s x addr data hw = (s, plain .invalid) :=
  if_pos (writableSpan_guard.mpr hs)

theorem writeCmd_of_span (hs : WritableSpan addr data.length) :
    writeCmd s x addr data hw = match s.writeRefusal x addr data with
      | some r => (s, plain r)
      | none => (s.written x addr data hw, plain .ok) := if_neg (mt writableSpan_guard.mp (not_not.mpr hs))

theorem writeCmd_of_refused (hs : WritableSpan addr data.length) (hr : s.writeRefusal x addr data = some r) :
    writeCmd s x addr data hw = (s, plain r) := by rw [writeCmd_of_span hs, hr]

theorem writeCmd_of_taken (hs : WritableSpan addr data.length) (hr : s.writeRefusal x addr data = none) :
    writeCmd s x addr data hw = (s.written x addr data hw, plain .ok) := by rw [writeCmd_of_span hs, hr]

/-- A command that is a WRITE of `data` at `addr`, hardware setting the bits `hw` in that cycle. -/
def IsWrite (c : Instr) (s : State) (h : Hdr) (addr : Nat) (data : List Word) (hw : Word) : Prop :=
  exec c s = s.done (s.command1 h 0x0002 1 fun s x => writeCmd s x addr data hw)

section
variable {c : Instr} (hr : Ready s h 0x0002 1 x) (hc : IsWrite c s h addr data hw)
include hr hc

theorem write_invalid (hs : ¬ WritableSpan addr data.length) : Answers c s h x (plain .invalid) s :=
  command1_none hr (fun s x => writeCmd s x addr data hw) hc _ (writeCmd_of_bad hs)

theorem write_refused (hs : WritableSpan addr data.length) (hn : (s.entered h).writeRefusal (x.entered s h) addr data = some r) :
    Answers c s h x (plain r) s :=
  command1_none hr (fun s x => writeCmd s x addr data hw) hc _ (writeCmd_of_refused hs hn)

theorem write_answers (hs : WritableSpan addr data.length) (hn : (s.entered h).writeRefusal (x.entered s h) addr data = none) :
    Answers c s h x (plain .ok) ((s.entered h).written (x.entered s h) addr data hw) :=
  command1_answers_kept hr (fun s x => writeCmd s x addr data hw) hc _ _ _ (writeCmd_of_taken hs hn) (State.written_sessions ..) rfl

end

end

/-- Settles O11: a WRITE by its span and by the words that refuse it. -/
theorem writeCommand : Obligations.WriteCommand := by
  intro s h x addr data hr
  refine ⟨fun hb => ?bad, fun hs hw => ⟨fun r hn => ?refused, fun hn => ?written⟩⟩
  case bad =>
    refine write_invalid (hw := 0) hr rfl ?_
    rintro ⟨hs, hw⟩
    simp [hs, hw] at hb
  case refused => exact write_refused (hw := 0) hr rfl ⟨hs, hw⟩ hn
  case written => exact write_answers (hw := 0) hr rfl ⟨hs, hw⟩ hn

section
variable {s : State} {h : Hdr} {x : Session} {addr : Nat} {w val hw : Word} {r : Result} {c : Instr}

/-! ### The WRITE of one word -/

theorem writableSpan_one : WritableSpan addr 1 ↔ spanOk addr 4 = true ∧ writable addr = true := by
  have e : ((spanAddrs addr (4 * 1)).all writable) = writable addr := Bool.and_true _
  unfold WritableSpan
  rw [e]

theorem zip_one : (spanAddrs addr (4 * [w].length)).zip [w] = [(addr, w)] := by
  rw [List.length_singleton, spanAddrs_one]
  rfl

theorem State.writeRefusal_one (s : State) (x : Session) (addr : Nat) (w : Word) : s.writeRefusal x addr [w] = writeRefused s x addr w := by
  unfold State.writeRefusal
  rw [zip_one, List.findSome?_singleton]

theorem State.written_one (s : State) (x : Session) (addr : Nat) (w hw : Word) : s.written x addr [w] hw = writeWord s x addr w hw := by
  unfold State.written
  rw [zip_one]
  rfl

section
variable (hr : Ready s h 0x0002 1 x) (hc : IsWrite c s h addr [val] hw)
include hr hc

theorem writeOne_invalid (hs : spanOk addr 4 = false ∨ writable addr = false) : Answers c s h x (plain .invalid) s := by
  refine write_invalid hr hc fun e => ?_
  obtain ⟨h1, h2⟩ := writableSpan_one.mp e
  simp [h1, h2] at hs

theorem writeOne_refused (hs : spanOk addr 4 = true) (ha : writable addr = true)
    (hn : writeRefused (s.entered h) (x.entered s h) addr val = some r) : Answers c s h x (plain r) s :=
  write_refused hr hc (writableSpan_one.mpr ⟨hs, ha⟩) ((State.writeRefusal_one ..).trans hn)

theorem writeOne_answers (hs : spanOk addr 4 = true) (ha : writable addr = true)
    (hn : writeRefused (s.entered h) (x.entered s h) addr val = none) :
    Answers c s h x (plain .ok) (writeWord (s.entered h) (x.entered s h) addr val hw) := by
  rw [← State.written_one]
  exact write_answers hr hc (writableSpan_one.mpr ⟨hs, ha⟩) ((State.writeRefusal_one ..).trans hn)

/-- The WRITE of one word whose effect `g` is told from the state's core. -/
theorem writeOne_local (hs : spanOk addr 4 = true) (ha : writable addr = true)
    (hn : writeRefused (s.entered h) (x.entered s h) addr val = none) (g : State → State)
    (hg : writeWord (s.entered h) (x.entered s h) addr val hw = g (s.entered h)) (hcore : ∀ a : State, (g a).core = (g a.core).core)
    (hsess : ∀ a : State, (g a).sec.sess = a.sec.sess) : Answers c s h x (plain .ok) (g s) :=
  command1_local hr (fun s x => writeCmd s x addr [val] hw) hc g _
    ((writeCmd_of_taken (writableSpan_one.mpr ⟨hs, ha⟩) ((State.writeRefusal_one ..).trans hn)).trans
      (congrArg (·, plain .ok) ((State.written_one ..).trans hg))) hcore hsess

end

/-! ### INT_STATUS and INT_ENABLE (23 R499) -/

/-- What the map says of every interrupt pair: both its words can be written, neither is a word that acts. -/
theorem intRegs_words : ∀ q ∈ intRegs.map IntReg.addr, (spanOk q 4 = true ∧ writable q = true ∧ q ∉ writableWords) ∧
    (spanOk (q + 4) 4 = true ∧ writable (q + 4) = true ∧ q + 4 ∉ writableWords) := by decide

/-- Each interrupt pair is found by the address of either of its words. -/
theorem intRegs_find : ∀ q ∈ intRegs, (intRegs.find? fun p => p.addr == q.addr || p.addr + 4 == q.addr) = some q ∧
    (intRegs.find? fun p => p.addr == q.addr + 4 || p.addr + 4 == q.addr + 4) = some q := by
  simp only [intRegs, List.forall_mem_cons, List.not_mem_nil, false_implies, implies_true, and_true]
  repeat' apply And.intro
  all_goals rfl

/-- A word that does not act when written refuses nothing. -/
theorem writeRefused_of_quiet (ha : addr ∉ writableWords) : writeRefused s x addr w = none := by
  unfold writeRefused
  split
  case h_1 => exact absurd (by decide) ha
  case h_2 => exact absurd (by decide) ha
  case h_3 => rfl

/-- A word that does not act when written is an interrupt register's. -/
theorem writeWord_of_quiet (ha : addr ∉ writableWords) : writeWord s x addr w hw = intWrite s addr w hw := by
  unfold writeWord
  split
  case h_11 => rfl
  all_goals exact absurd (by decide) ha

theorem intWrite_status {q : IntReg} (hq : q ∈ intRegs) :
    intWrite s q.addr w hw =
      q.set s { q.get s with st := ((q.get s).st &&& ~~~w) ||| (hw &&& BitVec.ofNat 32 (2 ^ q.bits - 1)) } := by
  unfold intWrite
  rw [(intRegs_find q hq).1]
  exact if_pos rfl

theorem intWrite_enable {q : IntReg} (hq : q ∈ intRegs) :
    intWrite s (q.addr + 4) w hw = q.set s { q.get s with en := w &&& BitVec.ofNat 32 (2 ^ q.bits - 1) } := by
  unfold intWrite
  rw [(intRegs_find q hq).2]
  exact if_neg (by omega)

theorem w1cWrite_status {q : IntReg} (hr : Ready s h 0x0002 1 x) (hq : q ∈ intRegs) :
    Answers (.w1cWrite h q.addr val hw) s h x (plain .ok)
      (q.set (s.entered h) { q.get (s.entered h) with
        st := ((q.get (s.entered h)).st &&& ~~~val) ||| (hw &&& BitVec.ofNat 32 (2 ^ q.bits - 1)) }) := by
  obtain ⟨⟨hs, hw', hn⟩, -⟩ := intRegs_words _ (List.mem_map_of_mem hq)
  rw [← intWrite_status hq, ← writeWord_of_quiet (x := x.entered s h) hn]
  exact writeOne_answers hr rfl hs hw' (writeRefused_of_quiet hn)

theorem intEnableWrite_enable {q : IntReg} (hr : Ready s h 0x0002 1 x) (hq : q ∈ intRegs) :
    Answers (.intEnableWrite h (q.addr + 4) val) s h x (plain .ok)
      (q.set (s.entered h) { q.get (s.entered h) with en := val &&& BitVec.ofNat 32 (2 ^ q.bits - 1) }) := by
  obtain ⟨-, hs, hw', hn⟩ := intRegs_words _ (List.mem_map_of_mem hq)
  rw [← intWrite_enable (hw := 0) hq, ← writeWord_of_quiet (x := x.entered s h) hn]
  exact writeOne_answers hr rfl hs hw' (writeRefused_of_quiet hn)

/-! ### HK_RD (17 R367, R371) -/

/-- The host reader's wrap once its read index has moved to `v`. -/
def Hka.wrapAt (a : Hka) (v : Nat) : Nat := if v < a.rd then a.len else a.rwrap

/-- The host reader at `v`, with this many samples unread. -/
def State.hkMoved (s : State) (v n : Nat) : State := { s with hka := { s.hka with rd := v, unread := n, rwrap := s.hka.wrapAt v } }

theorem hkWriteRd_of_newest {v : Nat} (hv : v = s.hka.wp) : hkWriteRd s v = s.hkMoved v 0 := by
  unfold hkWriteRd HkReader.moveTo
  dsimp only
  rw [if_pos hv]
  rfl

theorem hkWriteRd_of_unread {v n : Nat} (hv : v ≠ s.hka.wp)
    (hn : ((s.hka.reader.slots s.hka.len).findIdx? fun i => i == v) = some n) : hkWriteRd s v = s.hkMoved v (s.hka.unread - n) := by
  unfold hkWriteRd HkReader.moveTo
  dsimp only
  rw [if_neg hv, hn]
  rfl

theorem hkWriteRd_of_other {v : Nat} (hv : v ≠ s.hka.wp) (hn : v ∉ s.hka.reader.slots s.hka.len) :
    hkWriteRd s v = { s with hka := { s.hka with rdBad := true } } := by
  have e : ((s.hka.reader.slots s.hka.len).findIdx? fun i => i == v) = none := by
    rw [List.findIdx?_eq_none_iff]
    intro i hi
    exact beq_eq_false_iff_ne.mpr fun e => hn (e ▸ hi)
  unfold hkWriteRd HkReader.moveTo
  dsimp only
  rw [if_neg hv, e]

/-- HK_RD_WRITE by what the read index becomes. -/
theorem hkRdWrite_answers (hr : Ready s h 0x0002 1 x) (g : State → State) (hg : hkWriteRd (s.entered h) (val.toNat % 65536) = g (s.entered h))
    (hcore : ∀ a : State, (g a).core = (g a.core).core) (hsess : ∀ a : State, (g a).sec.sess = a.sec.sess) :
    Answers (.hkRdWrite h val) s h x (plain .ok) (g s) :=
  writeOne_local (c := .hkRdWrite h val) (addr := 0x0F01C) (hw := 0) hr rfl (by decide) (by decide) rfl g hg hcore hsess

/-! ### LOG_SEL (22 R492) -/

/-- The entries LOG_SEL can show. -/
def State.logHeld (s : State) : List LogEntry := s.flash.logEntries ++ s.logAll

/-- LOG_SEL at `v`, with the entry found there or none. -/
def State.logShown (s : State) (v : Nat) (e : Option LogEntry) : State :=
  { s with bgw := { s.bgw with
    logSel := v, logSelValid := e.isSome
    logWords := (List.range 16).map fun i => BitVec.ofNat 32 (wordAt ((e.map LogEntry.bytes).getD (zeros 64)) (4 * i)) } }

theorem logSelect_eq (s : State) (v : Nat) : logSelect s v = s.logShown v (s.logHeld.find? fun e => e.seq == v) := by
  unfold logSelect State.logFind State.logHeld
  rw [List.find?_append]
  cases s.flash.logEntries.find? fun e => e.seq == v with
  | some e => rfl
  | none =>
    change s.modBgw _ = _
    dsimp only
    cases s.logAll.find? fun e => e.seq == v <;> rfl

/-- An accepted command finds the log as it was. -/
theorem State.entered_logHeld (s : State) (h : Hdr) : (s.entered h).logHeld = s.logHeld := by
  unfold State.logHeld State.logAll
  rw [State.entered_flash, State.entered_aos, State.entered_bgw]

theorem logSelWrite_answers (hr : Ready s h 0x0002 1 x) :
    Answers (.logSelWrite h val) s h x (plain .ok) (s.logShown val.toNat (s.logHeld.find? fun e => e.seq == val.toNat)) := by
  rw [← State.entered_logHeld s h]
  exact writeOne_local (c := .logSelWrite h val) (addr := 0x13078) (hw := 0) hr rfl (by decide) (by decide) rfl (·.logShown val.toNat _)
    (logSelect_eq _ _) (fun _ => rfl) fun _ => rfl

end

/-- Settles O12: each write by its address; HK_RD by the unread samples, LOG_SEL by the entries held. -/
theorem statusAndSelectorWrites : Obligations.StatusAndSelectorWrites := by
  refine ⟨fun s h x val hw hr => ⟨fun q hq => ?status, fun q hq => ?enable, ?mask, fun addr hs => ⟨?noStatus, ?noEnable⟩,
      fun addr hs ha r hn => ⟨?statusRefused, ?enableRefused⟩, fun addr hs ha hn => ⟨?statusWritten, ?enableWritten⟩⟩,
    fun s h x val hr => ⟨⟨fun hv => ?newest, fun hv n hn => ?unread, fun hv hn => ?badIndex⟩, fun e he => ?shown, fun hn => ?notHeld, ?gpio⟩⟩
  case status => exact w1cWrite_status hr hq
  case enable => exact intEnableWrite_enable hr hq
  case mask =>
    exact writeOne_local (c := .intEnableWrite h 0x00114 val) (addr := 0x00114) (hw := 0) hr rfl (by decide) (by decide) rfl
      (fun s => { s with glb := { s.glb with intMask := BitVec.ofNat 20 val.toNat } }) rfl (fun _ => rfl) fun _ => rfl
  case noStatus => exact writeOne_invalid (hw := hw) hr rfl hs
  case noEnable => exact writeOne_invalid (hw := 0) hr rfl hs
  case statusRefused => exact writeOne_refused (hw := hw) hr rfl hs ha hn
  case enableRefused => exact writeOne_refused (hw := 0) hr rfl hs ha hn
  case statusWritten => exact writeOne_answers hr rfl hs ha hn
  case enableWritten => exact writeOne_answers hr rfl hs ha hn
  case newest =>
    exact hkRdWrite_answers hr (·.hkMoved _ 0) (hkWriteRd_of_newest (by rw [State.entered_hka]; exact hv)) (fun _ => rfl) fun _ => rfl
  case unread =>
    refine hkRdWrite_answers hr (fun a => a.hkMoved _ (a.hka.unread - n)) (hkWriteRd_of_unread ?_ ?_) (fun _ => rfl) fun _ => rfl
    · rw [State.entered_hka]; exact hv
    · rw [State.entered_hka]; exact hn
  case badIndex =>
    refine hkRdWrite_answers hr (fun a => { a with hka := { a.hka with rdBad := true } }) (hkWriteRd_of_other ?_ ?_) (fun _ => rfl)
      fun _ => rfl
    · rw [State.entered_hka]; exact hv
    · rw [State.entered_hka]; exact hn
  case shown =>
    have e' := logSelWrite_answers (val := val) hr
    rw [show (s.logHeld.find? fun e => e.seq == val.toNat) = some e from he] at e'
    exact e'
  case notHeld =>
    have e' := logSelWrite_answers (val := val) hr
    have hf : (s.logHeld.find? fun e => e.seq == val.toNat) = none :=
      List.find?_eq_none.mpr fun e he => by simpa using hn e he
    rw [hf] at e'
    exact e'
  case gpio =>
    exact writeOne_local (c := .gpioOutWrite h val) (addr := 0x00064) (hw := 0) hr rfl (by decide) (by decide) rfl
      (fun s => { s with glb := { s.glb with gpioOut := BitVec.ofNat 8 val.toNat } }) rfl (fun _ => rfl) fun _ => rfl

end Sys2Proof.Machine
end
